-- ==== Sys2Proof/Word.lean ====
section
/-! DEFINITION. The words of the slice: 64 B sectors, 64-bit registers, and bit fields of numbers. -/

namespace Sys2Proof

/-- One 64 B sector, byte 0 in the low bits (00_scope, little-endian numbers). -/
abbrev Sector := BitVec 512

/-- One register or memory word of 64 bits. -/
abbrev Word := BitVec 64

/-- Bits `[hi:lo]` of a number, both ends included, moved to bit 0. -/
def bits (n hi lo : Nat) : Nat := (n >>> lo) % 2 ^ (hi + 1 - lo)

/-- Bit `i` of a number. -/
def bit (n i : Nat) : Bool := (n >>> i) % 2 == 1

/-- A Boolean as the number 0 or 1. -/
def b2n (b : Bool) : Nat := if b then 1 else 0

end Sys2Proof
end

