-- ==== Sys2Proof/Syntax.lean ====
section
/-! DEFINITION. The commands of the slice, one constructor per row of spec/opcode_table.json, and their operands. -/

namespace Sys2Proof

/-- One `DAT` in flit (R13, R26): its sector bit, payload, poison and last bits, the reserved bits [23:16] of its sideband, and the
number of flipped bits its check bits show (0 none, 1 corrected, 2 or more uncorrectable, R19). Nothing reads the last and the
reserved bits: what a transfer still lacks is known from its request. -/
structure DatFlit where
  sector : Nat
  data   : Sector
  poison : Bool := false
  last   : Bool := true
  reserved : Nat := 0
  flips  : Nat := 0
deriving DecidableEq, Repr, Inhabited

/-- A `REQ` flit on `FAB<port>` (R14) without its opcode, and the `DAT` in flits that have arrived by its FCLK 12.
`size` is the 3-bit code of R15; `flips` is what the check bits of [127:120] show (R19). -/
structure Req where
  port        : Nat
  agent       : Nat
  txid        : Nat
  addr        : Nat
  size        : Nat
  part        : Nat := 0
  tint        : Nat := 0
  scope       : Nat := 1
  lastUse     : Bool := false
  fenced      : Bool := false
  provisional : Bool := false
  reserved    : Nat := 0
  flips       : Nat := 0
  dat         : List DatFlit := []
deriving DecidableEq, Repr, Inhabited

/-- The fabric request opcodes of R155, R216, R247 and R265; `other n` is any opcode none of them assigns. -/
inductive ReqOp where
  | rdShared | rdOnce | rdUnique | upgrade | wrFull | wrPartial | zeroLine | append
  | writeback | writeclean | evictClean | confirm | cancel
  | atAdd | atCadd | atMin | atMax | atAnd | atOr | atXor | atSwap | atCas64 | atCas128
  | accumulate | rdFused | winArrive | winFold | winCollect | cueRing
  | other (n : Nat)
deriving DecidableEq, Repr, Inhabited

/-- A write of `MB_CMD` (R373): the mailbox (none for management, `some p` for window `p`), whether the access has
`MGMT` set, the command's `SEQ`, the reserved bits of `MB_CMD` ([63:16] and [7]), and the eight argument words that
stand in `MB_ARG0` to `MB_ARG7` when it is written. -/
structure MbCmd where
  window : Option Nat := none
  mgmt   : Bool := true
  srcPart : Nat := 0
  seq    : Nat := 0
  resv   : Nat := 0
  args   : List Word := []
deriving DecidableEq, Repr, Inhabited

/-- A write of `TDC_OP` in window `part` (R319, R391), with the values that stand in `TDC_ADDR` and `TDC_DATA`. -/
structure TdcCmd where
  part : Nat
  mgmt : Bool := true
  srcPart : Nat := 0
  kind : Nat := 0
  addr : Nat := 0
  data : Word := 0
  resv : Nat := 0
deriving DecidableEq, Repr, Inhabited

/-- The source of a CSRP access (R41): the `MGMT` bit and the 4-bit source partition. -/
structure Csrp where
  mgmt : Bool := true
  part : Nat := 0
deriving DecidableEq, Repr, Inhabited

/-- An `SNR` flit (R162). -/
structure Snr where
  port  : Nat
  id    : Nat
  code  : Nat
  data  : Bool := false
  pd    : Bool := false
  notice : Nat := 0
  flips : Nat := 0
deriving DecidableEq, Repr, Inhabited

/-- A read-data flit of a memory port (R31). -/
structure MemFlit where
  port   : Nat
  mtag   : Nat
  sector : Nat
  data   : Sector := 0
  poison : Bool := false
  last   : Bool := true
  reserved : Nat := 0
  flips  : Nat := 0
deriving DecidableEq, Repr, Inhabited

/-- The straps and the sampled operating point at `RST_N` release (R44, R439). -/
structure Straps where
  index : Nat := 0
  half  : Nat := 0
  primary : Bool := false
  split : Bool := false
deriving DecidableEq, Repr, Inhabited

/-- The words and tag a twin sends in `CAPS` (R398), and the `NONCE` this slice sent it. -/
structure Caps where
  word0 : Word
  nonce : Word
  tag   : Word
  myNonce : Word
deriving DecidableEq, Repr, Inhabited

/-- A span frame as received (R395): its sixteen 64 B units. -/
structure SpanFrame where
  units : List Sector
deriving DecidableEq, Repr, Inhabited

/-- The records of R406 that cross the span. -/
inductive SpanRec where
  | req  (op : ReqOp) (q : Req)
  | rsp  (tag status grant : Nat) (isOpen : Bool) (dat : List DatFlit) (partialAttr : Bool)
  | snp  (op line id agent : Nat)
  | snr  (code id notice : Nat) (pd : Bool) (dat : List DatFlit)
  | hrec (line agent tag : Nat)
  | hack (tag : Nat) (refused : Bool)
  | fill (line slot : Nat) (dat : List DatFlit)
  | ver  (slot base size hash : Nat)
  | retire (lane seq : Nat)
deriving DecidableEq, Repr, Inhabited

/-- A wrapper instruction that shifts (R53, R488): the level of `WRSTN` and the bits that enter at `WSI`, the first one first. -/
structure WirShift where
  wrstn : Bool := true
  wsi : List Bool := []
deriving DecidableEq, Repr, Inhabited

/-- `WS_BYPASS` by one of its codes, a reserved one among them (R488). -/
structure WirBypass extends WirShift where
  code : BitVec 5 := 0
deriving DecidableEq, Repr, Inhabited

/-- A wrapper instruction with a register of 32 bits (R490, R491): the level of `WRSTN` and the word that is shifted in. -/
structure WirReg where
  wrstn : Bool := true
  reg : BitVec 32
deriving DecidableEq, Repr, Inhabited

/-- THE COMMANDS: one constructor per row of spec/opcode_table.json, in its order. -/
inductive Instr where
  | rdShared (q : Req) | rdOnce (q : Req) | rdUnique (q : Req) | upgrade (q : Req)
  | wrFull (q : Req) | wrPartial (q : Req) | zeroLine (q : Req) | append (q : Req)
  | writeback (q : Req) | writeclean (q : Req) | evictClean (q : Req)
  | provisionalRead (once : Bool) (q : Req) | confirm (q : Req) | cancel (q : Req)
  | reservedOpcodeRequest (opc : Nat) (q : Req)
  | atAdd (q : Req) | atCadd (q : Req) | atMin (q : Req) | atMax (q : Req) | atAnd (q : Req) | atOr (q : Req)
  | atXor (q : Req) | atSwap (q : Req) | atCas64 (q : Req) | atCas128 (q : Req)
  | accumulate (q : Req) | rdFused (q : Req)
  | winArrive (q : Req) | winFold (q : Req) | winCollect (q : Req) | cueRing (q : Req)
  | datInData (port txid : Nat) (f : DatFlit)
  | snoopResponse (r : Snr)
  | snoopData (port id : Nat) (fl : List DatFlit)
  | snpInflight (r : Snr)
  | compAck (r : Snr)
  | sendWaitingSnoop (port : Nat)
  | memReadData (f : MemFlit)
  | wack (port mtag : Nat) (flips : Nat)
  | waitingRequestRestart
  | agentDown (agent : Nat)
  | reclaimWalkEnd
  | provDeadline (port txid : Nat)
  | watchdogTimeout (port txid : Nat)
  | cueBeat (part chan : Nat) (count : BitVec 32) (flips : Nat)
  | beatEmit
  | actionTileFill | actionFlushRange | actionDiscardRange | actionUnpin | actionSeal | actionFinalize
  | actionLensSwap | actionSetPers
  | actionComplete (slot : Nat)
  | cueLagLimit (chan : Nat)
  | cueWatchdog (chan : Nat)
  | cuePost (m : MbCmd)
  | armSlot (src : Csrp) (window : Option Nat) (words : List Word)
  | disarmSlot (src : Csrp) (window : Option Nat) (slot : Nat)
  | grantRound
  | urgChange (input level : Nat)
  | flushRange (m : MbCmd) | invalidateRange (m : MbCmd) | discardRange (m : MbCmd) | zeroRange (m : MbCmd)
  | tileFill (m : MbCmd) | pinLoad (m : MbCmd) | unpin (m : MbCmd)
  | walkComplete (window : Option Nat)
  | rangeOpComplete (window : Option Nat)
  | armWindowArm (m : MbCmd) | armWindowRearm (m : MbCmd) | armWindowRelease (m : MbCmd)
  | armComplete (win : Nat)
  | seal (m : MbCmd) | finalize (m : MbCmd) | collect (m : MbCmd)
  | windowDrained (win : Nat)
  | finaliseComplete (win : Nat)
  | foldComplete (win : Nat)
  | collectComplete (win : Nat)
  | lensSwap (m : MbCmd)
  | swapPoint
  | shadowRebuildComplete
  | appendSpillComplete (port txid : Nat)
  | thrashWindowEnd (part : Nat)
  | resilverDrain (m : MbCmd) | resilverDrainComplete | resilverZero (m : MbCmd) | resilverZeroComplete
  | resilverRelease (m : MbCmd)
  | handoverClaim (m : MbCmd) | handoverRelease (m : MbCmd) | handoverReleaseComplete (bucket : Nat)
  | handoverCommit (m : MbCmd) | handoverRelay (m : MbCmd)
  | tdcPreload (t : TdcCmd) | tdcPreloadLock (t : TdcCmd) | tdcUnlock (t : TdcCmd) | tdcWrite (t : TdcCmd)
  | tdcZeroEntry (t : TdcCmd) | tdcInvalAddr (t : TdcCmd) | tdcInvalPart (t : TdcCmd)
  | tdcChangeComplete (part : Nat)
  | tdcFetchComplete (f : MemFlit)
  | xltDescWrite (src : Csrp) (part : Nat) (value : Word)
  | faultRingWrite
  | fqOvf (cls : Nat)
  | fqConsWrite (src : Csrp) (value : Word)
  | fqRingConfigWrite (src : Csrp) (ctl : Bool) (value : Word)
  | hotConfigWrite (src : Csrp) (ctl : Bool) (value : Word)
  | hotEpoch
  | pkgIdentWrite (src : Csrp) (value : Word)
  | prescGo (src : Csrp)
  | prescOutcome
  | fullPrescApplyComplete
  | cfgReq (src : Csrp)
  | cfgReqClear (src : Csrp)
  | configDrainComplete
  | shadowEditInsert (src : Csrp) (slot : Nat)
  | shadowEditRemove (src : Csrp) (slot : Nat)
  | measLock (src : Csrp)
  | elogClear (src : Csrp) (entry : Nat)
  | registerWrite (src : Csrp) (offset : Nat) (value : Word)
  | scrubVisit
  | scrubForce
  | scrubDeficitWake
  | configWordCheck (region flips : Nat)
  | lockLoss
  | powerEstimate (activity : List Nat) (cap : Nat)
  | powerWindow
  | opChange (op : Nat)
  | relockComplete
  | pwrcSleepChange (high : Bool)
  | sleepEntry
  | offDrainComplete
  | sleepEntryComplete
  | wakeComplete
  | offWakeComplete
  | spanWakeI
  | coldReset
  | warmReset
  | resetRelease (straps : Straps) (op : Nat)
  | initComplete
  | spanDetect (lanes : BitVec 18)
  | spanTrainingComplete (lanes : BitVec 18) (caps : Caps)
  | spanRetrainComplete (lanes : BitVec 18) (caps : Caps)
  | spanFrame (f : SpanFrame)
  | spanNak (ack : Nat)
  | laneFailure (lane : Nat)
  | retire (lane seq : Nat)
  | spanDownTimeout
  | spanReqRecord (op : ReqOp) (q : Req)
  | spanRspRecord (tag status grant : Nat) (isOpen : Bool) (dat : List DatFlit) (partialAttr : Bool)
  | spanSnpRecord (op line id agent : Nat)
  | spanSnrRecord (code id notice : Nat) (pd : Bool) (dat : List DatFlit)
  | hrec (line agent tag : Nat)
  | hack (tag : Nat) (refused : Bool)
  | fill (line slot : Nat) (dat : List DatFlit)
  | ver (slot base size hash : Nat)
  | mirrorMismatch (slot : Nat)
  | dbgSelChange (sel : Nat)
  | testReq (src : Csrp)
  | testExit (src : Csrp)
  | wsBypass (x : WirBypass)
  | wsExtest (x : WirShift)
  | wsIntest (x : WirShift)
  | wsPreload (x : WirShift)
  | wsClamp (x : WirShift)
  | wsSafe (x : WirShift)
  | fzId
  | fzMbist (x : WirReg)
  | mbistComplete (fail : Bool) (bank row : Nat)
  | fzInject (x : WirReg)
  | fabCreditReturn (port snp rsp dat : Nat)
  | memCreditReturn (port req wdata : Nat)
  | csrpReadInSleep (src : Csrp) (offset : Nat)
deriving DecidableEq, Repr

end Sys2Proof
end

