-- ==== Sys2Proof/Decode.lean ====
section
/-! DEFINITION. The command that a word of the table's bits spells. -/

namespace Sys2Proof

/-- No row of spec/opcode_table.json gives its command any bits (every `fields` list is empty), so no word spells a
command. -/
def decodeTableWord (nbits w : Nat) : Option Instr :=
  match nbits, w with
  | _, _ => none

end Sys2Proof
end

