-- ==== Sys2Proof/Config.lean ====
section
/-! DEFINITION. What one implementation fixes, and the free values: constants without a body. -/

namespace Sys2Proof

/-- FREE VALUE (log entry 20): the number of the miss register that a miss takes, as R484 shows it: the spec does not say which one
the slice takes. -/
opaque Config.freeDebug : Nat → BitVec 32

/-- FREE VALUE (log entry 21): bits [63:5] of `FUSE_STATE`, which R472 leaves to the manufacturer. -/
opaque Config.fuseBits : BitVec 59

/-- FREE VALUE (log entry 22): the SEC-DED syndrome a log record carries; the spec gives no code matrix (R384). -/
opaque Config.syndrome : Nat → BitVec 8

/-- FREE VALUE (log entry 23): the lane of a facet that the slice picks for an operation (R236 names none). -/
opaque Config.freeLane : Nat → BitVec 7

/-- FREE VALUE (log entry 25): a latency in FCLK (R482); the model's steps carry no FCLK between them. -/
opaque Config.freeLatency : Nat → BitVec 32

/-- FREE VALUE (log entry 26): the mirror twin sleeps (R415), at the `k`-th moment it is asked for. -/
opaque Config.twinRests : Nat → Bool

/-- FREE VALUE (log entry 27): the SEC-DED check bits over the low `k` bits of a number; the spec gives no code matrix. -/
opaque Config.checkBits (k n : Nat) : BitVec 8

/-- FREE VALUE (log entry 24): what the cells of the boundary register capture from the pins (R488), for the `k`-th
capture. -/
opaque Config.freePins : Nat → BitVec 16346

end Sys2Proof
end

