-- ==== Sys2Proof/Machine/State.lean ====
section
/-! DEFINITION. The state of one FZS-3 slice as plain data, the reasons a step can stop, and the state after reset. -/

namespace Sys2Proof.Machine

open Sys2Proof

/-- Why a step can stop: nothing in the spec stops the slice, so that there is no such reason. No command of this model faults: an
event that is not due changes nothing (log entry 4), which is safe. -/
inductive Fault where
deriving DecidableEq, Repr

/-- Commands without a meaning. -/
inductive Refusal where
  /-- Raised by an arm of `exec` for a command that has no meaning yet: safe, nothing can be proved of a run that
  meets it. No command of this model is refused so. -/
  | notModelled (mnemonic : String)
deriving DecidableEq, Repr

/-- The completion statuses of R25. -/
inductive Status where
  | done | partialSt | faulted | fqOverflow | aborted | notReady | alreadyCollected | late | poison | timeout
  | accessDenied | misroute
deriving DecidableEq, Repr, Inhabited

/-- The error codes of R380. -/
inductive Err where
  | ok | fieldRange | reservedSet | align | oversubscribed | pinCeiling | lensOverlap | mirrorWritable | featureLevel
  | digest | sectionOrder | partitionAccess | locked | busy
deriving DecidableEq, Repr, Inhabited

/-- What the header of a span frame says (R396): its `SEQ`, the highest `SEQ` received in order, the `ACK_KIND` (0 none, 1 ack, 2
nak), and the slots of credit it returns on each channel. -/
structure FrameHdr where
  seq : Nat
  ack : Nat
  kind : Nat
  credit : List Nat
deriving DecidableEq, Repr, Inhabited

/-- What left the ports in the last step (log entry 2). A span frame carries one record or none (log entry 101). -/
inductive Out where
  | rsp (port txid : Nat) (st : Status) (grant : Nat) (isOpen ackReq : Bool)
  | dat (port txid sector : Nat) (data : Sector) (poison partialAttr last : Bool)
  | snp (port op line id agent : Nat)
  | mem (port mopc addr mtag size part : Nat) (spec : Bool)
  | memData (port mtag sector : Nat) (data : Sector) (poison last : Bool)
  | cueo (part chan : Nat) (count : BitVec 32)
  | rego (group res tokens seq : Nat)
  | csrp (code : Err) (data : Word)
  | span (h : FrameHdr) (r : Option SpanRec)
  | caps (word0 nonce tag : Word)
  | wso (data : List Bool)
  | pwrcAck
deriving DecidableEq, Repr

/-- A flit that waits for a credit, with the partition of what it belongs to (R485). -/
structure HeldOut where
  flit : Out
  part : Option Nat := none
deriving DecidableEq, Repr

/-- Signals of one debug source (R484): the bits that they name, the value of these bits, and the partition of what they describe,
none where that has no partition (R485). -/
structure Sig where
  src : Nat
  mask : Nat
  val : Nat
  part : Option Nat := none
deriving DecidableEq, Repr, Inhabited

/-- One sector of a line: the bits of R81, the three copies of the poison bit of R83, and its 64 bytes. -/
structure Sec where
  v : Bool := false
  d : Bool := false
  z : Bool := false
  pois : BitVec 3 := 0
  data : Sector := 0
deriving DecidableEq, Repr, Inhabited

/-- A line of the array with its tag entry (R80). `line` is `A[51:7]`; `lens` is `LENS` with `LV`; `resid` says the
line is the residual line of the sum line `line` (R90). -/
structure CLine where
  set  : Nat
  way  : Nat
  line : Nat
  lo   : Sec
  hi   : Sec
  rrv  : Nat := 0
  dead : Bool := false
  part : Nat := 0
  lens : Option Nat := none
  rep  : Bool := false
  resid : Bool := false
deriving DecidableEq, Repr, Inhabited

/-- A directory entry (R166, R167): the owner is `PTR0` of `DE` and `DO`, `sharers` are the other precise pointers,
`vec` the coarse vector. `excl` tells `DE` from `DO`; an entry without an owner is `DS`. -/
structure DirEnt where
  set   : Nat
  way   : Nat
  line  : Nat
  part  : Nat
  owner : Option Nat := none
  excl  : Bool := false
  sharers : List Nat := []
  coarse : Bool := false
  vec   : BitVec 128 := 0
deriving DecidableEq, Repr, Inhabited

/-- A sector waiting in the write-back buffer: not yet issued, or issued under a tag. -/
structure WbSec where
  data : Sector
  poison : Bool
  issued : Bool
deriving DecidableEq, Repr, Inhabited

/-- An entry of the write-back buffer (R131): a line with the sectors that wait for their `WACK`. -/
structure WbEnt where
  line : Nat
  part : Nat
  lo : Option WbSec := none
  hi : Option WbSec := none
deriving DecidableEq, Repr, Inhabited

/-- Miss register states (R134); a `FREE` register is not listed. -/
inductive MrState where
  | spec | miss | fill | drain | discard
deriving DecidableEq, Repr, Inhabited

/-- Whose fill a miss register carries (R133). -/
inductive MrOwner where
  | fabric | walk (id : Nat)
deriving DecidableEq, Repr, Inhabited

/-- A miss register in use (R133 to R135). `want` are the sectors its memory reads fetch, `loGot`/`hiGot` the
sectors that have arrived, kept for waiters that may not allocate (R133); `grp` is the group its fill is charged to
(R288, R289), and `agent` whose request that was (R304). -/
structure MissReg where
  line : Nat
  st : MrState
  part : Nat
  lens : Option Nat
  alloc : Bool
  rep : Bool := false
  owner : MrOwner := .fabric
  wantLo : Bool
  wantHi : Bool
  loGot : Option Sec := none
  hiGot : Option Sec := none
  grp : Option Nat := none
  agent : Option Nat := none
deriving DecidableEq, Repr, Inhabited

/-- An answer to a snoop (R162). -/
structure SnrAns where
  code : Nat
  data : Bool
  pd   : Bool
deriving DecidableEq, Repr, Inhabited

/-- A notice whose `REQ` has been taken, with the port and `TXID` its `RSP` needs and its data so far. -/
structure NoticeHeld where
  op : ReqOp
  port : Nat
  txid : Nat
  tag : Option Nat := none
  lo : Option (Sector × Bool) := none
  hi : Option (Sector × Bool) := none
deriving DecidableEq, Repr, Inhabited

/-- A snoop a transaction waits for. `sent` is false while it waits for a snoop ID (R161); `far` snoops travel as
`SNP` records (R409); `owner` says that the entry recorded the agent as owner (R181), and `taken` that the transaction has
taken the answer (R179). -/
structure SnoopRec where
  agent : Nat
  port  : Nat
  id    : Nat
  op    : Nat
  sent  : Bool
  far   : Bool := false
  ans   : Option SnrAns := none
  lo : Option (Sector × Bool) := none
  hi : Option (Sector × Bool) := none
  inflight : Option Nat := none
  notice : Option NoticeHeld := none
  owner : Bool := false
  taken : Bool := false
deriving DecidableEq, Repr, Inhabited

/-- What a transaction serves: a fabric request, a directory eviction with the entry that has moved to the eviction buffer
(R176), or an operation of the slice. `collectOp` is a collect's access to a sum line, `operand` a read of the line that a
fused outflow combines with it (R228, R253), and `install` dirty data or the poison of R182 that wait for room in the write-back
buffer (R131): 0 data that may be allocated, 1 data that go to memory when the line is absent, 2 poison. -/
inductive TxnKind where
  | req (op : ReqOp) (q : Req) (tag : Option Nat)
  | evict (e : DirEnt)
  | operand (parent : Nat) (q : Req)
  | fillOp (walk : Nat)
  | rangeOp (op : Nat) (id : Nat)
  | collectOp (win : Nat)
  | install (mode : Nat)
deriving DecidableEq, Repr, Inhabited

/-- Window states (R240). -/
inductive WinState where
  | idle | armed | opened | sealed | final | collected
deriving DecidableEq, Repr, Inhabited

/-- The fields of a window's header that requests change (R241, R242). -/
structure WinSnap where
  st : WinState := .idle
  gen : BitVec 32 := 0
  count : Nat := 0
  late : Nat := 0
  cause : Nat := 0
  ovf : Bool := false
  nan : Bool := false
deriving DecidableEq, Repr, Inhabited

/-- A transaction in progress on a line: past its FCLK 12 and not yet ended (R169, R135, R176). `busy` says it makes its line busy;
`newEnt` that it created the line's directory entry; `upg` an upgrade from S (1) or O (2); `fromOwner` that its data come from an owner's
answer; `hit` that the lookup found the line; `memRead` that it reads memory; `ownLo`, `ownHi` hold data that snoops returned for the
requester, or dirty data that a write may yet have to install (R172, R173). `waiter`, `trk`, `evb` and `keep` are what it holds since its
FCLK 12 (R136): a waiter entry, a home tracker, an eviction-buffer entry, and a miss register should its owner's answer bring no data.
`grp` is the group it is charged to (R287, R288) and `agent` whose request that was (R304), `grant` the state its grant gives (R171),
`sent` the sectors whose data have left (R82, R137), `sentBad` that one of them was poisoned; `conf` are the agents that a `CONFIRM` has
recorded while it ran (R143). `win` is the window it contributes to, `late` the one that refuses it as `LATE`, `wgen` that window's
generation, `wst` its state, and `srcs` the windows a fold may read, all at its order point (R142, R249, R255). `hdrRd` marks a read of a
header line (R243), and `snap` is what the header's fields are at its order point, as far as what is ordered before it has acted (R242).
`settled` says that the entry shows the answers of its snoops (R171). `opLo`, `opHi` are the operand line of a fused outflow; `age` its
age for the watchdog (R455). -/
structure Txn where
  id    : Nat
  kind  : TxnKind
  line  : Nat
  part  : Nat
  lens  : Option Nat
  started : Bool
  served  : Bool := false
  snoops : List SnoopRec := []
  ownLo : Option (Sector × Bool) := none
  ownHi : Option (Sector × Bool) := none
  ack   : Option (Nat × Nat × Nat) := none
  win   : Option Nat := none
  late  : Option Nat := none
  prov  : Bool := false
  timedOut : Bool := false
  busy : Bool := false
  newEnt : Bool := false
  upg : Nat := 0
  fromOwner : Bool := false
  hit : Bool := false
  memRead : Bool := false
  opAsked : Bool := false
  opLo : Option (Sector × Bool) := none
  opHi : Option (Sector × Bool) := none
  waiter : Bool := false
  trk : Bool := false
  evb : Bool := false
  keep : Bool := false
  grp : Nat := 0
  agent : Option Nat := none
  grant : Nat := 0
  sent : List Nat := []
  sentBad : Bool := false
  conf : List Nat := []
  wgen : Nat := 0
  wst : WinState := .idle
  srcs : List (Nat × Nat) := []
  settled : Bool := false
  hdrRd : Bool := false
  snap : WinSnap := {}
  age : Nat := 0
deriving DecidableEq, Repr, Inhabited

/-- Why a request waits in its port's request buffer (R136, R169, R73, R268, R407, R108). -/
inductive WaitCause where
  | missReg | waiterPool | tracker | busyLine | evictBuf | wbBuf | beatQueue | relay | handover | spill | span
deriving DecidableEq, Repr, Inhabited

/-- A request that waits in a port's request buffer, or in the handover hold queue: with the lens and the group of its one
match (R96, R287), whether its lookup has been counted, and whether its wait for the beat queue has (R268). `far` says that it goes
to the mirror twin (R64, R408), and `rtag` is the tag of its relay entry (R407). -/
structure WaitReq where
  op : ReqOp
  q : Req
  cause : WaitCause
  tag : Option Nat := none
  lens : Option Nat := none
  grp : Nat := 0
  looked : Bool := false
  rung : Bool := false
  far : Bool := false
  rtag : Option Nat := none
  age : Nat := 0
deriving DecidableEq, Repr, Inhabited

/-- Provisional entry states (R143). -/
inductive ProvState where
  | pending | opened | voided
deriving DecidableEq, Repr, Inhabited

/-- A provisional entry (R139). `sent` says that its data have been handed to their port and may still wait for a credit
(R24, R143); `grp` is the group it is charged to. -/
structure ProvEnt where
  agent : Nat
  port : Nat
  txid : Nat
  line : Nat
  part : Nat
  lens : Option Nat
  once : Bool
  st : ProvState
  voidPend : Bool := false
  confirmHeld : Bool := false
  sent : Bool := false
  tag : Option Nat := none
  grp : Nat := 0
deriving DecidableEq, Repr, Inhabited

/-- Why a memory request was sent, so that its answer finds its place. -/
inductive MemUse where
  | fillLine (line : Nat)
  | wback (line sector : Nat)
  | presc (off : Nat)
  | tdc (cls : Nat)
  | collect (win : Nat)
  | list (bucket : Nat) (idx : Nat)
  | operand (txn : Nat)
  | tdcWrite (part : Nat)
  | plain
deriving DecidableEq, Repr, Inhabited

/-- A request on a memory port (R31) of a group, for a request of `agent` or for the slice itself (R289, R296, R304): outstanding
under `mtag`, or waiting for a credit. -/
structure MemReq where
  port : Nat
  mopc : Nat
  addr : Nat
  size : Nat
  part : Nat
  spec : Bool := false
  use : MemUse := .plain
  data : Option (Sector × Bool) := none
  grp : Option Nat := none
  agent : Option Nat := none
  mtag : Nat := 0
  left : Nat := 1
deriving DecidableEq, Repr, Inhabited

/-- Credits of one `FAB` port (R22 to R24): granted to the hub (`req`, `dat`, `snr`), kept in `CONFIG` and `TEST`
(`keptReq`, `keptDat`), and granted by the hub (`oSnp`, `oRsp`, `oDat`). DESIGN CHOICE (log entry 40): R24 gives a lower
bound, at least 16 of each; the model starts with exactly 16, and `FAB_CREDIT_RETURN` may bring more. -/
structure FabPort where
  req : Nat := 0
  dat : Nat := 0
  snr : Nat := 0
  keptReq : Nat := 0
  keptDat : Nat := 0
  oSnp : Nat := 16
  oRsp : Nat := 16
  oDat : Nat := 16
deriving DecidableEq, Repr, Inhabited

/-- Credits of one `MEM` port (R32): request and write-data credits the controller grants, and the read-data credits the
slice grants it from the end of reset and returns at once. DESIGN CHOICE (log entry 41): R32 gives a lower bound for the
controller's grants, at least 16 of each; the model starts with exactly 16, and `MEM_CREDIT_RETURN` may bring more. -/
structure MemPort where
  req : Nat := 16
  wdata : Nat := 16
  rdata : Nat := 0
deriving DecidableEq, Repr, Inhabited

/-- The header fields an arming window will take (R241, R246, R493). -/
structure WinArgs where
  hdr : Nat
  base : Nat
  size : Nat
  expect : Nat
  acc : Nat
  ifmt : Nat
  ofmt : Nat
  sat : Bool
  autoFin : Bool
  part : Nat
  lens : Nat
deriving DecidableEq, Repr, Inhabited

/-- A collect as it was asked for (R253): descriptor words, destination, and the mailbox or the request that waits for its completion:
port, `TXID` and the tag of a relayed one, with the group that its completion is charged to. `ord` is its place in the order of
transactions, `agent` asked for it, and `age` the ACLK since its request was accepted (R455). -/
structure ColArgs where
  d0 : Nat
  d1 : Nat
  dst : Nat
  noOut : Bool
  gen : Nat
  mb : Option (Option Nat) := none
  req : Option (Nat × Nat × Option Nat) := none
  grp : Option Nat := none
  ord : Nat := 0
  agent : Nat := 0
  age : Nat := 0
deriving DecidableEq, Repr, Inhabited

/-- A command that waits for a window to be quiet (R256). `ord` is its place in the order of transactions, and `fin` says that a
`RELEASE` met the window draining or finalising. -/
inductive WinOp where
  | release (mb : Option Nat) (fin : Bool) (ord : Nat)
  | rearm (mb : Option Nat) (expect ord : Nat)
  | collect (c : ColArgs)
deriving DecidableEq, Repr, Inhabited

/-- A reduction window: its header (R241) and the work in progress on it: an arming with the mailbox that asked for it (R493), the
drain and the finalisation with whoever waits for it (R251), `finPos` the lines finalised so far, `finNeed` the changes of the
lens sets that must have been performed first (R278), the collect (R253), and the commands that wait for the window to be quiet
(R256). -/
structure Window where
  st : WinState := .idle
  gen : BitVec 32 := 0
  count : Nat := 0
  base : Nat := 0
  size : Nat := 0
  expect : Nat := 0
  acc : Nat := 0
  ifmt : Nat := 0
  ofmt : Nat := 0
  sat : Bool := false
  autoFin : Bool := false
  part : Nat := 0
  lens : Nat := 0
  ovf : Bool := false
  nan : Bool := false
  late : Nat := 0
  cause : Nat := 0
  hdr : Nat := 0
  arming : Option WinArgs := none
  armMb : Option Nat := none
  drained : Bool := false
  finReq : Bool := false
  finalising : Bool := false
  finSlots : List Nat := []
  finNeed : Nat := 0
  finPos : Nat := 0
  finMbs : List (Option Nat) := []
  col : Option ColArgs := none
  colPoison : Bool := false
  colLines : Nat := 0
  after : List WinOp := []
deriving DecidableEq, Repr, Inhabited

/-- A fold in progress (R255): `pos` counts the lines it has folded, and `bad` says that one of them was poisoned; `agent` asked for it,
`timedOut` says that its request has been answered with `TIMEOUT`, and `age` counts the ACLK since its request was accepted (R455). -/
structure FoldRun where
  src : Nat
  dst : Nat
  port : Nat
  txid : Nat
  tag : Option Nat := none
  pos : Nat := 0
  bad : Bool := false
  agent : Nat := 0
  timedOut : Bool := false
  age : Nat := 0
deriving DecidableEq, Repr, Inhabited

/-- A lens descriptor (R94); `tintOvr` are the 5 bits of `TINT_OVR`. -/
structure Desc where
  slot : Nat := 0
  base : Nat := 0
  size : Nat := 0
  pers : Nat := 0
  quota : Nat := 0
  tintOvr : Nat := 0
  part : Nat := 0
  readOnly : Bool := false
  mirror : Bool := false
  openFenced : Bool := false
  append : Bool := false
  reduction : Bool := false
  spill : Bool := false
  block : Nat := 0
deriving DecidableEq, Repr, Inhabited

/-- A lens slot (R119): its descriptor, the sets it stands in, its predecessors under succession (R122), the append ring (R106),
its staging copy (R386), whether R413 holds it unverified, `ghost`: it shows as `FREE`, and its descriptor is kept only for
what is in flight (R386), and whether its descriptor has no `MIRROR` record in the active and in the shadow set (R345). -/
structure LensSlot where
  desc : Option Desc := none
  inAct : Bool := false
  inSh : Bool := false
  preds : List Nat := []
  head : Nat := 0
  tail : Nat := 0
  stopped : Bool := false
  stage0 : Word := 0
  stage1 : Word := 0
  unverified : Bool := false
  ghost : Bool := false
  bareAct : Bool := false
  bareSh : Bool := false
deriving DecidableEq, Repr, Inhabited

/-- Who waits for a swap or persistence change. -/
inductive SwapSrc where
  | mailbox (window : Option Nat)
  | action (slot : Nat)
deriving DecidableEq, Repr, Inhabited

/-- A change of the lens sets that waits for its turn (R124). -/
inductive LensOp where
  | swap (src : SwapSrc)
  | setPers (slot src dst pers : Nat)
  | partialSets (ds : Option (List Desc)) (tint : Option (BitVec 32))
deriving DecidableEq, Repr, Inhabited

/-- The thrash monitor's counts of a partition (R105), and those of the next window, which begins with the lookup after the
65,536th. -/
structure Thrash where
  lookups : Nat := 0
  hits : Nat := 0
  evicts : Nat := 0
  nextLookups : Nat := 0
  nextHits : Nat := 0
  nextEvicts : Nat := 0
deriving DecidableEq, Repr, Inhabited

/-- The lens unit: 256 slots, the two `TINT_SEL` tables (R287), rebuild and swaps in progress (R121, R123, R124),
the dead-drop record (R118), and the thrash monitor. `done` counts the changes of the sets performed. -/
structure LensUnit where
  slots : List LensSlot := List.replicate 256 {}
  tintAct : BitVec 32 := 0
  tintSh : BitVec 32 := 0
  rebuild : Bool := false
  queue : List LensOp := []
  done : Nat := 0
  deadDrop : List Nat := []
  thrash : List Thrash := List.replicate 16 {}
deriving DecidableEq, Repr, Inhabited

/-- A partition record (R341). -/
structure PartRec where
  pin : Nat := 0
  cache : Nat := 0
  scratch : Nat := 0
  thrashHit : Nat := 0
  thrashEvict : Nat := 0
  active : Bool := false
  ordinary : Bool := false
  counterAccess : Bool := false
  isolated : Bool := false
  coarseK : Nat := 0
deriving DecidableEq, Repr, Inhabited

/-- An entry of the agent route table (R161, R339). -/
structure RouteEnt where
  present : Bool := false
  half : Nat := 0
  port : Nat := 0
deriving DecidableEq, Repr, Inhabited

/-- A counter record (R350). -/
structure CtrCfg where
  event : Nat := 0
  part : Nat := 0
  partEn : Bool := false
  mode : Nat := 0
  thresh : Nat := 0
deriving DecidableEq, Repr, Inhabited

/-- A histogram record (R350). -/
structure HistCfg where
  src : Nat := 0
  part : Nat := 0
  partEn : Bool := false
deriving DecidableEq, Repr, Inhabited

/-- A debug group record (R350). -/
structure DbgCfg where
  source : Nat := 0
  part : Nat := 0
  bound : Bool := false
deriving DecidableEq, Repr, Inhabited

/-- The POWER word (R343). -/
structure PowerCfg where
  opReg : Nat := 0
  sleepEn : Bool := false
  sleepDelay : Nat := 0
  offEn : Bool := false
deriving DecidableEq, Repr, Inhabited

/-- A MIRROR record (R345). -/
structure MirrorRec where
  slot : Nat
  fill : Bool
  verify : Bool
deriving DecidableEq, Repr, Inhabited

/-- The configuration in force (R339 to R350) but for lenses, regulation and cues. `inForce` says a full
prescription is in force. -/
structure Cfg where
  inForce : Bool := false
  slices : Nat := 0
  memShift : Nat := 12
  memTable : List Nat := []
  route : List RouteEnt := []
  scratch : List (Nat × Nat) := []
  parts : List PartRec := List.replicate 16 {}
  partBytes : List (BitVec 8) := []
  map : List Nat := []
  power : PowerCfg := {}
  mirror : List MirrorRec := []
  ctrs : List CtrCfg := []
  hists : List HistCfg := []
  dbg : List DbgCfg := []
deriving DecidableEq, Repr, Inhabited

/-- A group record of R292. -/
structure GrpCfg where
  min : List Nat := []
  weight : Nat := 0
  prot : Bool := false
deriving DecidableEq, Repr, Inhabited

/-- The REGULATE tables (R292). -/
structure RegCfg where
  groups : List GrpCfg := []
  agentBase : List Nat := []
  selfGroup : List Nat := []
  urg : List (Nat × Bool) := []
  memCap : Nat := 0
deriving DecidableEq, Repr, Inhabited

/-- Scale factors of a resource (R302, R385). -/
structure ResScale where
  dNow : Nat := 0
  gNow : Nat := 0
  s : Nat := 0
  sp : Nat := 0
  cause : Nat := 0
  gen : Nat := 0
deriving DecidableEq, Repr, Inhabited

/-- A group's mirrored balance, refunds and debits in one resource, in 1/32 units (R296, R297). -/
structure Bal where
  mirr : Int := 0
  credit : Int := 0
  used : Int := 0
  debt : Int := 0
deriving DecidableEq, Repr, Inhabited

/-- A request whose reservation the slice has not refunded yet (R295, R296): where it stands, its agent and its partition, its
paying and its charged group (R288), its charge in each resource, and the histogram sources that measure it (R483). -/
structure Resv where
  port : Nat
  txid : Nat
  tag : Option Nat := none
  agent : Nat
  part : Nat
  pay : Nat
  charged : Nat
  units : List Nat
  srcs : List Nat
deriving DecidableEq, Repr, Inhabited

/-- The regulation unit. `last` are the conditions of the last round, in the order of the cause codes of R384; `next` is a
REGULATE section that waits for the next grant round (R300); `urgWire` are the levels on the `URG` wires, `urgLvl` those in force
(R40); `scaled` says that a round has set the scale since the reset; `owed` that a bound input rose to 3 while no round could run
(R298); `seq` is the sequence of `REGO` (R38); `cur` is the group whose work runs in this step (R288, R289) and `curAgent` the
agent whose request it is, the model's own marks for what R296 measures and R304 maps. -/
structure RegUnit where
  cfg : RegCfg := {}
  next : Option RegCfg := none
  scale : List ResScale := List.replicate 5 {}
  bal : List (List Bal) := List.replicate 64 (List.replicate 5 {})
  debtor : List Bool := List.replicate 64 false
  urgLvl : List Nat := List.replicate 16 0
  urgWire : List Nat := List.replicate 16 0
  last : List Nat := List.replicate 5 0
  scaled : Bool := false
  owed : Bool := false
  seq : Nat := 0
  resv : List Resv := []
  cur : Option Nat := none
  curAgent : Option Nat := none
deriving DecidableEq, Repr, Inhabited

/-- A cue channel entry (R259). -/
structure ChanCfg where
  en : Bool := false
  owner : Nat := 0
  bell : Nat := 0
  init : BitVec 32 := 0
  lagLimit : Nat := 0
  wdMode : Nat := 0
  wdLimit : Nat := 0
deriving DecidableEq, Repr, Inhabited

/-- A cue channel: its entry and its live values (R261, R267, R281, R283); `kept` is the newest count of the always-on
receiver (R36, R418). -/
structure Chan where
  cfg : ChanCfg := {}
  applied : BitVec 32 := 0
  issued : BitVec 32 := 0
  since : Nat := 0
  pace : Nat := 0
  stall : Bool := false
  wdFired : Bool := false
  kept : Option (BitVec 32) := none
deriving DecidableEq, Repr, Inhabited

/-- Action slot states (R274). -/
inductive SlotState where
  | free | armed | due | running
deriving DecidableEq, Repr, Inhabited

/-- The outcome of a slot (R280). -/
structure SlotOut where
  code : Nat := 0
  isErr : Bool := false
  tag : Nat := 0
  fire : BitVec 32 := 0
  stalled : Bool := false
  mark : Nat := 0
deriving DecidableEq, Repr, Inhabited

/-- An action slot: its record's eight words (R349), its state, and its outcome. -/
structure ActSlot where
  words : List Word := []
  st : SlotState := .free
  fire : BitVec 32 := 0
  stalled : Bool := false
  out : Option SlotOut := none
deriving DecidableEq, Repr, Inhabited

/-- A beat waiting in the beat queue (R268), with the ring or post that queued it. -/
structure BeatQ where
  part : Nat
  chan : Nat
  count : BitVec 32
  src : Option (Nat × Nat × Option Nat) := none
  mb : Option (Option Nat) := none
deriving DecidableEq, Repr, Inhabited

/-- A `CUE_POST` that waits for the beat queue (R269). -/
structure PostReq where
  mb : Option Nat
  chan : Nat
  add : Bool
  value : BitVec 32
deriving DecidableEq, Repr, Inhabited

/-- The cue unit. `sent` are the beats that left this slice on `CUEO` and have not come back on `CUEI` (R483). -/
structure CueUnit where
  chans : List Chan := List.replicate 16 {}
  ranges : List (Nat × Nat) := List.replicate 16 (0, 0)
  slots : List ActSlot := List.replicate 512 {}
  due : List Nat := []
  beats : List BeatQ := []
  postWait : List PostReq := []
  sent : List (Nat × BitVec 32) := []
deriving DecidableEq, Repr, Inhabited

/-- A TDC or side-buffer entry (R315, R317). `perr` marks a parity error not yet found. -/
structure TdcEnt where
  part : Nat
  desc : Bool
  addr : Nat
  value : Word
  lock : Bool := false
  perr : Bool := false
deriving DecidableEq, Repr, Inhabited

/-- A TDC fetch in flight on the miss register of walker `cls` (R318), or 8 + `p` for an operation of window `p` (R319).
`stale` is set by R321; `level3` marks a level-3 entry (R317). -/
structure TdcFetch where
  cls : Nat
  part : Nat
  desc : Bool
  addr : Nat
  stale : Bool := false
  lookahead : Bool := false
  level3 : Bool := false
deriving DecidableEq, Repr, Inhabited

/-- A fault record (R325), as its four words without `PH`. -/
structure FaultRec where
  words : List Word
  part : Nat
deriving DecidableEq, Repr, Inhabited

/-- The translation unit: TDC, side buffer, LFSR, fetches, TDC operations in progress (code, kind, address), changes in progress
with the accesses that each waits for (window, access; R321 step 4), the identity of the walk that had the last turn of each
walker (R313), fault ring and staging. -/
structure XltUnit where
  tdc : List (Option TdcEnt) := List.replicate 48 none
  side : List TdcEnt := []
  lfsr : BitVec 16 := 0xACE1
  fetches : List TdcFetch := []
  opBusy : List (Option (Nat × Bool × Nat)) := List.replicate 16 none
  change : List Bool := List.replicate 16 false
  changeWait : List (Nat × Nat) := []
  turn : List Nat := List.replicate 8 0
  fqBase : Nat := 0
  fqLog : Nat := 0
  fqEn : Bool := false
  fqProd : Nat := 0
  fqCons : Nat := 0
  fqHold : Nat := 50000
  faultSeq : Nat := 0
  staged : List FaultRec := []
deriving DecidableEq, Repr, Inhabited

/-- Hot-page counting (R330 to R334): sparse counters (page index, count, notified), sorted and never both zero. -/
structure HotUnit where
  base : Nat := 0
  en : Bool := false
  mode : Nat := 0
  thresh : Nat := 65535
  epoch : Nat := 0
  ringBase : Nat := 0
  ringLog : Nat := 0
  ringEn : Bool := false
  prod : Nat := 0
  cons : Nat := 0
  epochNo : Nat := 0
  ctrs : List (Nat × Nat × Bool) := []
  staged : List (Word × Word) := []
deriving DecidableEq, Repr, Inhabited

/-- Phases of a prescription load (R354). -/
inductive PrescPhase where
  | idle | fetch | check | apply
deriving DecidableEq, Repr, Inhabited

/-- A parsed prescription (R335 to R350), kept between acceptance and application (R360). -/
structure Presc where
  full : Bool := true
  cfg : Cfg := {}
  lens : Option (List Desc) := none
  tint : Option (BitVec 32) := none
  reg : Option RegCfg := none
  chans : List ChanCfg := []
  ranges : List (Nat × Nat) := []
  recs : List (List Word) := []
  hasCue : Bool := false
deriving DecidableEq, Repr, Inhabited

/-- The prescription loader (R353 to R358) and its registers. `sectors` are the fetched sectors by sector number. -/
structure PrescUnit where
  addr : Nat := 0
  len : Nat := 0
  phase : PrescPhase := .idle
  valid : Bool := false
  kind : Bool := false
  code : Err := .ok
  offset : Nat := 0
  cfgReq : Bool := false
  sectors : List (Nat × Sector × Bool) := []
  pendDigest : Option (List (BitVec 8)) := none
  todo : Option Presc := none
deriving DecidableEq, Repr, Inhabited

/-- A mailbox (R373). -/
structure Mailbox where
  args : List Word := List.replicate 8 0
  st : Nat := 0
  isErr : Bool := false
  code : Nat := 0
  seq : Nat := 0
  opcode : Nat := 0
  res : List Word := List.replicate 4 0
deriving DecidableEq, Repr, Inhabited

/-- The registers of a partition window that no other unit holds (R391). -/
structure PWin where
  status : BitVec 4 := 0
  xltDesc : Nat := 0
  tdcAddr : Nat := 0
  tdcData : Word := 0
  tdcBusy : Bool := false
  tdcDone : Bool := false
  tdcCode : Err := .ok
  selHist : Nat := 0
  selChan : Nat := 0
  pwrView : Nat := 0
  arm : List Word := List.replicate 8 0
  armCode : Err := .ok
  armSlot : Nat := 0
  disarm : Bool := false
  slotSel : Nat := 0
deriving DecidableEq, Repr, Inhabited

/-- The remaining management registers (R370, R371, R387). -/
structure Regs where
  status : BitVec 4 := 0
  pkgIdent : Nat := 0
  pkgSet : Bool := false
  specCtl : BitVec 16 := 0xFFFF
  fwdWd : Nat := 100000
  editBusy : Bool := false
  editCode : Err := .ok
  editReg : Nat := 0
  arm : List Word := List.replicate 8 0
  armCode : Err := .ok
  armSlot : Nat := 0
  disarm : Bool := false
  slotSel : Nat := 0
deriving DecidableEq, Repr, Inhabited

/-- A log entry (R382). -/
structure LogEnt where
  cls : Nat := 0
  valid : Bool := false
  source : Nat := 0
  part : Nat := 0
  agent : Nat := 0
  port : Nat := 0
  chan : Nat := 0
  seq : Nat := 0
  addr : Nat := 0
  detail : Nat := 0
  repeats : Nat := 0
deriving DecidableEq, Repr, Inhabited

/-- The error logs (R381, R383). -/
structure ErrLog where
  ents : List LogEnt := List.replicate 32 {}
  nextSeq : Nat := 0
  lostCorr : Bool := false
  lostUncorr : Bool := false
  lostNotice : Bool := false
  fatal : Bool := false
deriving DecidableEq, Repr, Inhabited

/-- The measurement block (R393, R473, R474); digests are byte lists, empty where they read zero. -/
structure Meas where
  locked : Bool := false
  edited : Bool := false
  testUsed : Bool := false
  gen : Nat := 0
  trans : Bool := false
  cur : List (BitVec 8) := []
  pendPart : List (BitVec 8) := []
  part : List (BitVec 8) := []
  epochs : List (BitVec 32) := List.replicate 16 0
  withdrawn : List Bool := List.replicate 16 false
deriving DecidableEq, Repr, Inhabited

/-- The states of R421; `init`, before `RST_N` has been released, is `off`. -/
inductive SliceState where
  | off | init | config | service | sleep | recovery | test
deriving DecidableEq, Repr, Inhabited

/-- How far a sleep entry has gone (R424). -/
inductive SleepPhase where
  | none | offDrain | committed
deriving DecidableEq, Repr, Inhabited

/-- Power, clocks and straps (R44, R46, R416 to R436). `held` are the flits and register accesses that arrived while the slice
slept or relocked, in their order, each with its age in ACLK (R27, R41, R418, R430), and `heldAge` the age of the one that is
being served, 0 for any other arrival; `opWire` is the value on `PWRC_OP`, `opAge` counts the ACLK since the last change of
operating point, up to the 50 us of R419, and `opLate` says that a change waits for them; `duty` is the duty the last estimate has
chosen and `dutyNow` the one in effect until the next boundary of 8 FCLK (R434); `fclkPart` is the part of an FCLK, in 1/50, that
the last ACLK left over, `fclkSlot` the place in the group of 8 FCLK (R435), `scrubWake` says that the deficit of R452 alone has ended
the last sleep. -/
structure Power where
  state : SliceState := .off
  rstLow : Bool := true
  straps : Straps := {}
  strapsTaken : Bool := false
  strapErr : Nat := 0
  op : Nat := 0
  nextOp : Option Nat := none
  relock : Bool := false
  sleepOk : Bool := false
  sleepPh : SleepPhase := .none
  wakeDue : Bool := false
  wakeReq : Bool := false
  idle : Nat := 0
  opWire : Nat := 0
  opAge : Nat := 2500
  opLate : Bool := false
  duty : Nat := 8
  dutyNow : Nat := 8
  capUnreach : Bool := false
  overRun : Nat := 0
  underRun : Nat := 0
  cap : Nat := 0
  est : Nat := 0
  winSum : Nat := 0
  winCnt : Nat := 0
  held : List (Instr × Nat) := []
  heldAge : Nat := 0
  scrubNext : Nat := 0
  scrubDef : Nat := 0
  cfgDrain : Bool := false
  dbgSel : Nat := 0
  fclkPart : Nat := 0
  fclkSlot : Nat := 0
  scrubWake : Bool := false
deriving DecidableEq, Repr, Inhabited

/-- What the fuses of a die hold (R370, R398, R431, R472): constant for its life. DESIGN CHOICE (log entry 55): the spec gives
them only as fused; a model at reset has `STEPPING` 1 (B0), `FEAT_LEVEL` 2, `DIE_ID` 0, an empty span key and no power
coefficients, and every other value is a state of its own. -/
structure Fuses where
  stepping : Nat := 1
  featLevel : Nat := 2
  dieId : Word := 0
  spanKey : List (BitVec 8) := []
  pStatic : List Nat := []
  weights : List (List Nat) := []
deriving DecidableEq, Repr, Inhabited

/-- The resilver (R464 to R467): `phase` is `RES_PHASE`, `running` the phase in progress, 1 drain or 2 zero, and `lines` what
it will give in `RES0`. -/
structure Resilver where
  active : Bool := false
  part : Nat := 0
  phase : Nat := 0
  running : Option Nat := none
  lines : Nat := 0
deriving DecidableEq, Repr, Inhabited

/-- A bucket in a handover state (R70), or the release of a relaying twin (`relayOnly`). `phase` of an outgoing bucket is 0 while
the accepted requests complete, 1 while holders are invalidated and lines written back, 2 while the crossing list is written; of
an incoming bucket 1 while the list is read. `crossing` are the list's entries: line and agent; `count` is `LIST_COUNT`; `dead`
are the agents reported dead while the bucket is incoming (R74). -/
structure Handover where
  bucket : Nat
  incoming : Bool
  peer : Nat
  listAddr : Nat := 0
  count : Nat := 0
  relayOnly : Bool := false
  phase : Nat := 0
  crossing : List (Nat × Nat) := []
  dead : List Nat := []
deriving DecidableEq, Repr, Inhabited

/-- The handover unit: `listed` are the lines that a `COMMIT` has listed and whose notice has not been processed (R70, R72), and
`gone` the buckets that a `RELEASE` has left in `NONE` although the map still names a position of this slice or of its twin. -/
structure HandUnit where
  buckets : List Handover := []
  hold : List WaitReq := []
  listed : List (Nat × Nat × Nat) := []
  gone : List Nat := []
deriving DecidableEq, Repr, Inhabited

/-- A dead-agent report (R180, R182). -/
structure Report where
  agent : Nat
  inWalk : Bool := false
  poisoned : Nat := 0
  first : Nat := 0
  silent : Bool := false
deriving DecidableEq, Repr, Inhabited

/-- Operations of the slice that walk lines for a command or an action (R149, R174). -/
inductive RangeKind where
  | flush | invalidate | discard | zero | unpin
deriving DecidableEq, Repr, Inhabited

/-- A range command in progress over the lines from `lo` to below `hi` (R174, R378): the snoops it waits for are those of
the transactions with its identity. `held` says that it waits for the walks accepted before it (R151). -/
structure RangeRun where
  id : Nat
  kind : RangeKind
  window : Option Nat
  lines : Nat
  lo : Nat
  hi : Nat
  held : Bool := true
deriving DecidableEq, Repr, Inhabited

/-- Why a walk stands still. -/
inductive WalkStop where
  | running | tdcWait | mrWait | portWait | orderWait | grantWait | stalled | ended
deriving DecidableEq, Repr, Inhabited

/-- A translation that a walker keeps (R313): a page's first virtual byte, its size, its physical address, and the tags of the
entries that it used (R321). -/
structure XPage where
  va : Nat
  bytes : Nat
  pa : Nat
  keys : List (Nat × Bool × Nat) := []
deriving DecidableEq, Repr, Inhabited

/-- A walk's lookahead (R313): not asked for yet, waiting for a value of the TDC, made, or failed, with the type, the level and the
entry of its fault and the values it used (R324). -/
inductive Look where
  | todo
  | wait (key : Nat × Bool × Nat)
  | page (p : XPage)
  | failed (flt : Nat × Nat × Word) (keys : List (Nat × Bool × Nat))
deriving DecidableEq, Repr, Inhabited

/-- A walking operation over virtual lines (R149, R313): a tile (`act` 0), a row of `PIN_LOAD` (`act` 16), or a range action
(`act` 1, 2, 6 of R272). `need` is how many changes of the lens sets must have been performed before it may access a line (R278);
`wait` is the value that its translation waits for, `steps` are the steps that this translation has passed and `lookSteps` those
that its lookahead has (R314); `flt` is a fault that waits to be staged: type, level and entry (R328); `ext`
are the runs of lines (first, count) that a range action has reached; `probe` says that it still looks at its lines before it acts
on any (R256); `used` are the tags of the entries its translations have used (R321), and `pois` a value that it waited for and
that came back poisoned (R310). -/
structure Walk where
  id : Nat
  src : SwapSrc
  act : Nat
  va : Nat
  rowLines : Nat
  rows : Nat
  stride : Nat
  part : Nat
  cls : Nat
  pos : Nat := 0
  stop : WalkStop := .running
  cur : Option XPage := none
  look : Look := .todo
  steps : List ((Nat × Bool × Nat) × Word) := []
  lookSteps : List ((Nat × Bool × Nat) × Word) := []
  wait : Option (Nat × Bool × Nat) := none
  need : Nat := 0
  fills : Nat := 0
  outFills : Nat := 0
  sawAppend : Bool := false
  denied : Bool := false
  sawPoison : Bool := false
  flt : Option (Nat × Nat × Word) := none
  faulted : Bool := false
  overflow : Bool := false
  endErr : Option Err := none
  probe : Bool := false
  ext : List (Nat × Nat) := []
  used : List (Nat × Bool × Nat) := []
  pois : Option (Nat × Bool × Nat) := none
deriving DecidableEq, Repr, Inhabited

/-- A relay entry of the entry slice (R407); `opened` says that the provisional read it carries is `OPEN` at its home (R143); `age` counts
the ACLK since its request was accepted (R455). -/
structure Relay where
  tag : Nat
  agent : Nat
  port : Nat
  txid : Nat
  op : ReqOp
  line : Nat
  part : Nat := 0
  lens : Option Nat := none
  replica : Bool := false
  timedOut : Bool := false
  ackWait : Bool := false
  opened : Bool := false
  addr : Nat := 0
  grp : Nat := 0
  age : Nat := 0
deriving DecidableEq, Repr, Inhabited

/-- Span direction states (R397). -/
inductive SpanState where
  | down | detect | align | caps | active | retrain
deriving DecidableEq, Repr, Inhabited

/-- A snoop forwarded for the far home (R409). -/
structure FwdSnoop where
  homeId : Nat
  agent : Nat
  port : Nat
  id : Nat
  op : Nat
  line : Nat
  sent : Bool
  ans : Option SnrAns := none
  dat : List DatFlit := []
  notice : Nat := 0
deriving DecidableEq, Repr, Inhabited

/-- A record that waits for the span, with the group whose work it is (R299). -/
structure SpanWait where
  item : SpanRec
  grp : Option Nat := none
deriving DecidableEq, Repr, Inhabited

/-- The span port (R394 to R415). `st`, `failed` and `width` are the sending direction's state, failed lanes and width, `rx`, `rxFailed`
and `rxWidth` the receiving one's; the two are trained together, so that they differ only while one of them retrains. `lane` is the lane
whose failure the port acted on last; `naks` the successive replays of the oldest frame sent, and `rxNaks` those of the frame that is
expected (R402); `twinReset` says that the retrain in progress is the one of the twin's warm reset (R397); `farDown` that R404 has acted.
`replay` are the frames that await acknowledgement, each with the record it carries; `ctl` is the `ACK_KIND` that the next frame owes;
`owed` are the slots received on each channel whose credit has not been returned (R405); `laneErr` holds for each lane the units received
on it and the places of those of the last 65,536 that failed their CRC (R402); `remap` are the lanes to be retired at a frame that has not
been sent; `rxRecs` are for each channel the records received whose data flits are not complete (R406); `farRests` says that the twin
sleeps (R415); `holders` are the holder records that wait (R412). -/
structure Span where
  st : SpanState := .down
  rx : SpanState := .down
  failed : BitVec 18 := 0
  rxFailed : BitVec 18 := 0
  width : Nat := 0
  rxWidth : Nat := 0
  pairLevel : Nat := 1
  farDown : Bool := false
  txSeq : Nat := 0
  rxNext : Nat := 0
  replay : List (FrameHdr × Option SpanRec) := []
  ctl : Nat := 0
  owed : List Nat := List.replicate 6 0
  laneErr : List (Nat × List Nat) := List.replicate 18 (0, [])
  remap : List (Nat × Nat) := []
  rxRecs : List (List (Nat × List Sector)) := List.replicate 6 []
  farRests : Bool := false
  credits : List Nat := [64, 64, 128, 64, 128, 16]
  waitTx : List SpanWait := []
  relays : List Relay := []
  fwd : List FwdSnoop := []
  holders : List (Nat × Nat × Nat) := []
  lane : Nat := 0
  naks : Nat := 0
  rxNaks : Nat := 0
  twinReset : Bool := false
deriving DecidableEq, Repr, Inhabited

/-- An armed injection (R491). -/
structure Inject where
  kind : Nat
  set : Nat
  way : Nat
  word : Nat
  sector : Nat
deriving DecidableEq, Repr, Inhabited

/-- Wrapper instructions (R488). -/
inductive WirInstr where
  | bypass | extest | intest | preload | clamp | safe | fzId | fzMbist | fzInject
deriving DecidableEq, Repr, Inhabited

/-- R488: the instruction of a 5-bit code; a reserved one acts as `WS_BYPASS`. -/
def WirInstr.ofCode : Nat → WirInstr
  | 0x01 => .extest | 0x02 => .intest | 0x03 => .preload | 0x04 => .clamp | 0x05 => .safe
  | 0x10 => .fzId | 0x11 => .fzMbist | 0x12 => .fzInject | _ => .bypass

/-- Test state: WIR, the bypass and boundary registers, self-test and injection registers (R488 to R491). Bit 0 of `wbr` is
the cell next to `WSO`; `wrstn` is the level of the pin `WRSTN`, which every wrapper command but `FZ_ID` brings; `mbStart` is the `START` bit of the
self-test register as it was written. -/
structure TestUnit where
  wir : WirInstr := .bypass
  byp : Bool := false
  wbr : BitVec 16346 := 0
  mbTarget : Nat := 0
  mbStart : Bool := false
  mbRun : Bool := false
  mbDone : Bool := false
  mbFail : Bool := false
  mbBank : Nat := 0
  mbRow : Nat := 0
  inject : Option Inject := none
  injReg : BitVec 32 := 0
  fired : Bool := false
  wrstn : Bool := true
deriving DecidableEq, Repr, Inhabited

/-- The words of the configuration in force and of the window headers by what they hold (R447): a lens slot, the bucket map's
entry, the route entry of an agent, a partition record, `TINT_SEL`, the REGULATE tables, a cue channel entry, the record of an action
slot, and the header of a window. -/
inductive CfgWord where
  | lens (slot : Nat)
  | map (bucket : Nat)
  | route (agent : Nat)
  | part (p : Nat)
  | tint
  | reg
  | chan (c : Nat)
  | slot (i : Nat)
  | header (w : Nat)
deriving DecidableEq, Repr, Inhabited

/-- A fault of storage that no read has found yet. An entry or a counter whose parity is wrong (R448, R449): a miss register by its
line, a transaction (a waiter, a home tracker or an eviction-buffer entry) by its identity, a provisional entry and a waiting request
by port and `TXID`, a relay entry by its tag, an action slot, a counter, a histogram bin. Or one or two wrong bits in a codeword: of a
sector of a line in a buffer or in staging, of a data flit that waits to leave a fabric port, named with its line and partition
(R445), or of a configuration word (R447). No command of the model makes one. -/
inductive Damage where
  | mr (line : Nat)
  | txn (id : Nat)
  | prov (port txid : Nat)
  | wait (port txid : Nat)
  | relay (tag : Nat)
  | slot (i : Nat)
  | ctr (i : Nat)
  | bin (i : Nat)
  | buf (line sector word : Nat) (double : Bool)
  | out (port txid line part sector word : Nat) (double : Bool)
  | cfg (w : CfgWord) (double : Bool)
deriving DecidableEq, Repr, Inhabited

/-- The whole slice. `upsets` are faults of storage and lanes that no access has met yet, in the form of an injection (R83, R85,
R168, R236, R491), and `bad` what has a parity error; no command adds to either. `pending` is the queue of commands that wait,
first in first out; `out` is what left the ports in the last step; `acts` are the activity counts of R431; `sig` are the
debug signals of the last step, the newest first (R484); `ctrBit` are the bits that the counters in the debug modes saw last (R476);
`fresh` is the model's own counter for free values (log entry 3). -/
structure State where
  fab : List FabPort := List.replicate 8 {}
  mem : List MemPort := List.replicate 4 {}
  heldOut : List HeldOut := []
  memWait : List MemReq := []
  memOut : List MemReq := []
  cfg : Cfg := {}
  arr : List CLine := []
  dir : List DirEnt := []
  rot : List (Nat × Nat) := []
  wbb : List WbEnt := []
  mrs : List MissReg := []
  txns : List Txn := []
  nextId : Nat := 0
  waiting : List WaitReq := []
  prov : List ProvEnt := []
  wins : List Window := List.replicate 64 {}
  folds : List FoldRun := []
  lanes : List Nat := List.replicate 16 128
  lens : LensUnit := {}
  reg : RegUnit := {}
  cue : CueUnit := {}
  xlt : XltUnit := {}
  hot : HotUnit := {}
  presc : PrescUnit := {}
  mbs : List Mailbox := List.replicate 17 {}
  pws : List PWin := List.replicate 16 {}
  regs : Regs := {}
  elog : ErrLog := {}
  meas : Meas := {}
  ctr : List (BitVec 48) := List.replicate 48 0
  hist : List (BitVec 48) := List.replicate 64 0
  power : Power := {}
  fuses : Fuses := {}
  res : Resilver := {}
  hand : HandUnit := {}
  down : List Report := []
  acks : List Nat := []
  ranges : List RangeRun := []
  walks : List Walk := []
  span : Span := {}
  test : TestUnit := {}
  upsets : List Inject := []
  bad : List Damage := []
  acts : List Nat := List.replicate 24 0
  sig : List Sig := []
  ctrBit : BitVec 48 := 0
  fresh : Nat := 0
  out : List Out := []
  pending : List Instr := []
deriving DecidableEq, Repr, Inhabited

/-- The machine right after power-up: `RST_N` low, a cold reset in force (R437), nothing in the array, every register
at the reset value its table gives (R354, R370 to R393), and no command waiting. -/
def State.reset : State := {}

end Sys2Proof.Machine
end

