-- ==== Sys2Proof/Machine/Ops.lean ====
section
/-! DEFINITION. Named operations over the state: placement, configuration views, event counters, error logs, port
credits and flits, memory requests, completions, and the entry into `RECOVERY`. -/

namespace Sys2Proof

/-- R155, R216, R247, R265. -/
def ReqOp.code : ReqOp → Nat
  | .rdShared => 1 | .rdOnce => 2 | .rdUnique => 3 | .upgrade => 4 | .wrFull => 5 | .wrPartial => 6 | .zeroLine => 7
  | .append => 8 | .writeback => 9 | .writeclean => 0xA | .evictClean => 0xB | .confirm => 0xC | .cancel => 0xD
  | .atAdd => 0x10 | .atCadd => 0x11 | .atMin => 0x12 | .atMax => 0x13 | .atAnd => 0x14 | .atOr => 0x15
  | .atXor => 0x16 | .atSwap => 0x17 | .atCas64 => 0x18 | .atCas128 => 0x19 | .accumulate => 0x1A | .rdFused => 0x1B
  | .winArrive => 0x20 | .winFold => 0x21 | .winCollect => 0x22 | .cueRing => 0x28 | .other n => n

/-- The opcode a raw value of the `OPCODE` field names. -/
def ReqOp.ofCode : Nat → ReqOp
  | 1 => .rdShared | 2 => .rdOnce | 3 => .rdUnique | 4 => .upgrade | 5 => .wrFull | 6 => .wrPartial | 7 => .zeroLine
  | 8 => .append | 9 => .writeback | 0xA => .writeclean | 0xB => .evictClean | 0xC => .confirm | 0xD => .cancel
  | 0x10 => .atAdd | 0x11 => .atCadd | 0x12 => .atMin | 0x13 => .atMax | 0x14 => .atAnd | 0x15 => .atOr
  | 0x16 => .atXor | 0x17 => .atSwap | 0x18 => .atCas64 | 0x19 => .atCas128 | 0x1A => .accumulate | 0x1B => .rdFused
  | 0x20 => .winArrive | 0x21 => .winFold | 0x22 => .winCollect | 0x28 => .cueRing | n => .other n

/-- The notices of R154. -/
def ReqOp.isNotice : ReqOp → Bool
  | .writeback | .writeclean | .evictClean => true
  | _ => false

/-- The reads of R156. -/
def ReqOp.isRead : ReqOp → Bool
  | .rdShared | .rdOnce => true
  | _ => false

/-- The atomics `AT_*` of R216. -/
def ReqOp.isAt : ReqOp → Bool
  | .atAdd | .atCadd | .atMin | .atMax | .atAnd | .atOr | .atXor | .atSwap | .atCas64 | .atCas128 => true
  | _ => false

/-- Opcodes `0x10` to `0x1A`, atomics for R16 and R17 (R216). -/
def ReqOp.isAtomic (o : ReqOp) : Bool := o.isAt || o == .accumulate

/-- Write-type under R97, R155, R216 and R247; `EVICT_CLEAN` and `CUE_RING` are not. -/
def ReqOp.isWrite : ReqOp → Bool
  | .rdUnique | .upgrade | .wrFull | .wrPartial | .zeroLine | .append | .writeback | .writeclean => true
  | .winArrive | .winFold | .winCollect | .accumulate => true
  | o => o.isAt

/-- Channel number of a record: `S_REQ` 0, `S_NTC` 1, `S_RSP` 2, `S_SNP` 3, `S_SNR` 4, `S_CTL` 5. -/
def SpanRec.chan : SpanRec → Nat
  | .req op _ => if op.isNotice || op == .confirm || op == .cancel then 1 else 0
  | .rsp .. | .hack .. | .fill .. => 2
  | .snp .. => 3
  | .snr .. => 4
  | .hrec .. | .ver .. | .retire .. => 5

/-- Slots a record takes: one for itself and one for each data flit (R406). -/
def SpanRec.slots : SpanRec → Nat
  | .req _ q => 1 + q.dat.length
  | .rsp _ _ _ _ d _ => 1 + d.length
  | .snr _ _ _ _ d => 1 + d.length
  | .fill _ _ d => 1 + d.length
  | _ => 1

end Sys2Proof

namespace Sys2Proof.Machine

open Sys2Proof

/-- The outcome type of a meaning. -/
abbrev Res := Host.Outcome State Fault Refusal

/-- Every step starts with empty ports: `out` holds this step's flits and acknowledgement pulses (log entry 2), and no group's
work runs. -/
def State.fresh0 (s : State) : State := { s with out := [], acks := [], sig := [], reg := { s.reg with cur := none, curAgent := none } }

/-! ### Codes -/

/-- R25. -/
def Status.code : Status → Nat
  | .done => 0 | .partialSt => 1 | .faulted => 2 | .fqOverflow => 3 | .aborted => 4 | .notReady => 5
  | .alreadyCollected => 6 | .late => 7 | .poison => 8 | .timeout => 9 | .accessDenied => 10 | .misroute => 11

/-- R25, read back; reserved values are never sent. -/
def Status.ofCode : Nat → Status
  | 0 => .done | 1 => .partialSt | 2 => .faulted | 3 => .fqOverflow | 4 => .aborted | 5 => .notReady
  | 6 => .alreadyCollected | 7 => .late | 8 => .poison | 9 => .timeout | 10 => .accessDenied | _ => .misroute

/-- R380. -/
def Err.code : Err → Nat
  | .ok => 0 | .fieldRange => 0x101 | .reservedSet => 0x102 | .align => 0x103 | .oversubscribed => 0x201
  | .pinCeiling => 0x202 | .lensOverlap => 0x203 | .mirrorWritable => 0x204 | .featureLevel => 0x301
  | .digest => 0x302 | .sectionOrder => 0x303 | .partitionAccess => 0x401 | .locked => 0x402 | .busy => 0x501

/-! ### Placement (R55, R65, R66) -/

/-- R55 on a line address `A[51:7]`. -/
def bucketOf (line : Nat) : Nat :=
  bits line 9 0 ^^^ bits line 19 10 ^^^ bits line 29 20 ^^^ bits line 39 30 ^^^ bits line 44 40

/-- R65 on a line address. -/
def setOf (line : Nat) : Nat := bits line 15 0 ^^^ bits line 31 16 ^^^ bits line 44 32

/-- The line of a package-physical address. -/
def addrLine (a : Nat) : Nat := bits a 51 7

/-- R66: facet of sector `sec` of set `s`. -/
def facetOf (set sec : Nat) : Nat := bits set 2 0 * 2 + sec

/-- R66: bank of a sector in way `w` of set `s`. -/
def bankOf (set way sec : Nat) : Nat := bits way 4 4 * 32 + facetOf set sec * 2 + bits set 3 3

/-- R66: row in the bank. -/
def rowOf (set way : Nat) : Nat := bits set 15 4 * 16 + bits way 3 0

/-- R46. -/
def State.position (s : State) : Nat :=
  if s.power.straps.split then s.power.straps.half * 32 + s.power.straps.index else s.power.straps.index

/-- R46: the mirror twin's position. -/
def State.twin (s : State) : Option Nat :=
  if s.power.straps.split then some ((1 - s.power.straps.half) * 32 + s.power.straps.index) else none

/-- R57: the position a bucket map entry names. -/
def mapPos (e : Nat) : Nat := bits e 5 5 * 32 + bits e 4 0

/-- The states of R60. -/
inductive BState where
  | home | relay | none | incoming | outgoing
deriving DecidableEq, Repr

/-- R60: the state of a bucket at this slice. -/
def State.bucketSt (s : State) (b : Nat) : BState :=
  match s.hand.buckets.find? (fun h => h.bucket == b && !h.relayOnly) with
  | some h => if h.incoming then .incoming else .outgoing
  | none =>
    match s.cfg.map[b]? with
    | none => .none
    | some e =>
      if s.hand.gone.contains b then .none
      else if mapPos e == s.position then .home
      else if s.twin == some (mapPos e) then .relay else .none

/-- The slice homes this line. -/
def State.homed (s : State) (line : Nat) : Bool := s.bucketSt (bucketOf line) == .home

/-- R60, R410: the line's bucket is relayed, so that this slice may only hold a replica of it. -/
def State.relayed (s : State) (line : Nat) : Bool := s.bucketSt (bucketOf line) == .relay

/-- The slice rests in, or is committed to, `SLEEP` or the `OFF` of a sleep (R424). -/
def State.asleep (s : State) : Bool :=
  s.power.state == .sleep || (s.power.state == .off && !s.power.rstLow)

/-- FCLK runs: not in reset, at rest or in a relock (R417, R421). -/
def State.fclkRuns (s : State) : Bool := !s.power.rstLow && !s.asleep && !s.power.relock

/-- A way mask holds way `w`. -/
def wayIn (mask w : Nat) : Bool := bit mask w

/-- The record of partition `p` in force. -/
def State.part (s : State) (p : Nat) : PartRec := s.cfg.parts.getD p {}

/-- The partition is active and not under resilver: check 1 of R97 with R464. -/
def State.served (s : State) (p : Nat) : Bool :=
  (s.part p).active && !(s.res.active && s.res.part == p)

/-- The route entry of an agent (R161). -/
def State.routeOf (s : State) (a : Nat) : RouteEnt := s.cfg.route.getD a {}

/-- R161: an agent of the other half; in the compact configuration the half is ignored. -/
def State.isFar (s : State) (a : Nat) : Bool :=
  s.power.straps.split && (s.routeOf a).half != s.power.straps.half

/-- R180: the agent is down until its report is acknowledged. -/
def State.isDown (s : State) (a : Nat) : Bool := s.down.any (fun r => r.agent == a)

/-- R204: the address lies in a listed scratchpad window. -/
def State.inScratch (s : State) (addr : Nat) : Bool :=
  s.cfg.scratch.any (fun (b, n) => b * 4096 ≤ addr && addr < (b + n) * 4096)

/-- R340, R28: the memory port of an address; `MEM0` before a GEOMETRY section is in force (R355). -/
def State.memPort (s : State) (addr : Nat) : Nat :=
  s.cfg.memTable.getD (bits (addr >>> s.cfg.memShift) 3 0) 0

/-! ### Error logs and wires (R51, R381 to R384, R441 to R443) -/

/-- The class of a source (R384, R443). -/
def srcClass : Nat → Nat
  | 0x002 | 0x007 | 0x009 | 0x00B | 0x00E | 0x011 | 0x018 | 0x01B | 0x01C | 0x01E | 0x020 | 0x021 => 1
  | 0x008 | 0x00D | 0x00F | 0x01D | 0x01F => 2
  | 0x003 | 0x00A | 0x00C | 0x010 | 0x019 | 0x01A => 3
  | _ => 0

/-- A record to be placed. -/
structure LogIn where
  source : Nat
  part : Nat := 0
  agent : Nat := 0
  port : Nat := 15
  chan : Nat := 0
  addr : Nat := 0
  detail : Nat := 0

/-- How many records back a `SEQ` lies. -/
def ErrLog.back (e : ErrLog) (seq : Nat) : Nat := (e.nextSeq + 65536 - seq) % 65536

/-- The index of the valid entry that `better` prefers. -/
def ErrLog.pick (e : ErrLog) (ok : LogEnt → Bool) (older : Bool) : Option Nat :=
  (List.range 32).foldl (fun best i =>
    match e.ents[i]? with
    | none => best
    | some x =>
      if x.valid && ok x then
        match best with
        | none => some i
        | some j =>
          let bj := e.back (e.ents.getD j {}).seq
          if (if older then bj < e.back x.seq else e.back x.seq < bj) then some i else best
      else best) none

/-- R383: place a record. -/
def ErrLog.place (e : ErrLog) (r : LogIn) : ErrLog :=
  let cls := srcClass r.source
  let new : LogEnt := { cls := cls, valid := true, source := r.source, part := r.part, agent := r.agent,
                        port := r.port, chan := r.chan, seq := e.nextSeq, addr := r.addr, detail := r.detail }
  let merge := match e.pick (fun _ => true) false with
    | some i =>
      let x := e.ents.getD i {}
      if x.source == r.source && x.part == r.part && x.agent == r.agent && x.addr == r.addr then some i else none
    | none => none
  match merge with
  | some i => { e with ents := e.ents.modify i fun x => { x with repeats := min (x.repeats + 1) 65535 } }
  | none =>
    let e' := { e with nextSeq := (e.nextSeq + 1) % 65536 }
    match e.ents.findIdx? (fun x => !x.valid) with
    | some i => { e' with ents := e.ents.set i new }
    | none =>
      match e.pick (fun x => x.cls < cls) true with
      | some i => { e' with ents := e.ents.set i new }
      | none =>
        match cls with
        | 0 => { e' with lostNotice := true }
        | 1 => { e' with lostCorr := true }
        | 2 => { e' with lostUncorr := true }
        | _ => e'

/-- R54: the slice drives its outputs: `RST_N` is high and it has left `INIT`. -/
def State.drives (s : State) : Bool := !s.power.rstLow && s.power.state != .init

/-- Level of `ERR_CORR` (R51, R54, R383). -/
def State.errCorr (s : State) : Bool := s.drives && (s.elog.lostCorr || s.elog.ents.any (fun x => x.valid && x.cls == 1))

/-- Level of `ERR_UNCORR` (R51, R54, R383). -/
def State.errUncorr (s : State) : Bool := s.drives && (s.elog.lostUncorr || s.elog.ents.any (fun x => x.valid && x.cls == 2))

/-- Level of `FATAL` (R51, R54). -/
def State.fatalWire (s : State) : Bool := s.drives && s.elog.fatal

/-- Write a record (R441): notices, correctable and uncorrectable records change nothing else. -/
def State.log (r : LogIn) (s : State) : State := { s with elog := s.elog.place r }

/-! ### Event counters (R476, R478, R479) -/

/-- Event codes of R478. -/
def Ev.fclkCycle := 0x001
def Ev.issueSkip := 0x002
def Ev.cueLag := 0x003
def Ev.urgCrit := 0x004
def Ev.guaranteeScaled := 0x005
def Ev.regDebit := 0x006
def Ev.capUnreachable := 0x007
def Ev.lookup := 0x010
def Ev.rdHit := 0x011
def Ev.rdMiss := 0x012
def Ev.wrHit := 0x013
def Ev.wrMiss := 0x014
def Ev.fillSector := 0x015
def Ev.wbSector := 0x016
def Ev.specIssue := 0x017
def Ev.specDiscard := 0x018
def Ev.mrMerge := 0x019
def Ev.mrWait := 0x01A
def Ev.busyWait := 0x01B
def Ev.misroute := 0x01C
def Ev.quotaBypass := 0x020
def Ev.pinOverflow := 0x021
def Ev.thrash := 0x022
def Ev.appendSpill := 0x023
def Ev.appendBehind := 0x024
def Ev.appendStop := 0x025
def Ev.deadReread := 0x026
def Ev.tileSkip := 0x027
def Ev.walkFill := 0x028
def Ev.provFull := 0x030
def Ev.provRefused := 0x031
def Ev.provConfirm := 0x032
def Ev.provCancel := 0x033
def Ev.provVoid := 0x034
def Ev.provTimeout := 0x035
def Ev.dirCoarse := 0x040
def Ev.dirEvict := 0x041
def Ev.dirEvictWait := 0x042
def Ev.snpSent := 0x043
def Ev.snpInflight := 0x044
def Ev.protoErr := 0x045
def Ev.downDrop := 0x046
def Ev.reclaimPoison := 0x047
def Ev.laneOp := 0x050
def Ev.accumPayload := 0x051
def Ev.winLate := 0x052
def Ev.outflowSat := 0x053
def Ev.outflowNan := 0x054
def Ev.fuseMisplaced := 0x055
def Ev.laneRetry := 0x056
def Ev.beatDiscard := 0x060
def Ev.ringWait := 0x061
def Ev.armPast := 0x062
def Ev.actFail := 0x063
def Ev.cueStall := 0x064
def Ev.tdcMiss := 0x070
def Ev.tdcMerge := 0x071
def Ev.tdcParity := 0x072
def Ev.xltFault := 0x073
def Ev.fqDisabled := 0x074
def Ev.fqOvf := 0x075
def Ev.hotDrop := 0x076
def Ev.spanReplay := 0x080
def Ev.spanSlotTx := 0x081
def Ev.mirrorRefused := 0x082
def Ev.mirrorMismatch := 0x083
def Ev.flitSbe := 0x084

/-- R449: counter `i` is read or advanced: one with a parity error starts again at 0. -/
def State.ctrParity (i : Nat) (s : State) : State :=
  if s.bad.contains (.ctr i) then
    State.log { source := 0x01B, detail := i } { s with bad := s.bad.erase (.ctr i), ctr := s.ctr.set i 0 }
  else s

/-- R449: bin `b` of histogram `h` (at 16 `h` + `b`) is read or advanced. -/
def State.binParity (i : Nat) (s : State) : State :=
  if s.bad.contains (.bin i) then
    State.log { source := 0x01B, detail := 48 + i } { s with bad := s.bad.erase (.bin i), hist := s.hist.set i 0 }
  else s

/-- R482: the bin of a latency in FCLK. -/
def histBin (l : Nat) : Nat :=
  if l < 16 then 0 else if l < 2 ^ 15 then Nat.log2 l - 3 else min 15 (12 + (Nat.log2 l - 15) / 2)

/-- R482, R483: an occurrence of histogram source `src` attributed to `part` ends. The model holds no time in FCLK between the
steps, so the latency is a free value (log entry 25); every histogram of the source adds 1 to that latency's bin. -/
def State.measure (src : Nat) (part : Option Nat) (s : State) : State :=
  let on (h : Nat) : Bool :=
    let c := s.cfg.hists.getD h {}
    src != 0 && c.src == src && (!c.partEn || part == some c.part)
  let bin := histBin (Config.freeLatency s.fresh).toNat
  (List.range 4).foldl (fun t h =>
    if on h then
      let t := t.binParity (16 * h + bin)
      { t with hist := t.hist.modify (16 * h + bin) (· + 1), fresh := s.fresh + 1 }
    else t) s

/-- Counter `i` counts the event, in a state in which FCLK runs; `CUE_LAG` counts ACLK, and the always-on domain adds what a sleep has
brought (R476, R478). -/
def State.counts (s : State) (ev : Nat) (part : Option Nat) (i : Nat) : Bool :=
  match s.cfg.ctrs[i]? with
  | some c => (s.fclkRuns || ev == Ev.cueLag) && c.mode == 0 && ev != 0 && c.event == ev && (!c.partEn || part == some c.part)
  | none => false

/-- R484: signals of a debug source show. -/
def State.sign (src mask val : Nat) (part : Option Nat) (s : State) : State := { s with sig := ⟨src, mask, val, part⟩ :: s.sig }

/-- R484: the bit of debug source `0x20` that an event of R478 shows. -/
def evSig (ev : Nat) (part : Option Nat) : List Sig :=
  let bit (b : Nat) : List Sig := [⟨0x20, b, b, part⟩]
  if ev == Ev.lookup then bit 0x1 else if ev == Ev.rdHit || ev == Ev.wrHit then bit 0x2
  else if ev == Ev.rdMiss || ev == Ev.wrMiss then bit 0x4 else if ev == Ev.specIssue then bit 0x8
  else if ev == Ev.specDiscard then bit 0x10 else if ev == Ev.mrWait then bit 0x4000
  else if ev == Ev.busyWait then bit 0x8000 else []

/-- `n` occurrences of event `ev` attributed to `part` (none: the slice): every counter in mode 0 bound to it
advances, modulo 2^48 (R449, R476, R478, R479), and the debug port sees it (R484). -/
def State.countN (ev : Nat) (part : Option Nat) (n : Nat) (s : State) : State :=
  let s := if s.bad.isEmpty then s
    else (List.range 48).foldl (fun t i => if t.counts ev part i then t.ctrParity i else t) s
  { s with ctr := s.ctr.mapIdx (fun i v => if s.counts ev part i then v + BitVec.ofNat 48 n else v), sig := evSig ev part ++ s.sig }

/-- One occurrence. -/
def State.count (ev : Nat) (part : Option Nat) (s : State) : State := s.countN ev part 1

/-! ### What a group uses (R288, R296) -/

/-- Update a group's balance in a resource. -/
def State.setBal (g r : Nat) (f : Bal → Bal) (s : State) : State :=
  { s with reg := { s.reg with bal := s.reg.bal.modify g fun l => l.modify r f } }

/-- R296: a group has used `n` 1/32 units of resource `r`. -/
def State.useOf (g : Option Nat) (r n : Nat) (s : State) : State :=
  match g with
  | some g => s.setBal g r fun b => { b with used := b.used + n }
  | none => s

/-- R296: the group whose work runs has used `n` 1/32 units of resource `r`. -/
def State.use (r n : Nat) (s : State) : State := s.useOf s.reg.cur r n

/-- The work of this group runs, for a request of this agent or for the slice itself. -/
def State.runAs (g : Option Nat) (s : State) (agent : Option Nat := none) : State :=
  { s with reg := { s.reg with cur := g, curAgent := agent } }

/-- The group that ran in `o`, with its agent, runs again. -/
def State.runLike (o s : State) : State := s.runAs o.reg.cur o.reg.curAgent

/-- The reservation of a request. -/
def State.resvOf (s : State) (port txid : Nat) (tag : Option Nat) : Option Resv :=
  s.reg.resv.find? fun r => r.txid == txid && r.tag == tag && (tag.isSome || r.port == port)

/-- R483: a request answers; its latency is measured by the sources that follow it. A read's ends with its first data, every other
one with its `RSP` (log entry 54). -/
def State.answered (port txid : Nat) (tag : Option Nat) (data : Bool) (s : State) : State :=
  match s.resvOf port txid tag with
  | none => s
  | some v => (v.srcs.filter fun x => 2 < x || data).foldl (fun t x => t.measure x (some v.part)) s

/-- A request's group runs, with its agent, as its reservation names them. -/
def State.asRequest (port txid : Nat) (tag : Option Nat) (s : State) : State :=
  match s.resvOf port txid tag with
  | some v => s.runAs (some v.charged) (some v.agent)
  | none => s

/-- R483: the request is measured by one more source. -/
def State.follow (port txid : Nat) (tag : Option Nat) (src : Nat) (s : State) : State :=
  let add (r : Resv) : Resv := if s.resvOf port txid tag == some r then { r with srcs := src :: r.srcs } else r
  { s with reg := { s.reg with resv := s.reg.resv.map add } }

/-- R288, R296: the request has completed, and its paying group is credited with its whole reservation. -/
def State.refund (port txid : Nat) (tag : Option Nat) (s : State) : State :=
  match s.resvOf port txid tag with
  | none => s
  | some v =>
    let s := { s with reg := { s.reg with resv := s.reg.resv.erase v } }
    (v.units.zipIdx).foldl (fun t (n, r) => t.setBal v.pay r fun b => { b with credit := b.credit + 32 * n }) s

/-! ### Who goes first (R291, R297 to R299, R302) -/

/-- R416: FCLK of an operating point in MHz. -/
def opMHz (op : Nat) : Nat := 940 + 188 * op

/-- R297: units that a share `n` of 1/1,024 of the reference capacity moves in 512 FCLK at `f` MHz. -/
def roundUnits (res f n : Nat) : Nat :=
  match res with
  | 2 => n * 2 * 1880 / f
  | 3 => n * 13125 / (4 * f)
  | 4 => n * 32 * 1880 / f
  | _ => n * 4 * 1880 / f

/-- A group's record. -/
def State.grp (s : State) (g : Nat) : GrpCfg := s.reg.cfg.groups.getD g {}

/-- A group's allotment of a resource. -/
def GrpCfg.minOf (c : GrpCfg) (res : Nat) : Nat := c.min.getD res 0

/-- R302: a group's effective allotment. -/
def GrpCfg.eff (c : GrpCfg) (x : ResScale) (res : Nat) : Nat := c.minOf res * (if c.prot then x.sp else x.s) / 1024

/-- R297: the guaranteed units of a group in one round. -/
def State.guaranteeOf (s : State) (g res : Nat) : Nat :=
  roundUnits res (opMHz s.power.op) ((s.grp g).eff (s.reg.scale.getD res {}) res)

/-- R298: the level of a group: the highest of its bound inputs. -/
def State.level (s : State) (g : Nat) : Nat :=
  ((s.reg.cfg.urg.zip s.reg.urgLvl).filter (fun (b, _) => b.2 && b.1 == g)).foldl (fun m (_, l) => max m l) 0

/-- A group's balance in a resource. -/
def State.balOf (s : State) (g res : Nat) : Bal := (s.reg.bal.getD g []).getD res {}

/-- R299: the class of a group's waiting work (0 goes first), what the group has used of the resource in this round, and its
weight, level 1 counting four times. Work of no group comes last. -/
def State.turnOf (s : State) (res : Nat) (g : Option Nat) : Nat × Nat × Nat :=
  match g with
  | none => (4, 0, 1)
  | some g =>
    let used := ((s.balOf g res).used).toNat
    let w := (s.grp g).weight * (if s.level g == 1 then 4 else 1)
    if used < 32 * s.guaranteeOf g res then (0, used, w)
    else if s.level g == 3 then (1, used, w)
    else if s.level g == 2 then (2, used, w)
    else if w == 0 then (4, 0, 1)
    else (3, used, w)

/-- R299: work of turn `a` goes before work of turn `b`: the class decides, and within a class the smaller use for its weight
(DESIGN CHOICE, log entry 53). -/
def goesBefore (a b : Nat × Nat × Nat) : Bool :=
  a.1 < b.1 || (a.1 == b.1 && a.2.1 * b.2.2 < b.2.1 * a.2.2)

/-- The first of the waiting items that goes before all others. -/
def firstTurn {α : Type} (turn : α → Nat × Nat × Nat) (l : List α) : Option α :=
  l.foldl (fun b x => match b with
    | none => some x
    | some y => if goesBefore (turn x) (turn y) then some x else some y) none

/-! ### Port credits and flits (R22 to R24) -/

/-- R431: `n` more of activity class `i`, in the order of the rule's table. -/
def State.act (i n : Nat) (s : State) : State := { s with acts := s.acts.modify i (· + n) }

/-- The `FAB` port and channel (0 `RSP`, 1 `DAT` out, 2 `SNP`) of a flit, when it has one. -/
def Out.chan : Out → Option (Nat × Nat)
  | .rsp p .. => some (p, 0)
  | .dat p .. => some (p, 1)
  | .snp p .. => some (p, 2)
  | _ => none

/-- The transaction a flit of `RSP` or `DAT` out belongs to. -/
def Out.txid : Out → Option Nat
  | .rsp _ t .. => some t
  | .dat _ t .. => some t
  | _ => none

/-- A held flit that must leave before `f`: one of the same channel, or data of the same transaction (R159). -/
def Out.before (f g : Out) : Bool :=
  match f.chan, g.chan with
  | some (p, c), some (p', c') => p == p' && (c == c' || (c == 0 && c' == 1 && f.txid == g.txid))
  | _, _ => false

/-- Outgoing credits left on a channel. -/
def State.oCredit (s : State) (pc : Nat × Nat) : Nat :=
  let c := s.fab.getD pc.1 {}
  match pc.2 with
  | 0 => c.oRsp
  | 1 => c.oDat
  | _ => c.oSnp

/-- Spend one outgoing credit; a flit leaves (R431). -/
def State.spend (pc : Nat × Nat) (s : State) : State :=
  State.act (if pc.2 == 1 then 9 else 10) 1 { s with fab := s.fab.modify pc.1 fun c =>
      match pc.2 with
      | 0 => { c with oRsp := c.oRsp - 1 }
      | 1 => { c with oDat := c.oDat - 1 }
      | _ => { c with oSnp := c.oSnp - 1 } }

/-! #### Faults of buffers (R445) -/

/-- The damage is of the buffered copy of this sector. -/
def Damage.isBuf (line i : Nat) : Damage → Bool
  | .buf l k _ _ => l == line && k == i
  | _ => false

/-- The damage is of this data flit. -/
def Damage.isOut (f : Out) : Damage → Bool
  | .out p t _ _ i _ _ => (match f with | .dat q u j .. => p == q && t == u && i == j | _ => false)
  | _ => false

/-- Two wrong bits in a codeword. -/
def Damage.double : Damage → Bool
  | .buf _ _ _ d | .out _ _ _ _ _ _ d | .cfg _ d => d
  | _ => false

/-- R445: a buffered sector of a line of partition `part` is read and codeword `word` shows an error. -/
def State.bufError (d : Damage) (part line i word : Nat) (s : State) : State :=
  let s := { s with bad := s.bad.erase d }
  let addr := line * 128 + i * 64
  if d.double then s.log { source := 0x01F, part := part, addr := addr, detail := word }
  else State.log { source := 0x01E, part := part, addr := addr, detail := word + (Config.syndrome s.fresh).toNat * 8 }
    { s with fresh := s.fresh + 1 }

/-- R445: see `State.bufError`; a flit names its own partition. -/
def State.bufFault (d : Damage) (part : Nat) (s : State) : State :=
  match d with
  | .buf line i word _ => s.bufError d part line i word
  | .out _ _ line p i word _ => s.bufError d p line i word
  | _ => s

/-- R445: a sector in staging is read; the flag says that it has two wrong bits in a codeword. -/
def State.staged (line i part : Nat) (s : State) : Bool × State :=
  match s.bad.find? (Damage.isBuf line i) with
  | some d => (d.double, s.bufFault d part)
  | none => (false, s)

/-- The data flit with its poison indication set. -/
def Out.spoil : Out → Out
  | .dat p t i d _ a l => .dat p t i d true a l
  | f => f

/-- R445: a flit that has waited is read from its port's buffer. -/
def State.readOutBuf (f : Out) (s : State) : Out × State :=
  match s.bad.find? (Damage.isOut f) with
  | some d => (if d.double then f.spoil else f, s.bufFault d 0)
  | none => (f, s)

/-- R484: the signals that a leaving flit shows. -/
def Out.sigs (p : Option Nat) : Out → List Sig
  | .dat port .. => [⟨1 + port, 0x4, 0x4, p⟩]
  | .rsp port .. => [⟨1 + port, 0x8, 0x8, p⟩]
  | .snp port .. => [⟨1 + port, 0x10, 0x10, p⟩]
  | .rego group res tokens _ => [⟨0x50, 0x3FFFF, 1 + res * 2 + group * 2 ^ 4 + tokens * 2 ^ 10, none⟩]
  | _ => []

/-- Send a flit that belongs to a partition, or hold it when its channel has no credit or an earlier flit must leave first. -/
def State.emitOf (p : Option Nat) (f : Out) (s : State) : State :=
  match f.chan with
  | none => { s with out := s.out ++ [f], sig := f.sigs p ++ s.sig }
  | some pc =>
    if s.heldOut.any (fun h => f.before h.flit) || s.oCredit pc == 0 then { s with heldOut := s.heldOut ++ [⟨f, p⟩] }
    else State.spend pc { s with out := s.out ++ [f], sig := f.sigs p ++ s.sig }

/-- The partition of what a flit belongs to: a request, or the entry of the line that a snoop names (R166). -/
def State.flitPart (s : State) (f : Out) : Option Nat :=
  match f with
  | .rsp port txid .. | .dat port txid .. => (s.resvOf port txid none).map (·.part)
  | .snp _ _ line .. => (s.dir.find? (·.line == line)).map (·.part)
  | _ => none

/-- Send a flit, or hold it. -/
def State.emit (f : Out) (s : State) : State := s.emitOf (s.flitPart f) f

/-- Try the held flits again, in their order. -/
def State.flush (s : State) : State :=
  s.heldOut.foldl (fun t h => let (f, t) := t.readOutBuf h.flit; t.emitOf h.part f) { s with heldOut := [] }

/-- The fabric request that a command brings. -/
def fabReq : Instr → Option Req
  | .rdShared q | .rdOnce q | .rdUnique q | .upgrade q | .wrFull q | .wrPartial q | .zeroLine q | .append q | .writeback q
  | .writeclean q | .evictClean q | .provisionalRead _ q | .confirm q | .cancel q | .reservedOpcodeRequest _ q | .atAdd q | .atCadd q
  | .atMin q | .atMax q | .atAnd q | .atOr q | .atXor q | .atSwap q | .atCas64 q | .atCas128 q | .accumulate q | .rdFused q | .winArrive q
  | .winFold q | .winCollect q | .cueRing q => some q
  | _ => none

/-- The requests that wait in a port's request buffer; one that has its relay entry has left it (R407). -/
def State.parked (s : State) (p : Nat) : Nat :=
  (s.waiting.filter (fun w => w.q.port == p && w.tag == none && w.rtag == none)).length

/-- A requester spends one `REQ` credit and one `DAT` credit a flit; the slice returns both once the request leaves
the port's buffer, so only the requests that wait or are held over a wake or a relock hold credits (R22, R136, R418, R430). What the
slice keeps, in `CONFIG` and `TEST` (R23) and while it drains for `CONFIG`, in which the requests that wait are among the kept, it does
not return (R359). -/
def State.reqCredits (s : State) (p : Nat) : Nat :=
  let c := s.fab.getD p {}
  c.req - c.keptReq - (if s.power.cfgDrain then 0 else s.parked p) -
    (s.power.held.filter (fun x => (fabReq x.1).any fun q => q.port == p)).length

/-- R22, R23: the credits granted on entry to `SERVICE`. -/
def State.grantCredits (s : State) : State :=
  { s with fab := s.fab.map fun c => { c with req := 48, dat := 64, snr := 64, keptReq := 0, keptDat := 0 } }

/-! ### Span records (R405, R406) -/

/-- The code of a span width in registers and records (R370, R384). -/
def widthCode : Nat → Nat
  | 16 => 3 | 8 => 2 | 4 => 1 | _ => 0

/-- The twin's credits, the replay buffer (R401) and the link allow the record to leave now; none leaves while either twin sleeps
(R415). -/
def State.spanReady (r : SpanRec) (s : State) : Bool :=
  s.span.st == .active && !s.asleep && !s.span.farRests && s.span.replay.length < 128 && r.slots ≤ s.span.credits.getD r.chan 0

/-- R384: a record of a span source. -/
def State.logSpan (source lane width addr : Nat) (s : State) : State :=
  s.log { source := source, port := 12, addr := addr, detail := lane + widthCode width * 2 ^ 5 }

/-- Send the frames that wait for an acknowledgement again, in their order and with their contents (R401, R402). -/
def State.replaySpan (s : State) : State :=
  State.sign 0x70 0x200000 0x200000 none
    { s with out := s.out ++ s.span.replay.map fun (x : FrameHdr × Option SpanRec) => .span x.1 x.2 }

/-- R402: a failed lane of the sending direction is retired from the next frame on; the frames that were not acknowledged are
replayed on the new map. -/
def State.remapLane (lane : Nat) (s : State) : State :=
  let s := { s with span := { s.span with failed := s.span.failed ||| BitVec.ofNat 18 (2 ^ lane), lane := lane } }
  (s.logSpan 0x021 lane s.span.width 0).replaySpan

/-- R402: the lanes to be retired at the frame that is sent next. -/
def State.remapDue (s : State) : State :=
  (s.span.remap.filter fun (x : Nat × Nat) => x.2 == s.span.txSeq).foldl (fun t x => t.remapLane x.1)
    { s with span := { s.span with remap := s.span.remap.filter fun (x : Nat × Nat) => x.2 != s.span.txSeq } }

/-- R136, R405: the slots of `S_REQ` whose requests still wait, or are held over a wake or a relock. -/
def State.sreqHeld (s : State) : Nat :=
  let slots (op : ReqOp) (q : Req) : Nat := if (SpanRec.req op q).chan == 0 then (SpanRec.req op q).slots else 0
  ((s.waiting.filter (·.tag.isSome)).map fun (w : WaitReq) => slots w.op w.q).sum +
  (s.power.held.map fun (x : Instr × Nat) => match x.1 with | .spanReqRecord op q => slots op q | _ => 0).sum

/-- R396, R405: the header of the next frame: it returns the credits of the slots received, but of `S_REQ` those whose requests have
left the buffer. -/
def State.nextHdr (s : State) : FrameHdr :=
  { seq := s.span.txSeq, ack := (s.span.rxNext + 65535) % 65536, kind := s.span.ctl,
    credit := s.span.owed.mapIdx fun i n => min 255 (if i == 0 then n - s.sreqHeld else n) }

/-- R396, R401: a frame with this record, or with none, leaves, and waits for its acknowledgement. -/
def State.sendFrame (r : Option SpanRec) (s : State) : State :=
  let h := s.nextHdr
  State.remapDue { s with
    out := s.out ++ [.span h r],
    span := { s.span with replay := s.span.replay ++ [(h, r)], txSeq := (s.span.txSeq + 1) % 65536, ctl := 0,
                          owed := s.span.owed.mapIdx fun i n => n - h.credit.getD i 0 } }

/-- R401, R415: an acknowledgement or a nak leaves in a frame of its own, or with the next frame that can leave. -/
def State.ackFrame (kind : Nat) (s : State) : State :=
  let s := State.sign 0x70 (if kind == 2 then 0x100000 else 0) 0x100000 none { s with span := { s.span with ctl := kind } }
  if s.span.st == .active && !s.asleep && s.span.replay.length < 128 then s.sendFrame none else s

/-- R299: the turn of a record that waits: that of its group for relayed requests, holder records and replica fills; regulation
never holds an answer, a snoop, a `COMP_ACK`, a `PROV_VOID`, what the link itself sends, or what it has sent once before. -/
def State.spanTurn (s : State) (w : SpanWait) : Nat × Nat × Nat :=
  match w.item, w.grp with
  | .req .., some g | .hrec .., some g | .fill .., some g => s.turnOf 3 (some g)
  | _, _ => (0, 0, 1)

/-- R299, R408: a record must stay behind another of its channel that waits: relayed requests cross in the order in which they were
accepted, and any other passes only what its turn goes before. -/
def State.spanBehind (s : State) (r w : SpanWait) : Bool :=
  w.item.chan == r.item.chan && (r.item.chan ≤ 1 || !goesBefore (s.spanTurn r) (s.spanTurn w))

/-- A record leaves in a frame (R405, R431). -/
def State.spanOut (r : SpanRec) (s : State) : State :=
  let s := (s.countN Ev.spanSlotTx none r.slots).act 14 r.slots
  State.sendFrame (some r) { s with span := { s.span with credits := s.span.credits.modify r.chan (· - r.slots) } }

/-- Put a record on the span, or keep it until the link, its credits and its turn allow it (R299, R403, R405, R408, R415). -/
def State.spanPut (w : SpanWait) (s : State) : State :=
  if s.spanReady w.item && !s.span.waitTx.any (s.spanBehind w) then s.spanOut w.item
  else { s with span := { s.span with waitTx := s.span.waitTx ++ [w] } }

/-- Send a record on the span, metered for the group whose work it is (R290). -/
def State.spanSend (r : SpanRec) (s : State) : State := (s.use 3 (32 * r.slots)).spanPut { item := r, grp := s.reg.cur }

/-- R299: the waiting record that leaves next. -/
def State.spanNext (s : State) : Option (SpanWait × Nat) :=
  firstTurn (fun x => s.spanTurn x.1) ((s.span.waitTx.zipIdx).filter fun (r, i) =>
    s.spanReady r.item && !((s.span.waitTx.take i).any (s.spanBehind r)) &&
      !((s.span.waitTx.drop (i + 1)).any fun w => w.item.chan == r.item.chan && !s.spanBehind w r))

/-- The waiting records leave as far as the link and the credits allow. -/
def State.spanDrain : Nat → State → State
  | 0, s => s
  | n + 1, s =>
    match s.spanNext with
    | some (r, i) =>
      State.spanDrain n (State.spanOut r.item { s with span := { s.span with waitTx := s.span.waitTx.eraseIdx i } })
    | none => s

/-- Try the records that wait, in the order of R299. -/
def State.spanFlush (s : State) : State := s.spanDrain s.span.waitTx.length

/-! ### Memory ports (R31, R32) -/

/-- The lowest tag not outstanding on a port (log entry 12). -/
def State.freeTag (s : State) (port : Nat) : Nat :=
  ((List.range 4096).find? (fun t => !s.memOut.any (fun r => r.port == port && r.mtag == t))).getD 0

/-- The port has the credits and a free tag for the request now (R32). -/
def State.memReady (r : MemReq) (s : State) : Bool :=
  let c := s.mem.getD r.port {}
  0 < c.req && (r.data.isNone || 0 < c.wdata) && (s.memOut.filter (·.port == r.port)).length < 4096

/-- Mark the write-back buffer's sector as issued (R131). -/
def WbEnt.markIssued (sector : Nat) (e : WbEnt) : WbEnt :=
  if sector == 0 then { e with lo := e.lo.map ({ · with issued := true }) }
  else { e with hi := e.hi.map ({ · with issued := true }) }

/-- A request must stay behind one that waits on its port: it is of the same group, or of the same line (R299). -/
def MemReq.behind (r w : MemReq) : Bool := w.port == r.port && (w.grp == r.grp || addrLine w.addr == addrLine r.addr)

/-- R445: a sector of the write-back buffer is poisoned. -/
def WbEnt.poisonSec (i : Nat) (e : WbEnt) : WbEnt :=
  if i == 0 then { e with lo := e.lo.map ({ · with poison := true }) } else { e with hi := e.hi.map ({ · with poison := true }) }

/-- R445: the data of a write are read from their buffer or staging: the request as it leaves. A copy that the write-back buffer
keeps until the acknowledgement is poisoned with it. -/
def State.readStaged (r : MemReq) (s : State) : MemReq × State :=
  match r.data, s.bad.find? (Damage.isBuf (addrLine r.addr) (bits r.addr 6 6)) with
  | some (x, p), some d =>
    let s := s.bufFault d r.part
    ({ r with data := some (x, p || d.double) },
     match d.double, r.use with
     | true, .wback line i => { s with wbb := s.wbb.map fun e => if e.line == line then e.poisonSec i else e }
     | _, _ => s)
  | _, _ => (r, s)

/-- A memory request leaves, its data flit with it (R32), metered for its group (R290). -/
def State.memOutput (r : MemReq) (s : State) : State :=
  let (r, s) := s.readStaged r
  let s := s.useOf r.grp 2 (if r.mopc == 1 then 64 else 32)
  let tag := s.freeTag r.port
  let r := { r with mtag := tag, left := if r.mopc == 1 then 2 else 1 }
  let s := { s with
    mem := s.mem.modify r.port fun c => { c with req := c.req - 1, wdata := c.wdata - b2n r.data.isSome },
    memOut := s.memOut ++ [r],
    acts := s.acts.modify 13 (· + b2n r.data.isSome),
    sig := ⟨0x10 + r.port, 1 + 2 * b2n r.data.isSome, 1 + 2 * b2n r.data.isSome, some r.part⟩ :: s.sig,
    out := s.out ++ [.mem r.port r.mopc r.addr tag r.size r.part r.spec] ++
      (match r.data with
       | some (d, p) => [.memData r.port tag (bits r.addr 6 6) d p true]
       | none => []) }
  match r.use with
  | .wback line sector =>
    { s with wbb := s.wbb.map fun e => if e.line == line then e.markIssued sector else e }
  | _ => s

/-- Issue a memory request, or let it wait for a credit. -/
def State.memPut (r : MemReq) (s : State) : State :=
  if s.memReady r && !(s.memWait.any (fun w => r.behind w)) then s.memOutput r
  else { s with memWait := s.memWait ++ [r] }

/-- Issue a memory request for the group whose work it is. -/
def State.memSend (r : MemReq) (s : State) : State := s.memPut { r with grp := s.reg.cur, agent := s.reg.curAgent }

/-- R299: the waiting request that leaves next. -/
def State.memNext (s : State) : Option (MemReq × Nat) :=
  firstTurn (fun x => s.turnOf 2 x.1.grp) ((s.memWait.zipIdx).filter fun (r, i) =>
    s.memReady r && !(s.memWait.take i).any fun w => r.behind w)

/-- The waiting requests leave as far as the credits allow. -/
def State.memDrain : Nat → State → State
  | 0, s => s
  | n + 1, s =>
    match s.memNext with
    | some (r, i) => State.memDrain n (State.memOutput r { s with memWait := s.memWait.eraseIdx i })
    | none => s

/-- Try the memory requests that wait, in the order of R299. -/
def State.memFlush (s : State) : State := s.memDrain s.memWait.length

/-- An uncached 64 B read (R311, R355). -/
def State.readUc (addr part : Nat) (use : MemUse) (s : State) : State :=
  s.memSend { port := s.memPort addr, mopc := 2, addr := addr / 64 * 64, size := 6, part := part, use := use }

/-- An uncached write of `size` (R15 code) at `addr`; the bytes lie at their offsets in the sector (R31). -/
def State.writeUc (addr size part : Nat) (d : Sector) (poison : Bool) (use : MemUse) (s : State) : State :=
  s.memSend { port := s.memPort addr, mopc := 4, addr := addr, size := size, part := part, use := use,
              data := some (d, poison) }

/-! ### Completions -/

/-- The status and grant of a completion: a `RSP` flit, or an `RSP` record for a request that came over `SPAN`
(R158, R159, R407). -/
def State.respond (port txid : Nat) (tag : Option Nat) (st : Status) (grant : Nat := 0) (isOpen : Bool := false)
    (s : State) : State :=
  let p := (s.resvOf port txid tag).map (·.part)
  let s := if isOpen then s else (s.answered port txid tag (st == .timeout)).refund port txid tag
  match tag with
  | none => s.emitOf p (.rsp port txid st grant isOpen (grant != 0))
  | some t => s.spanSend (.rsp t st.code grant isOpen [] false)

/-- Data flits of a transaction on its port, the last one marked (R26), metered for the group whose work it is (R290). -/
def State.sendDat (port txid : Nat) (partialAttr : Bool) (fl : List (Nat × Sector × Bool)) (s : State) : State :=
  (fl.zipIdx).foldl (fun t ((sec, d, p), i) => t.emit (.dat port txid sec d p partialAttr (i + 1 == fl.length)))
    (s.use 1 (32 * fl.length))

/-- A completion with its data flits, in order, the last one marked (R26). -/
def State.respondData (port txid : Nat) (tag : Option Nat) (st : Status) (grant : Nat) (isOpen part : Bool)
    (fl : List (Nat × Sector × Bool)) (s : State) : State :=
  let p := (s.resvOf port txid tag).map (·.part)
  let done (s : State) : State := if isOpen then s else s.refund port txid tag
  let s := s.answered port txid tag true
  match tag with
  | some t => (done s).spanSend (.rsp t st.code grant isOpen
      (fl.map fun (sec, d, p) => { sector := sec, data := d, poison := p }) part)
  | none => (done (s.sendDat port txid part fl)).emitOf p (.rsp port txid st grant isOpen (grant != 0))

/-! ### Mailboxes (R373, R374) -/

/-- Index of a mailbox: window `p` at `p`, management at 16. -/
def mbIdx : Option Nat → Nat
  | some p => p
  | none => 16

/-- Complete the command of a mailbox with a status and results (R374 step 3). -/
def State.mbDone (w : Option Nat) (st : Status) (res : List Word) (s : State) : State :=
  let s := s.measure 11 w
  { s with mbs := s.mbs.modify (mbIdx w) fun m =>
      { m with st := 2, isErr := false, code := st.code, res := (res ++ List.replicate 4 0).take 4 } }

/-- Refuse the command of a mailbox with an error code (R374 step 2). -/
def State.mbRefuse (w : Option Nat) (e : Err) (s : State) : State :=
  { s with mbs := s.mbs.modify (mbIdx w) fun m => { m with st := 2, isErr := true, code := e.code } }

/-! ### Measurement (R474) -/

/-- One change of the measurement block: `MEAS_GEN` advances. -/
def State.measBump (s : State) : State := { s with meas := { s.meas with gen := (s.meas.gen + 1) % 65536 } }

/-! ### Recovery (R459) -/

/-- The requests that wait for a collect of the window: the one that runs and those behind it. -/
def Window.collects (w : Window) : List (Nat × Nat × Option Nat) :=
  (match w.col with | some c => c.req.toList | none => []) ++
  w.after.flatMap fun o => match o with
    | .collect c => c.req.toList
    | _ => []

/-- R459: a flit that waited for a credit when `FATAL` rose: a completion turns into `ABORTED`, the one of a provisional read comes
from its entry, and neither data nor a snoop or a `PROV_VOID` leaves any more. -/
def Out.recovered : Out → Option Out
  | .rsp p t _ _ isOpen _ => if isOpen then none else some (.rsp p t .aborted 0 false false)
  | .dat .. | .snp .. => none
  | o => some o

/-- R459: see `Out.recovered`. -/
def HeldOut.recovered (h : HeldOut) : Option HeldOut := h.flit.recovered.map fun f => { h with flit := f }

/-- R459: a record that waited for the span when `FATAL` rose: the slice relays and snoops nothing, and completions turn into
`ABORTED`. -/
def SpanWait.recovered (w : SpanWait) : Option SpanWait :=
  match w.item with
  | .req .. | .snp .. | .hrec .. | .fill .. | .ver .. => none
  | .rsp tag _ _ isOpen _ _ => if isOpen then none else some { w with item := .rsp tag Status.aborted.code 0 false [] false }
  | _ => some w

/-- Complete with `ABORTED` every request whose `RSP` was not sent before `FATAL` rose. -/
def State.abortAll (s : State) : State :=
  let s := { s with heldOut := s.heldOut.filterMap HeldOut.recovered,
                    span := { s.span with waitTx := s.span.waitTx.filterMap SpanWait.recovered } }
  let parked := s.waiting.filterMap (·.rtag)
  let s := s.waiting.foldl (fun t w => t.respond w.q.port w.q.txid w.tag .aborted) s
  let s := s.hand.hold.foldl (fun t w => t.respond w.q.port w.q.txid w.tag .aborted) s
  let s := s.txns.foldl (fun t x =>
    let t := x.snoops.foldl (fun t k =>
      match k.notice with
      | some n => t.respond n.port n.txid n.tag .aborted
      | none => t) t
    match x.kind with
    | .req _ q tag => if x.served || x.timedOut || x.prov then t else t.respond q.port q.txid tag .aborted
    | _ => t) s
  let s := s.prov.foldl (fun t e => t.respond e.port e.txid e.tag .aborted) s
  let s := s.span.relays.foldl (fun t r =>
    if r.timedOut || r.ackWait || parked.contains r.tag then t else t.respond r.port r.txid none .aborted) s
  let s := s.folds.foldl (fun t f => if f.timedOut then t else t.respond f.port f.txid f.tag .aborted) s
  let s := s.wins.foldl (fun t w => (w.collects).foldl (fun t (p, i, g) => t.respond p i g .aborted) t) s
  let s := s.cue.beats.foldl (fun t b =>
    match b.src with
    | some (p, i, g) => t.respond p i g .aborted
    | none => t) s
  { s with waiting := [], txns := [], prov := [], folds := [], hand := { s.hand with hold := [] },
           wins := s.wins.map fun (w : Window) => { w with col := none, after := [] },
           cue := { s.cue with beats := [] },
           span := { s.span with relays := [], fwd := [], holders := [] } }

/-- R459 on a load in progress: it ends with no outcome, and the pending configuration digest is dropped (R474). -/
def State.dropLoad (s : State) : State :=
  if s.presc.phase == .idle then s
  else
    State.measBump { s with
      presc := { s.presc with phase := .idle, valid := false, sectors := [], pendDigest := none, todo := none },
      meas := { s.meas with trans := s.res.active } }

/-- `FATAL` rises: from any state but `OFF` the slice enters `RECOVERY`, and whatever was to lead elsewhere is given up (R420,
R421, R441, R459). -/
def State.fatal (s : State) : State :=
  if s.power.state == .off || s.power.state == .recovery then { s with elog := { s.elog with fatal := true } }
  else
    let s := { s with elog := { s.elog with fatal := true },
                      power := { s.power with state := .recovery, cfgDrain := false, sleepPh := .none } }
    s.abortAll.dropLoad

/-- Write a record of any class; a fatal one raises `FATAL` (R383, R441). -/
def State.report (r : LogIn) (s : State) : State :=
  if srcClass r.source == 3 then (s.log r).fatal else s.log r

/-- A record that carries a syndrome, which is a fresh free value each time (log entry 22). -/
def State.reportFree (mk : Nat → LogIn) (s : State) : State :=
  State.report (mk (Config.syndrome s.fresh).toNat) { s with fresh := s.fresh + 1 }

/-- R448: an entry of a transaction in progress is read and its parity is wrong. `kind` is the entry kind of R384; the number
is that of the entry, which the model gives a free value where it does not number its entries (log entry 22). -/
def State.badEntry (d : Damage) (kind : Nat) (num : Option Nat) (s : State) : State :=
  State.reportFree (fun n => { source := 0x01A, detail := kind + 16 * (num.getD n % 4096) }) { s with bad := s.bad.erase d }

/-- R448: a read of an entry checks its parity. -/
def State.entryRead (d : Damage) (kind num : Nat) (s : State) : State :=
  if s.bad.contains d then s.badEntry d kind (some num) else s

/-- R19, R29: what the check bits of a flit show. `none` when the flit is discarded and `FATAL` is asserted. -/
def State.flitCheck (flips port chan : Nat) (s : State) : Bool × State :=
  if flips == 0 then (true, s)
  else if flips == 1 then
    (true, (s.reportFree fun n => { source := 0x002, port := port, chan := chan, detail := n }).count Ev.flitSbe none)
  else (false, s.reportFree fun n => { source := 0x003, port := port, chan := chan, detail := n })

/-! ### Faults of storage that wait for an access (R491) -/

/-- The faults that an access meets: the armed injection, and the upsets that nothing has found yet. -/
def State.faults (p : Inject → Bool) (s : State) : List Inject := s.test.inject.toList.filter p ++ s.upsets.filter p

/-- The first of them. -/
def State.fault (p : Inject → Bool) (s : State) : Option Inject := (s.faults p).head?

/-- The fault has been met; an injection has fired (R491). -/
def State.metFault (j : Inject) (s : State) : State :=
  if s.test.inject == some j then { s with test := { s.test with inject := none, fired := true } }
  else { s with upsets := s.upsets.erase j }

/-- All of them have been met. -/
def State.metAll (l : List Inject) (s : State) : State := l.foldl (fun t j => t.metFault j) s

/-! ### Configuration words (R447) -/

/-- The storage region that a record of R443 names. DESIGN CHOICE (log entry 143): the spec numbers no region; the model counts them in
the order of `CfgWord`. -/
def CfgWord.region : CfgWord → Nat
  | .lens _ => 0 | .map _ => 1 | .route _ => 2 | .part _ => 3 | .tint => 4 | .reg => 5 | .chan _ => 6 | .slot _ => 7 | .header _ => 8

/-- The damage is of this configuration word. -/
def Damage.isCfg (w : CfgWord) : Damage → Bool
  | .cfg x _ => x == w
  | _ => false

/-- R443, R447: the code of a configuration word shows an error: one wrong bit is corrected, two assert `FATAL`. -/
def State.cfgError (region : Nat) (double : Bool) (s : State) : State :=
  if double then s.report { source := 0x019, port := 15, detail := region % 256 }
  else s.reportFree fun x => { source := 0x018, port := 15, detail := region % 256 + x * 256 }

/-- R447: a functional read of a configuration word corrects its errors. An armed injection of kind 7 is met by the first read of any
word (R491). -/
def State.cfgRead (w : CfgWord) (s : State) : State :=
  let s := match s.faults (·.kind == 7) with
    | j :: _ => (s.metFault j).cfgError w.region false
    | [] => s
  match s.bad.find? (Damage.isCfg w) with
  | some d => State.cfgError w.region d.double { s with bad := s.bad.erase d }
  | none => s

/-! ### Indexed updates -/

/-- Update window `w`. -/
def State.setWin (w : Nat) (f : Window → Window) (s : State) : State := { s with wins := s.wins.modify w f }

/-- Read window `w`. -/
def State.win (s : State) (w : Nat) : Window := s.wins.getD w {}

/-- Update lens slot `i`. -/
def State.setLens (i : Nat) (f : LensSlot → LensSlot) (s : State) : State :=
  { s with lens := { s.lens with slots := s.lens.slots.modify i f } }

/-- Read lens slot `i`. -/
def State.lensSlot (s : State) (i : Nat) : LensSlot := s.lens.slots.getD i {}

/-- Set bits of a partition window's `PW_STATUS`. -/
def State.pwStatus (p : Nat) (b : BitVec 4) (s : State) : State :=
  { s with pws := s.pws.modify p fun w => { w with status := w.status ||| b } }

/-- Set bits of `STATUS` (R370): 1 `FQ_PEND`, 2 `HOT_PEND`, 4 `GUARANTEE_SCALED`, 8 `CUE_STALL`. -/
def State.setStatus (b : BitVec 4) (s : State) : State :=
  { s with regs := { s.regs with status := s.regs.status ||| b } }

/-- Update the transaction with identity `id`. -/
def State.setTxn (id : Nat) (f : Txn → Txn) (s : State) : State :=
  { s with txns := s.txns.map fun t => if t.id == id then f t else t }

/-- Remove a transaction. -/
def State.dropTxn (id : Nat) (s : State) : State := { s with txns := s.txns.filter (·.id != id) }

/-- Read cue slot `i`. -/
def State.slot (s : State) (i : Nat) : ActSlot := s.cue.slots.getD i {}

/-- Update cue slot `i`. -/
def State.setSlot (i : Nat) (f : ActSlot → ActSlot) (s : State) : State :=
  { s with cue := { s.cue with slots := s.cue.slots.modify i f } }

/-- The outcome a running action will record when it completes (R277, R280); it is not seen before. -/
def State.slotReady (i : Nat) (code : Nat) (isErr : Bool) (mark : Nat) (s : State) : State :=
  s.setSlot i fun a =>
    if a.st == .running then
      { a with out := some { code := code, isErr := isErr, tag := bits (a.words.getD 0 0).toNat 39 24, fire := a.fire,
                             stalled := a.stalled, mark := mark } }
    else a

/-- Give a status to whoever waits for an operation of the slice: a mailbox, or the slot of a running action. -/
def State.srcDone (src : SwapSrc) (st : Status) (res : List Word) (mark : Nat) (s : State) : State :=
  match src with
  | .mailbox w => s.mbDone w st res
  | .action i => s.slotReady i st.code false mark

/-- Give an error code to whoever waits for an operation of the slice. -/
def State.srcRefuse (src : SwapSrc) (e : Err) (s : State) : State :=
  match src with
  | .mailbox w => s.mbRefuse w e
  | .action i => s.slotReady i e.code true 0

end Sys2Proof.Machine
end

