-- ==== Sys2Proof/Machine/Debug.lean ====
section
/-! DEFINITION. The debug observation port and the counters that watch it (R52, R54, R469, R476, R484, R485). -/

namespace Sys2Proof.Machine

open Sys2Proof

/-- Channel of a slot record (R349). -/
def ActSlot.chan (a : ActSlot) : Nat := bits (a.words.getD 0 0).toNat 12 9

/-- A directory eviction. -/
def TxnKind.isEvict : TxnKind → Bool
  | .evict _ => true
  | _ => false

/-- R281: the channel is `LAGGING`. -/
def State.lagging (s : State) (c : Nat) : Bool :=
  let x := s.cue.chans.getD c {}
  x.cfg.en && x.cfg.lagLimit != 0 && x.cfg.lagLimit < x.since && s.cue.slots.any fun a => a.st == .armed && a.chan == c

/-- The entries that a group shows: all of them, or those of its partition. -/
def shows (p : Option Nat) (part : Nat) : Bool := p.isNone || p == some part

/-- R485: a group bound to a partition shows nothing of another one, or of none. -/
def showsOf (p part : Option Nat) : Bool := p.isNone || part == p

/-- R485: the sources that a bound group can show. -/
def bindable (src : Nat) : Bool := (1 ≤ src && src ≤ 0x21) || src == 0x30

/-- R484: the signals of the last step that a source shows; of a field that several of them name, the last stands. DESIGN CHOICE (log
entry 20): a command stands for one FCLK, so that all it does shows together. -/
def State.sigBits (src : Nat) (p : Option Nat) (s : State) : BitVec 32 :=
  (s.sig.filter fun x => x.src == src && showsOf p x.part).foldr (fun x r =>
    (r &&& ~~~(BitVec.ofNat 32 x.mask)) ||| BitVec.ofNat 32 (x.val &&& x.mask)) 0

/-- R484: a fabric port's channels that stall for want of credit. An incoming one counts as stalled while its sender has no credit left
(log entry 20); it is nobody's in particular. -/
def State.fabStalls (port : Nat) (p : Option Nat) (s : State) : Nat :=
  let c := s.fab.getD port {}
  let out (ch : Nat) : Nat :=
    b2n (s.oCredit (port, ch) == 0 && s.heldOut.any fun h => h.flit.chan == some (port, ch) && showsOf p h.part)
  let into (n : Nat) : Nat := b2n (p.isNone && n == 0)
  into (s.reqCredits port) * 2 ^ 6 + into (c.dat - c.keptDat) * 2 ^ 7 + out 1 * 2 ^ 8 + out 0 * 2 ^ 9 + out 2 * 2 ^ 10 + into c.snr * 2 ^ 11

/-- R484: the same of a memory port. -/
def State.memStalls (port : Nat) (p : Option Nat) (s : State) : Nat :=
  let c := s.mem.getD port {}
  let waits (f : MemReq → Bool) : Bool := s.memWait.any fun r => r.port == port && f r && shows p r.part
  b2n (c.req == 0 && waits fun _ => true) * 2 ^ 3 + b2n (c.wdata == 0 && waits (·.data.isSome)) * 2 ^ 4 +
  b2n (p.isNone && c.rdata == 0) * 2 ^ 5

/-- R484, R485: the signals of a source that the state itself shows. -/
def State.dbgState (src : Nat) (p : Option Nat) (s : State) : Nat :=
  let lines (f : Txn → Bool) : Nat := (s.txns.filter fun t => f t && shows p t.part).length
  if 1 ≤ src && src ≤ 8 then s.fabStalls (src - 1) p
  else if 0x10 ≤ src && src ≤ 0x13 then s.memStalls (src - 0x10) p
  else match src with
  | 0x21 => (s.mrs.filter fun m => shows p m.part).length % 2 ^ 10 +
      lines (fun t => (t.busy || t.trk) && !t.kind.isEvict) % 2 ^ 10 * 2 ^ 10 + lines (fun t => t.kind.isEvict) % 32 * 2 ^ 20 +
      (s.wbb.filter fun e => shows p e.part).length % 128 * 2 ^ 25
  | 0x40 => ((List.range 16).map fun c => b2n (s.lagging c) * 2 ^ (16 + c)).sum
  | 0x51 => ((List.range 16).map fun i => s.reg.urgLvl.getD i 0 * 4 ^ i).sum
  | 0x60 => s.power.duty + s.power.op * 2 ^ 4 + b2n s.power.relock * 2 ^ 7
  | 0x70 => (~~~s.span.rxFailed).toNat + (if s.span.st == .active then widthCode s.span.width else 0) * 2 ^ 18 +
      b2n (s.span.st == .retrain) * 2 ^ 22 + b2n (s.span.st == .down) * 2 ^ 23
  | _ => 0

/-- R484, R485: the signals of a source, all of them or those of a partition. -/
def State.dbgSource (src : Nat) (p : Option Nat) (s : State) : BitVec 32 :=
  if src == 0 || (p.isSome && !bindable src) then 0 else s.sigBits src p ||| BitVec.ofNat 32 (s.dbgState src p)

/-- R469, R484, R485: the signals of a debug group; a bound one is forced to 0 while its partition is under resilver. -/
def State.dbgGroup (i : Nat) (s : State) : BitVec 32 :=
  let g := s.cfg.dbg.getD i {}
  if g.bound then
    (if s.res.active && s.res.part == g.part then 0 else s.dbgSource g.source (some g.part))
  else s.dbgSource g.source none

/-- R52, R54, R469: what `DBG_OUT` drives. -/
def State.dbgOut (s : State) : BitVec 32 :=
  if s.power.rstLow then 0 else s.dbgGroup s.power.dbgSel

/-! ### Counters in the debug modes (R476) -/

/-- R476: the bit that counter `i` in a debug mode watches. -/
def State.ctrSees (s : State) (i : Nat) : Bool :=
  let c := s.cfg.ctrs.getD i {}
  (s.dbgGroup (bits c.event 9 7)).getLsbD (bits c.event 4 0)

/-- R476: the states in which the debug modes count. -/
def State.debugRuns (s : State) : Bool := s.fclkRuns && (s.power.state == .test || s.power.state == .recovery)

/-- R449, R476: a counter in edge mode sees an edge. -/
def State.edge (i : Nat) (s : State) : State :=
  let t := s.ctrParity i
  { t with ctr := t.ctr.modify i (· + 1) }

/-- R476: the counters in edge mode, at the end of a step: one whose bit is 1 and was 0 after the step before gains 1. -/
def State.edges (s : State) : State :=
  let on (i : Nat) : Bool := (s.cfg.ctrs.getD i {}).mode == 2
  if !s.debugRuns || !s.cfg.ctrs.any (·.mode == 2) then s
  else
    let seen := (List.range 48).filter fun i => on i && s.ctrSees i
    let t := (seen.filter fun i => !s.ctrBit.getLsbD i).foldl (fun t i => t.edge i) s
    { t with ctrBit := BitVec.ofNat 48 (seen.map fun i => 2 ^ i).sum }

end Sys2Proof.Machine
end

