-- ==== Sys2Proof/Machine/Hash.lean ====
section
/-! DEFINITION. The checks over bytes that the spec names: SHA-384 (FIPS 180-4, R337), HMAC-SHA-384 (R398), CRC-32C
(R337) and CRC-16 (R395). -/

namespace Sys2Proof.Machine

open Sys2Proof

/-- Bytes of a number, the low one first. -/
def leBytes (n len : Nat) : List (BitVec 8) := (List.range len).map fun i => BitVec.ofNat 8 (n >>> (8 * i))

/-- The number whose bytes are these, the low one first. -/
def ofLe (l : List (BitVec 8)) : Nat := l.foldr (fun b n => n * 256 + b.toNat) 0

/-- The number whose bytes are these, the high one first. -/
def ofBe (l : List (BitVec 8)) : Nat := l.foldl (fun n b => n * 256 + b.toNat) 0

/-- Bytes of a number, the high one first. -/
def beBytes (n len : Nat) : List (BitVec 8) := (leBytes n len).reverse

/-- Constants 0 to 9 of FIPS 180-4, 4.2.3. -/
def shaK0 : List Word := [0x428a2f98d728ae22, 0x7137449123ef65cd, 0xb5c0fbcfec4d3b2f, 0xe9b5dba58189dbbc, 0x3956c25bf348b538,
  0x59f111f1b605d019, 0x923f82a4af194f9b, 0xab1c5ed5da6d8118, 0xd807aa98a3030242, 0x12835b0145706fbe]
/-- Constants 10 to 19 of FIPS 180-4, 4.2.3. -/
def shaK1 : List Word := [0x243185be4ee4b28c, 0x550c7dc3d5ffb4e2, 0x72be5d74f27b896f, 0x80deb1fe3b1696b1, 0x9bdc06a725c71235,
  0xc19bf174cf692694, 0xe49b69c19ef14ad2, 0xefbe4786384f25e3, 0x0fc19dc68b8cd5b5, 0x240ca1cc77ac9c65]
/-- Constants 20 to 29 of FIPS 180-4, 4.2.3. -/
def shaK2 : List Word := [0x2de92c6f592b0275, 0x4a7484aa6ea6e483, 0x5cb0a9dcbd41fbd4, 0x76f988da831153b5, 0x983e5152ee66dfab,
  0xa831c66d2db43210, 0xb00327c898fb213f, 0xbf597fc7beef0ee4, 0xc6e00bf33da88fc2, 0xd5a79147930aa725]
/-- Constants 30 to 39 of FIPS 180-4, 4.2.3. -/
def shaK3 : List Word := [0x06ca6351e003826f, 0x142929670a0e6e70, 0x27b70a8546d22ffc, 0x2e1b21385c26c926, 0x4d2c6dfc5ac42aed,
  0x53380d139d95b3df, 0x650a73548baf63de, 0x766a0abb3c77b2a8, 0x81c2c92e47edaee6, 0x92722c851482353b]
/-- Constants 40 to 49 of FIPS 180-4, 4.2.3. -/
def shaK4 : List Word := [0xa2bfe8a14cf10364, 0xa81a664bbc423001, 0xc24b8b70d0f89791, 0xc76c51a30654be30, 0xd192e819d6ef5218,
  0xd69906245565a910, 0xf40e35855771202a, 0x106aa07032bbd1b8, 0x19a4c116b8d2d0c8, 0x1e376c085141ab53]
/-- Constants 50 to 59 of FIPS 180-4, 4.2.3. -/
def shaK5 : List Word := [0x2748774cdf8eeb99, 0x34b0bcb5e19b48a8, 0x391c0cb3c5c95a63, 0x4ed8aa4ae3418acb, 0x5b9cca4f7763e373,
  0x682e6ff3d6b2b8a3, 0x748f82ee5defb2fc, 0x78a5636f43172f60, 0x84c87814a1f0ab72, 0x8cc702081a6439ec]
/-- Constants 60 to 69 of FIPS 180-4, 4.2.3. -/
def shaK6 : List Word := [0x90befffa23631e28, 0xa4506cebde82bde9, 0xbef9a3f7b2c67915, 0xc67178f2e372532b, 0xca273eceea26619c,
  0xd186b8c721c0c207, 0xeada7dd6cde0eb1e, 0xf57d4f7fee6ed178, 0x06f067aa72176fba, 0x0a637dc5a2c898a6]
/-- Constants 70 to 79 of FIPS 180-4, 4.2.3. -/
def shaK7 : List Word := [0x113f9804bef90dae, 0x1b710b35131c471b, 0x28db77f523047d84, 0x32caab7b40c72493, 0x3c9ebe0a15c9bebc,
  0x431d67c49c100d4c, 0x4cc5d4becb3e42b6, 0x597f299cfc657e2a, 0x5fcb6fab3ad6faec, 0x6c44198c4a475817]

/-- The eighty constants of SHA-384. -/
def shaK : List Word := shaK0 ++ shaK1 ++ shaK2 ++ shaK3 ++ shaK4 ++ shaK5 ++ shaK6 ++ shaK7

/-- The initial hash value of SHA-384 (FIPS 180-4, 5.3.4). -/
def shaInit : List Word := [0xcbbb9d5dc1059ed8, 0x629a292a367cd507, 0x9159015a3070dd17, 0x152fecd8f70e5939,
  0x67332667ffc00b31, 0x8eb44a8768581511, 0xdb0c2e0d64f98fa7, 0x47b5481dbefa4fa4]

/-- The message schedule: sixteen words of a block extended to eighty. `w` holds the latest first. -/
def shaExtend : Nat → List Word → List Word
  | 0, w => w
  | n + 1, w =>
    let a := w.getD 1 0
    let b := w.getD 6 0
    let c := w.getD 14 0
    let d := w.getD 15 0
    let s1 := a.rotateRight 19 ^^^ a.rotateRight 61 ^^^ (a >>> 6)
    let s0 := c.rotateRight 1 ^^^ c.rotateRight 8 ^^^ (c >>> 7)
    shaExtend n ((s1 + b + s0 + d) :: w)

/-- The eight working variables of SHA-384. -/
structure ShaVars where
  a : Word
  b : Word
  c : Word
  d : Word
  e : Word
  f : Word
  g : Word
  h : Word

/-- One round (FIPS 180-4, 6.4.2). -/
def shaRound (v : ShaVars) (kw : Word × Word) : ShaVars :=
  let s1 := v.e.rotateRight 14 ^^^ v.e.rotateRight 18 ^^^ v.e.rotateRight 41
  let ch := (v.e &&& v.f) ^^^ (~~~v.e &&& v.g)
  let t1 := v.h + s1 + ch + kw.1 + kw.2
  let s0 := v.a.rotateRight 28 ^^^ v.a.rotateRight 34 ^^^ v.a.rotateRight 39
  let mj := (v.a &&& v.b) ^^^ (v.a &&& v.c) ^^^ (v.b &&& v.c)
  { a := t1 + (s0 + mj), b := v.a, c := v.b, d := v.c, e := v.d + t1, f := v.e, g := v.f, h := v.g }

/-- The words of a block of 128 bytes. -/
def beWords (l : List (BitVec 8)) : List Word :=
  (List.range (l.length / 8)).map fun i => BitVec.ofNat 64 (ofBe ((l.drop (8 * i)).take 8))

/-- The hash value after one block. -/
def shaBlock (h : List Word) (blk : List (BitVec 8)) : List Word :=
  let w := (shaExtend 64 (beWords blk).reverse).reverse
  let v : ShaVars := { a := h.getD 0 0, b := h.getD 1 0, c := h.getD 2 0, d := h.getD 3 0, e := h.getD 4 0,
                       f := h.getD 5 0, g := h.getD 6 0, h := h.getD 7 0 }
  let r := (shaK.zip w).foldl shaRound v
  h.zipWith (· + ·) [r.a, r.b, r.c, r.d, r.e, r.f, r.g, r.h]

/-- The padded message (FIPS 180-4, 5.1.2). -/
def shaPad (m : List (BitVec 8)) : List (BitVec 8) :=
  m ++ [0x80] ++ List.replicate ((239 - m.length % 128) % 128) 0 ++ beBytes (8 * m.length) 16

/-- SHA-384 of a byte string, the 48 bytes in the order of FIPS 180-4. -/
def sha384 (m : List (BitVec 8)) : List (BitVec 8) :=
  let p := shaPad m
  let h := (List.range (p.length / 128)).foldl (fun h i => shaBlock h ((p.drop (128 * i)).take 128)) shaInit
  (h.take 6).flatMap fun w => beBytes w.toNat 8

/-- HMAC-SHA-384 (R398), with the 128 B block of SHA-384. -/
def hmac384 (key m : List (BitVec 8)) : List (BitVec 8) :=
  let k := if key.length ≤ 128 then key else sha384 key
  let k := k ++ List.replicate (128 - k.length) 0
  sha384 (k.map (· ^^^ 0x5C) ++ sha384 (k.map (· ^^^ 0x36) ++ m))

/-- One bit of the reflected CRC-32C. -/
def crc32cBit (c : BitVec 32) : BitVec 32 := if c.getLsbD 0 then (c >>> 1) ^^^ 0x82F63B78 else c >>> 1

/-- CRC-32C (R337): polynomial `0x1EDC_6F41` reflected, initial value and final exclusive-or all ones. -/
def crc32c (m : List (BitVec 8)) : BitVec 32 :=
  ~~~ m.foldl (fun c b => (List.range 8).foldl (fun c _ => crc32cBit c) (c ^^^ b.setWidth 32)) 0xFFFFFFFF

/-- One bit of the CRC-16 of R395. -/
def crc16Bit (c : BitVec 16) : BitVec 16 := if c.getLsbD 15 then (c <<< 1) ^^^ 0x1021 else c <<< 1

/-- CRC-16 (R395): polynomial `0x1021`, initial value `0xFFFF`. -/
def crc16 (m : List (BitVec 8)) : BitVec 16 :=
  m.foldl (fun c b => (List.range 8).foldl (fun c _ => crc16Bit c) (c ^^^ ((b.setWidth 16).shiftLeft 8))) 0xFFFF

/-- The 64 bytes of a sector, byte 0 first. -/
def sectorBytes (d : Sector) : List (BitVec 8) := leBytes d.toNat 64

end Sys2Proof.Machine
end

