-- ==== Sys2Proof/Machine/Lens.lean ====
section
/-! DEFINITION. Lenses: descriptors, the match, counts, slot states, swaps, succession and persistence changes
(R94 to R126). -/

namespace Sys2Proof.Machine

open Sys2Proof

/-- The window of a descriptor holds the address (R94). -/
def Desc.holds (d : Desc) (addr : Nat) : Bool :=
  d.base * 2 ^ 21 ≤ addr && addr < (d.base + d.size) * 2 ^ 21

/-- The windows of two descriptors overlap. -/
def Desc.overlaps (d e : Desc) : Bool := d.base < e.base + e.size && e.base < d.base + d.size

/-- Word 0 of R344. -/
def Desc.word0 (d : Desc) : Nat := d.slot ||| (d.base <<< 8) ||| (d.size <<< 39) ||| (d.pers <<< 59)

/-- Word 1 of R344. -/
def Desc.word1 (d : Desc) : Nat :=
  d.quota ||| (d.tintOvr <<< 22) ||| (d.part <<< 27) ||| (b2n d.readOnly <<< 31) ||| (b2n d.mirror <<< 32) |||
  (b2n d.openFenced <<< 33) ||| (b2n d.append <<< 34) ||| (b2n d.reduction <<< 35) ||| (b2n d.spill <<< 36) |||
  (d.block <<< 37)

/-- The descriptor that two words of R344 hold. -/
def Desc.ofWords (w0 w1 : Nat) : Desc :=
  { slot := bits w0 7 0, base := bits w0 38 8, size := bits w0 58 39, pers := bits w0 60 59, quota := bits w1 21 0,
    tintOvr := bits w1 26 22, part := bits w1 30 27, readOnly := bit w1 31, mirror := bit w1 32,
    openFenced := bit w1 33, append := bit w1 34, reduction := bit w1 35, spill := bit w1 36, block := bits w1 39 37 }

/-- The reserved bits of the two words are zero (R336, R344). -/
def Desc.resvOk (w0 w1 : Nat) : Bool := bits w0 63 61 == 0 && bits w1 63 40 == 0

/-- R98: an unlensed line is treated as `NORMAL`, with no quota and no flags. -/
def unlensed : Desc := { pers := 1, quota := 2097152 }

/-- The descriptor a line or request names; unlensed when it names none. -/
def State.descOf (s : State) (lens : Option Nat) : Desc :=
  match lens with
  | some i => ((s.lensSlot i).desc).getD unlensed
  | none => unlensed

/-- R96: the slot of the active set whose window holds the address. -/
def State.lensAt (s : State) (addr : Nat) : Option Nat :=
  s.lens.slots.findIdx? fun l => l.inAct && (l.desc.map (·.holds addr)).getD false

/-- R100: own count of a slot. -/
def State.ownCount (s : State) (i : Nat) : Nat := (s.arr.filter (fun c => c.lens == some i)).length

/-- R100: line count of an `ACTIVE` slot, its predecessors included. -/
def State.lineCount (s : State) (i : Nat) : Nat :=
  ((i :: (s.lensSlot i).preds).map s.ownCount).sum

/-- Slot states (R119). -/
inductive SlotKind where
  | free | active | shadow | retired
deriving DecidableEq, Repr

/-- R119. -/
def State.slotKind (s : State) (i : Nat) : SlotKind :=
  let l := s.lensSlot i
  if l.inAct then .active else if l.inSh then .shadow else if s.ownCount i == 0 then .free else .retired

/-- R386: the staging copy takes the descriptor the slot holds, or zero when it is `FREE`. -/
def LensSlot.restage (l : LensSlot) : LensSlot :=
  match l.desc with
  | some d => { l with stage0 := BitVec.ofNat 64 d.word0, stage1 := BitVec.ofNat 64 d.word1 }
  | none => { l with stage0 := 0, stage1 := 0 }

/-- Something in flight still carries the slot from its match (R96): a fill, a request or a provisional entry. -/
def State.lensInFlight (s : State) (i : Nat) : Bool :=
  s.mrs.any (fun m => m.lens == some i) || s.txns.any (fun t => t.lens == some i) ||
  s.prov.any (fun e => e.lens == some i) || s.waiting.any (fun w => w.lens == some i) ||
  s.hand.hold.any (fun w => w.lens == some i)

/-- R119, R386: a slot of neither set that has lost its last line is `FREE` and its staging copy becomes zero; it holds no
descriptor, but while something in flight carries it (`fly`) the descriptor is kept for that alone. -/
def LensSlot.freed (l : LensSlot) (fly : Bool) : LensSlot :=
  let l : LensSlot := if l.ghost then l else { l with ghost := true, stage0 := 0, stage1 := 0 }
  if fly then l else { stage0 := l.stage0, stage1 := l.stage1 }

/-- R119: slots of neither set that have lost their last line become `FREE`. -/
def State.settle (s : State) : State :=
  { s with lens := { s.lens with slots := s.lens.slots.mapIdx fun i l =>
      if l.desc.isSome && !l.inAct && !l.inSh && s.ownCount i == 0 then l.freed (s.lensInFlight i)
      else if l.ghost then { l with ghost := false } else l } }

/-- The end of every meaning: `FREE` slots are settled, the counters in edge mode look at the debug port (R476), and the machine goes on.
-/
def finish (s : State) : Res := .next s.settle.edges

/-- An event of the slice's own (a completion, a deadline, the arrival of an answer the slice is owed) that is not due: nothing of
that kind is outstanding, and the event changes nothing. DESIGN CHOICE (log entry 4): the spec's slice never produces it there. -/
def State.notDue (s : State) : Res := finish s.fresh0

/-- R122: `d` succeeds `e` when the two have equal `BASE`, `SIZE`, `PART` and `APPEND`. -/
def Desc.succeeds (d e : Desc) : Bool :=
  d.base == e.base && d.size == e.size && d.part == e.part && d.append == e.append

/-- R122: the active slots that slot `i` would succeed. -/
def State.succOf (s : State) (i : Nat) : Option Nat :=
  match (s.lensSlot i).desc with
  | some d => s.lens.slots.findIdx? fun l => l.inAct && (l.desc.map (d.succeeds ·)).getD false
  | none => none

/-- Forget slot `i` as a predecessor: it takes a lens of its own. -/
def dropPred (i : Nat) (slots : List LensSlot) : List LensSlot :=
  slots.map fun l => { l with preds := l.preds.filter (· != i) }

/-- R122: the slot that enters the active set takes over its predecessor's lines, and for an append lens its ring. -/
def succeedFrom (old : List LensSlot) (i : Nat) (l : LensSlot) : LensSlot :=
  match l.desc with
  | none => l
  | some d =>
    match old.findIdx? (fun o => o.inAct && (o.desc.map (d.succeeds ·)).getD false) with
    | none => { l with preds := [] }
    | some j =>
      if j == i then l
      else
        let o := old.getD j {}
        let l := { l with preds := (j :: o.preds).filter (· != i) }
        if d.append then
          { l with head := o.head, tail := o.tail,
                   stopped := o.stopped && d.quota ≤ ((o.desc.map (·.quota)).getD 0) }
        else l

/-- The descriptor hash of R413. -/
def Desc.hash (d : Desc) : Nat :=
  let d := { d with slot := 0, quota := 0 }
  (crc32c (leBytes d.word0 8 ++ leBytes d.word1 8)).toNat

/-- R345, R361: the `MIRROR` record of a slot of the active set. A descriptor that a partial prescription, an edit or a change of
persistence has brought into the set has none (log entry 84). -/
def State.mirrorOf (s : State) (i : Nat) : Option MirrorRec :=
  if (s.lensSlot i).bareAct then none else s.cfg.mirror.find? (fun m => m.slot == i)

/-- R352: the pair level of the slice. -/
def State.pairLevelNow (s : State) : Nat := if s.power.straps.split then s.span.pairLevel else s.fuses.featLevel

/-- R400: `VERIFY` of a slot acts only at pair level 2. -/
def State.verifyOn (s : State) (i : Nat) : Bool := s.span.pairLevel == 2 && ((s.mirrorOf i).map (·.verify)).getD false

/-- R400, R411: `FILL` of a slot acts only at pair level 2. -/
def State.fillOn (s : State) (i : Nat) : Bool := s.span.pairLevel == 2 && ((s.mirrorOf i).map (·.fill)).getD false

/-- R413: reads in the slot's window are relayed while the twin has not verified it. -/
def State.unverified (s : State) (i : Nat) : Bool := s.verifyOn i && (s.lensSlot i).unverified

/-- The slot is mirrored with `VERIFY` = 1 in the active set. -/
def State.verifies (s : State) (i : Nat) (l : LensSlot) : Bool :=
  l.inAct && (l.desc.map (·.mirror)).getD false && s.verifyOn i

/-- R413: at a swap point, and at the acceptance of a full prescription, every slot that verifies is unverified, and the `VER`
record of every `MIRROR` slot of the active set is sent, where any of them verifies. -/
def State.sendVers (s : State) : State :=
  let due := (List.range 256).filter (fun i => s.verifies i (s.lensSlot i))
  let s := { s with lens := { s.lens with slots := s.lens.slots.mapIdx fun i l => { l with unverified := due.contains i } } }
  if due.isEmpty then s
  else (List.range 256).foldl (fun t i =>
    match (t.lensSlot i).desc with
    | some d => if (t.lensSlot i).inAct && d.mirror then t.spanSend (.ver i d.base d.size d.hash) else t
    | none => t) s

/-- R123, R287: exchange the active and shadow sets of lenses and tints at a swap point. DESIGN CHOICE (log entry 44): a lens
that leaves the active set without a successor keeps no record of its own former predecessors, should a second swap bring it
back. -/
def State.swapSets (s : State) : State :=
  let old := s.lens.slots
  let new := old.mapIdx fun i l =>
    let l' := { l with inAct := l.inSh, inSh := l.inAct, bareAct := l.bareSh, bareSh := l.bareAct }
    if l.inSh == l.inAct then l'
    else (if l.inSh then succeedFrom old i l' else { l' with preds := [] }).restage
  State.sendVers { s with lens := { s.lens with slots := new, tintAct := s.lens.tintSh, tintSh := s.lens.tintAct } }

/-- The slot holds this lens already, and not only for what is in flight of one that it has lost (R386). -/
def LensSlot.has (l : LensSlot) (d : Desc) : Bool := l.desc == some d && !l.ghost

/-- Put a descriptor in the set a slot is being prepared for: a slot that takes a new lens starts it afresh (R106). -/
def takeDesc (d : Desc) (l : LensSlot) : LensSlot :=
  if l.has d then l else { ({} : LensSlot) with desc := some d, inAct := l.inAct, inSh := l.inSh }

/-- R386: the slots whose state or descriptor has changed take a new staging copy. -/
def restageChanged (old new : List LensSlot) : List LensSlot :=
  (new.zipIdx).map fun (l, i) =>
    let o := old.getD i {}
    if o.desc == l.desc && o.inAct == l.inAct && o.inSh == l.inSh then l else l.restage

/-- A descriptor that stays in its slot as the shadow set is edited has a `MIRROR` record or none as before. -/
def LensSlot.keepsBare (l : LensSlot) : Bool := if l.inSh then l.bareSh else l.inAct && l.bareAct

/-- R120, R361: replace the shadow sets; the rebuild of R121 begins. `bare` says that the whole set comes without `MIRROR` records
(R345); a descriptor that is new in its slot has none in any case. -/
def State.replaceShadow (ds : Option (List Desc)) (tint : Option (BitVec 32)) (bare : Bool) (s : State) : State :=
  let slots := match ds with
    | none => s.lens.slots
    | some ds =>
      let cleared := s.lens.slots.map fun (l : LensSlot) => { l with inSh := false }
      let new := ds.foldl (fun sl d =>
        let fresh := !(sl.getD d.slot {}).has d
        let sl := if fresh then dropPred d.slot sl else sl
        sl.modify d.slot fun l => { takeDesc d l with inSh := true, bareSh := bare || fresh || (s.lensSlot d.slot).keepsBare }) cleared
      restageChanged s.lens.slots new
  { s with lens := { s.lens with slots := slots, tintSh := tint.getD s.lens.tintSh, rebuild := true } }

/-- R125: check and perform a persistence change as one swap point. -/
def State.setPers (i src dst pers : Nat) (s : State) : State :=
  let a := s.lensSlot src
  match a.desc with
  | none => s.slotReady i Err.fieldRange.code true 0
  | some d =>
    if !a.inAct || 2 < pers || 2 < d.pers || d.append || d.reduction then s.slotReady i Err.fieldRange.code true 0
    else if s.slotKind dst != .free then s.slotReady i Err.busy.code true 0
    else
      let copy : LensSlot :=
        { desc := some { d with slot := dst, pers := pers }, inAct := true, inSh := a.inSh, bareAct := true, bareSh := true,
          preds := (src :: a.preds).filter (· != dst) }
      let slots := ((dropPred dst s.lens.slots).set dst copy.restage).modify src fun l =>
        { l with inAct := false, inSh := false, preds := [] }.restage
      (State.sendVers { s with lens := { s.lens with slots := slots } }).slotReady i Status.done.code false 0

/-- Perform one accepted change of the sets (R124). -/
def State.lensOp (o : LensOp) (s : State) : State :=
  let s := { s with lens := { s.lens with done := s.lens.done + 1 } }
  match o with
  | .swap src => s.swapSets.srcDone src .done [] 0
  | .setPers slot src dst pers => s.setPers slot src dst pers
  | .partialSets ds tint => s.replaceShadow ds tint true

/-- R124: perform the accepted changes in their order until one needs a rebuild to finish. -/
def State.runLens : Nat → State → State
  | 0, s => s
  | n + 1, s =>
    match s.lens.queue with
    | [] => s
    | o :: rest =>
      if s.lens.rebuild then s
      else (State.lensOp o { s with lens := { s.lens with queue := rest } }).runLens n

/-- R124: perform the accepted changes that wait, up to the next swap, which has a swap point of its own (R123). -/
def State.runToSwap : Nat → State → State
  | 0, s => s
  | n + 1, s =>
    match s.lens.queue with
    | [] => s
    | .swap _ :: _ => s
    | o :: rest =>
      if s.lens.rebuild then s
      else (State.lensOp o { s with lens := { s.lens with queue := rest } }).runToSwap n

/-- Accept a change of the sets: it is performed at once unless a rebuild or an earlier change must come first. -/
def State.acceptLens (o : LensOp) (s : State) : State :=
  if s.lens.rebuild || !s.lens.queue.isEmpty then { s with lens := { s.lens with queue := s.lens.queue ++ [o] } }
  else s.lensOp o

/-- Forget slots as predecessors: they take lenses of their own. -/
def dropPreds (l : List Nat) (slots : List LensSlot) : List LensSlot :=
  slots.map fun x => { x with preds := x.preds.filter (!l.contains ·) }

/-- R126: a full prescription loads its LENS section as both sets, with succession from the previous active set. A slot that
takes a new lens is no predecessor any more. -/
def State.loadSets (ds : List Desc) (tint : BitVec 32) (s : State) : State :=
  let old := s.lens.slots
  let cleared := old.map fun l => { l with inAct := false, inSh := false, preds := [], bareAct := false, bareSh := false }
  let slots := ds.foldl (fun sl d =>
    let was := old.getD d.slot {}
    sl.modify d.slot fun l =>
      let l := { takeDesc d l with inAct := true, inSh := true }
      if was.inAct && was.desc == some d then { l with preds := was.preds } else succeedFrom old d.slot l) cleared
  let slots := dropPreds ((ds.filter fun d => !(old.getD d.slot {}).has d).map (·.slot)) slots
  { s with lens := { s.lens with slots := restageChanged old slots, tintAct := tint, tintSh := tint, rebuild := false,
                                 queue := [] } }

/-- R109: a discard or an unpin has taken a line of a lens: a `STOPPED` lens whose count is now below its quota goes on, whichever
set it stands in. -/
def State.clearStopped (lens : Option Nat) (s : State) : State :=
  { s with lens := { s.lens with slots := s.lens.slots.mapIdx fun i l =>
      match l.desc, lens with
      | some d, some j =>
        if l.stopped && (i == j || l.preds.contains j) && s.lineCount i < d.quota then { l with stopped := false }
        else l
      | _, _ => l } }

/-- Block of an address in an append lens (R106). -/
def Desc.blockOf (d : Desc) (addr : Nat) : Nat := (addr - d.base * 2 ^ 21) / (16384 * 2 ^ d.block)

/-- The lines of block `b` of an append lens. -/
def Desc.blockLines (d : Desc) (b : Nat) : List Nat :=
  (List.range (128 * 2 ^ d.block)).map fun i => d.base * 2 ^ 14 + b * (128 * 2 ^ d.block) + i

/-- R109, R111: the ring of an append lens whose whole window has been discarded starts again, and the lens is not stopped any
more. DESIGN CHOICE (log entry 45): only lenses of the active set, which are the lenses in force, are reset. -/
def State.resetRings (base size : Nat) (s : State) : State :=
  { s with lens := { s.lens with slots := s.lens.slots.map fun l =>
      match l.desc with
      | some d =>
        if l.inAct && d.append && base ≤ d.base * 2 ^ 21 && (d.base + d.size) * 2 ^ 21 ≤ base + size
        then { l with head := 0, tail := 0, stopped := false } else l
      | none => l } }

/-- R98: the tint a request is regulated under. -/
def tintOf (d : Desc) (tint : Nat) : Nat := if bit d.tintOvr 4 then bits d.tintOvr 3 0 else tint

end Sys2Proof.Machine
end

