-- ==== Sys2Proof/Machine/Flags.lean ====
section
/-! DEFINITION. Flags and gates: what an arriving flit or register access meets in each slice state, wake events, and the
wires the slice drives (R23, R27, R41, R51, R54, R418, R421, R424, R427, R459). -/

namespace Sys2Proof

/-- R42, R366: access without `MGMT` reaches only the window of its source partition. -/
def Csrp.reaches (src : Csrp) (window : Option Nat) : Bool := src.mgmt || window == some src.part

end Sys2Proof

namespace Sys2Proof.Machine

open Sys2Proof

/-- What an arrival meets. -/
inductive Gate where
  | serve | hold | refuse | recover | drop
deriving DecidableEq, Repr

/-- R23, R27, R54, R418, R421, R459: what a flit on a fabric, memory or span port meets. -/
def State.gate (s : State) : Gate :=
  match s.power.state with
  | .off => if s.power.rstLow then .drop else .hold
  | .init => .drop
  | .config | .test => if s.power.relock then .hold else .refuse
  | .service => if s.power.relock then .hold else .serve
  | .sleep => .hold
  | .recovery => if s.power.relock then .hold else .recover

/-- R422: an event that starts the idle count again. -/
def State.notIdle (s : State) : State := { s with power := { s.power with idle := 0 } }

/-- R424, R427: a wake event. It begins the wake of a resting slice, waits for an entry past its commit point, and
abandons an off drain. A sleep that the scrub alone has ended is so no more (R452). -/
def State.wakeUp (s : State) : State :=
  let s := { s with power := { s.power with scrubWake := false } }
  if s.asleep then
    if s.power.sleepPh == .committed then { s with power := { s.power with wakeReq := true } }
    else { s with power := { s.power with wakeDue := true } }
  else if s.power.sleepPh == .offDrain then { s with power := { s.power with sleepPh := .none, idle := 0 } }
  else s

/-- Keep an arrival for the wake or the end of the relock, with its age (R27, R41, R418, R430). -/
def State.keepFor (i : Instr) (s : State) : State :=
  { s with power := { s.power with held := s.power.held ++ [(i, s.power.heldAge)] } }

/-- R41, R369: the blocks the always-on domain serves. -/
def alwaysOn (offset : Nat) : Bool := offset < 0x100 || (0x7000 ≤ offset && offset < 0x8000) || 0xE000 ≤ offset

/-- The answer to a register access. -/
def State.csrp (e : Err) (data : Word) (s : State) : State := s.emit (.csrp e data)

/-- A register access outside the always-on blocks: it counts as activity (R422), it is held while the slice sleeps or relocks (R41,
R417), and nothing answers it in reset. -/
def State.csrGate (i : Instr) (act : State → State) (s : State) : State :=
  if s.power.rstLow then s
  else if s.asleep then (s.keepFor i).wakeUp
  else if s.power.relock then s.keepFor i
  else act (s.wakeUp).notIdle

/-- `PWRC_WAKE` (R428): high while the slice is on its way out of `SLEEP` or `OFF` or running, low at rest and in
reset. -/
def State.pwrcWake (s : State) : Bool :=
  !s.power.rstLow && s.power.state != .init && (!s.asleep || s.power.wakeDue)

end Sys2Proof.Machine
end

