-- ==== Sys2Proof/Machine/Mailbox.lean ====
section
/-! DEFINITION. The command mailboxes: a write of `MB_CMD`, its checks in the order of R375, and the argument words
(R373 to R379). -/

namespace Sys2Proof

/-- Argument word `i` of a command. -/
def MbCmd.arg (m : MbCmd) (i : Nat) : Nat := ((m.args.getD i 0)).toNat

/-- The argument words a command finds in `MB_ARG0` to `MB_ARG7`. -/
def MbCmd.words (m : MbCmd) : List Word := (m.args ++ List.replicate 8 0).take 8

/-- Replace bits `[hi:lo]` of argument word `i`: the part of the arguments that a row of the command table fixes. -/
def MbCmd.force (m : MbCmd) (i hi lo v : Nat) : MbCmd :=
  let w := m.words
  let n := (w.getD i 0).toNat
  let n := n - (bits n hi lo <<< lo) + (v <<< lo)
  { m with args := w.set i (BitVec.ofNat 64 n) }

end Sys2Proof

namespace Sys2Proof.Machine

open Sys2Proof

/-- R379: the bits each opcode uses of `MB_ARG0` to `MB_ARG3`. -/
def mbUsed : Nat → List Nat
  | 0x01 | 0x02 | 0x03 | 0x04 | 0x0B => [2 ^ 52 - 1, 2 ^ 53 - 1]
  | 0x05 => [2 ^ 57 - 1, 2 ^ 37 - 1, 2 ^ 32 - 1]
  | 0x06 => [2 ^ 52 - 1, 2 ^ 58 - 1, 2 ^ 47 - 1]
  | 0x07 | 0x08 => [2 ^ 39 - 1]
  | 0x09 => [2 ^ 55 - 1, 2 ^ 32 - 1, 2 ^ 53 - 1, 2 ^ 38 - 1]
  | 0x0A => [2 ^ 57 - 1, 2 ^ 40 - 1]
  | 0x0D => [2 ^ 6 - 1]
  | 0x0E => [31 + (2 ^ 32 - 1) * 2 ^ 32]
  | 0x0F => [2 ^ 39 - 1, 2 ^ 52 - 1]
  | _ => []

/-- R375 step 5: no reserved bit of `MB_CMD` or of the argument words is set; `FUSE` = 3 counts as one (R227). -/
def mbResvOk (op resv : Nat) (args : List Word) : Bool :=
  resv == 0 &&
  ((args.zipIdx).all fun (w, i) => w.toNat &&& ((mbUsed op).getD i 0) == w.toNat) &&
  !(op == 0x09 && bits ((args.getD 0 0).toNat) 53 52 == 3)

/-- R377: opcodes a partition window may not issue. -/
def mgmtOnly (op : Nat) : Bool := op == 0x0C || op == 0x0D || op == 0x0F

/-- R375 steps 1 to 5. -/
def State.mbCheck (s : State) (op : Nat) (m : MbCmd) : Err :=
  if op == 0 || 0x10 ≤ op then .fieldRange
  else if s.power.state != .service then .busy
  else if m.window.isSome && mgmtOnly op then .partitionAccess
  else match m.window with
    | some p =>
      if !(s.part p).active then .partitionAccess
      else if s.res.active && s.res.part == p then .busy
      else if mbResvOk op m.resv m.words then .ok else .reservedSet
    | none => if mbResvOk op m.resv m.words then .ok else .reservedSet

/-- R374, R391: a write of `MB_CMD`, once the slice is awake. `run` performs the command's own checks and its effect. -/
def State.mbWrite (op : Nat) (m : MbCmd) (run : MbCmd → State → State) (s : State) : State :=
  let i := mbIdx m.window
  if !(Csrp.reaches { mgmt := m.mgmt, part := m.srcPart } m.window) || m.window.any (fun p => !(s.part p).active) then
    s.csrp .partitionAccess 0
  else
    let s := { s with mbs := s.mbs.modify i fun b => { b with args := m.words } }
    if (s.mbs.getD i {}).st == 1 then s.csrp .busy 0
    else
      let s := s.csrp .ok 0
      let s := { s with mbs := s.mbs.modify i fun b =>
        { b with st := 1, isErr := false, code := 0, seq := m.seq, opcode := op, res := List.replicate 4 0 } }
      match s.mbCheck op m with
      | .ok => run m s
      | e => s.mbRefuse m.window e

end Sys2Proof.Machine
end

