-- ==== Sys2Proof/Machine/Array.lean ====
section
/-! DEFINITION. The array of lines: sectors, lookup, placement and replacement, the write-back buffer, poison, and the
faults of storage (R75 to R92, R99 to R104, R116 to R118, R131, R132, R491). -/

namespace Sys2Proof.Machine

open Sys2Proof

/-! ### Sectors and bytes -/

/-- Bytes `off` to `off + size - 1` of a sector as a mask. -/
def byteMask (off size : Nat) : Sector := BitVec.ofNat 512 ((2 ^ (8 * size) - 1) * 2 ^ (8 * off))

/-- The bytes of `new` at `off` to `off + size - 1` over `old`; write data lie at their offsets in the payload. -/
def merge (old new : Sector) (off size : Nat) : Sector :=
  (old &&& ~~~ byteMask off size) ||| (new &&& byteMask off size)

/-- The little-endian number of `size` bytes at `off` of a sector. -/
def getBytes (d : Sector) (off size : Nat) : Nat := (d.toNat >>> (8 * off)) % 2 ^ (8 * size)

/-- A sector with `size` bytes at `off` replaced by a number. -/
def setBytes (d : Sector) (off size n : Nat) : Sector := merge d (BitVec.ofNat 512 ((n % 2 ^ (8 * size)) * 2 ^ (8 * off))) off size

/-- R83: the three copies of a poison bit. -/
def poisonBits (p : Bool) : BitVec 3 := if p then 7 else 0

/-- R83: the poison bit is read by majority of its three copies. -/
def Sec.poison (x : Sec) : Bool :=
  (x.pois.getLsbD 0 && x.pois.getLsbD 1) || (x.pois.getLsbD 0 && x.pois.getLsbD 2) || (x.pois.getLsbD 1 && x.pois.getLsbD 2)

/-- What the sector reads as (R81). -/
def Sec.value (x : Sec) : Sector := if x.z then 0 else x.data

/-- The sector's data stand in its bank: reads and writes of a zero sector access none (R81). -/
def Sec.banked (x : Sec) : Bool := x.v && !x.z

/-- A valid clean sector. -/
def Sec.clean (d : Sector) (p : Bool) : Sec := { v := true, d := false, z := false, pois := poisonBits p, data := d }

/-- A valid dirty sector. -/
def Sec.dirty (d : Sector) (p : Bool) : Sec := { v := true, d := true, z := false, pois := poisonBits p, data := d }

/-- A zero sector that is not yet written back (R81). -/
def Sec.zero : Sec := { v := true, d := true, z := true }

/-- The sector with its poison bit set, valid and dirty (R182, R236). -/
def Sec.spoilt (x : Sec) : Sec := Sec.dirty x.value true

/-- R81: the combinations a sector may hold, with no poison on a zero sector (R83), and nothing kept of an invalid
one. -/
def Sec.wf (x : Sec) : Bool :=
  if x.v then (!x.z || (x.pois == 0 && x.data == 0)) else !x.d && !x.z && x.pois == 0 && x.data == 0

/-- Sector `i` of a line. -/
def CLine.sec (c : CLine) (i : Nat) : Sec := if i == 0 then c.lo else c.hi

/-- Replace sector `i`. -/
def CLine.setSec (c : CLine) (i : Nat) (x : Sec) : CLine := if i == 0 then { c with lo := x } else { c with hi := x }

/-- A sector of the line is valid. -/
def CLine.valid (c : CLine) : Bool := c.lo.v || c.hi.v

/-- A sector of the line is dirty. -/
def CLine.anyDirty (c : CLine) : Bool := c.lo.d || c.hi.d

/-- Place of a line in the array. -/
def CLine.key (c : CLine) : Nat := c.set * 32 + c.way

/-! ### The array as a sorted list -/

/-- Put a line at its place. -/
def arrPut (c : CLine) : List CLine → List CLine
  | [] => [c]
  | x :: l => if x.key < c.key then x :: arrPut c l else if x.key == c.key then c :: l else c :: x :: l

/-- Empty a place. -/
def arrDel (key : Nat) : List CLine → List CLine
  | [] => []
  | x :: l => if x.key == key then l else x :: arrDel key l

/-- The canonical form of the array: places strictly rising, and no invalid line listed. -/
def arrWf : List CLine → Bool
  | [] => true
  | [x] => x.valid
  | x :: y :: l => x.valid && x.key < y.key && arrWf (y :: l)

/-- Store a line; an invalid line is not listed. -/
def State.putLine (c : CLine) (s : State) : State :=
  { s with arr := if c.valid then arrPut c s.arr else arrDel c.key s.arr }

/-- Remove a line. -/
def State.delLine (c : CLine) (s : State) : State := { s with arr := arrDel c.key s.arr }

/-- R79: the line in any way of its set. -/
def State.lineOf (s : State) (line : Nat) : Option CLine := s.arr.find? fun c => c.line == line && !c.resid

/-- The residual line that accompanies a sum line (R90). -/
def State.residOf (s : State) (line : Nat) : Option CLine := s.arr.find? fun c => c.line == line && c.resid

/-- The lines of a set. -/
def State.setLines (s : State) (set : Nat) : List CLine := s.arr.filter (fun c => c.set == set)

/-- The line lies in a pinned way of its partition. -/
def State.pinnedWay (s : State) (c : CLine) : Bool := wayIn (s.part c.part).pin c.way

/-- The line lies in a cache way of its partition. -/
def State.cacheWay (s : State) (c : CLine) : Bool := wayIn (s.part c.part).cache c.way

/-! ### Provisional entries that a conflicting event voids (R141, R143, R144) -/

/-- R143, R180, R409: the `PROV_VOID` of an entry, to its agent or over `SPAN`, for the entry's group (R296); a down agent gets
none. -/
def State.sendVoid (e : ProvEnt) (s : State) : State :=
  if s.isDown e.agent then s
  else match e.tag with
    | none => s.emit (.snp e.port 4 e.line e.txid e.agent)
    | some t => s.runLike ((s.runAs (some e.grp) (some e.agent)).spanSend (.snp 4 e.line t e.agent))

/-- R143: an event voids the provisional entries it concerns. -/
def State.voidEnts (hit : ProvEnt → Bool) (s : State) : State :=
  s.prov.foldl (fun t e =>
    if hit e && e.st == .opened then (t.sendVoid e).count Ev.provVoid (some e.part) else t)
    { s with prov := s.prov.map fun (e : ProvEnt) =>
        if !(hit e) then e
        else match e.st with
          | .opened => { e with st := .voided }
          | .pending => { e with voidPend := true }
          | .voided => e }

/-- R143: a conflicting event for the line voids its provisional entries. -/
def State.voidProv (line : Nat) (s : State) : State := s.voidEnts fun e => e.line == line

/-! ### The write-back buffer (R88, R131) -/

/-- The buffer's sector of a line. -/
def State.wbSec (s : State) (line i : Nat) : Option WbSec :=
  match s.wbb.find? (·.line == line) with
  | some e => if i == 0 then e.lo else e.hi
  | none => none

/-- A memory request writes back this sector. -/
def MemReq.isWb (r : MemReq) (line i : Nat) : Bool := r.use == .wback line i

/-- R133: the sector that a miss register keeps follows what leaves the array for memory. -/
def State.putGot (line i : Nat) (d : Sector) (p : Bool) (s : State) : State :=
  { s with mrs := s.mrs.map fun (m : MissReg) =>
      if m.line == line && m.st != .discard then
        (if i == 0 then (if m.loGot.isSome then { m with loGot := some (Sec.clean d p) } else m)
         else (if m.hiGot.isSome then { m with hiGot := some (Sec.clean d p) } else m))
      else m }

/-- R31, R88: write one sector back through the buffer; a scratchpad is written uncached (R205). -/
def State.wbPut (line part i : Nat) (d : Sector) (poison : Bool) (s : State) : State :=
  let w : WbSec := { data := d, poison := poison, issued := false }
  let put (e : WbEnt) : WbEnt := if i == 0 then { e with lo := some w } else { e with hi := some w }
  let s := s.putGot line i d poison
  let s := { s with wbb := if s.wbb.any (·.line == line)
      then s.wbb.map (fun (e : WbEnt) => if e.line == line then put e else e)
      else s.wbb ++ [put { line := line, part := part }] }
  let s := s.count Ev.wbSector (some part)
  if s.memWait.any (·.isWb line i) then
    { s with memWait := s.memWait.map fun (r : MemReq) => if r.isWb line i then { r with data := some (d, poison) } else r }
  else
    let addr := line * 128 + i * 64
    s.memSend { port := s.memPort addr, mopc := if s.inScratch addr then 4 else 3, addr := addr, size := 6, part := part, use := .wback line i,
                data := some (d, poison) }

/-- The sector leaves the buffer, and the entry with its last sector. -/
def State.wbDrop (line i : Nat) (s : State) : State :=
  let clr (e : WbEnt) : WbEnt := if i == 0 then { e with lo := none } else { e with hi := none }
  let l := s.wbb.map fun (e : WbEnt) => if e.line == line then clr e else e
  { s with wbb := l.filter (fun (e : WbEnt) => e.lo.isSome || e.hi.isSome) }

/-- R32: the write of a sector has been acknowledged; a newer write of it keeps its place. -/
def State.wbAck (line i : Nat) (s : State) : State :=
  if s.memOut.any (·.isWb line i) || s.memWait.any (·.isWb line i) then s else s.wbDrop line i

/-- Room for a victim of this line in the buffer (R131). -/
def State.wbRoom (s : State) (line : Nat) : Bool := s.wbb.length < 64 || s.wbb.any (·.line == line)

/-- Write back the dirty sectors of a line (R88), zero sectors as zeros. -/
def State.wbLine (c : CLine) (s : State) : State :=
  let s := if c.lo.d then s.wbPut c.line c.part 0 c.lo.value c.lo.poison else s
  if c.hi.d then s.wbPut c.line c.part 1 c.hi.value c.hi.poison else s

/-- R118: list a dropped dead line. -/
def State.noteDead (line : Nat) (s : State) : State :=
  { s with lens := { s.lens with deadDrop := (line :: s.lens.deadDrop.filter (· != line)).take 4096 } }

/-- R118: a listed line is re-read or allocated again. -/
def State.unlistDead (line : Nat) (s : State) : State :=
  { s with lens := { s.lens with deadDrop := s.lens.deadDrop.filter (· != line) } }

/-! ### Faults of storage (R83, R85, R168, R491) -/

/-- The wrong bits that faults of kinds 0 to 5 make in one word of storage (R491). -/
def flips (l : List Inject) : Nat := l.foldl (fun n j => n + 1 + j.kind % 2) 0

/-- R382: the place of an error in a tag or directory entry. -/
def placeAddr (set way : Nat) : Nat := set + way * 65536

/-- The ways of a mask. -/
def waysOf (mask : Nat) : List Nat := (List.range 32).filter (wayIn mask)

/-- R85, R491: the tag entries of a set are read: one wrong bit of an entry is corrected, more invalidate it. -/
def State.readTags (set : Nat) (s : State) : State :=
  match s.faults fun j => j.set == set && (j.kind == 2 || j.kind == 3) with
  | [] => s
  | l =>
    (waysOf 0xFFFFFFFF).foldl (fun t w =>
      let here := l.filter (·.way == w)
      if here.isEmpty then t
      else
        let t := t.metAll here
        if flips here == 1 then t.reportFree fun n => { source := 0x009, addr := placeAddr set w, detail := n }
        else State.reportFree (fun n => { source := 0x00A, addr := placeAddr set w, detail := n })
          { t with arr := arrDel (set * 32 + w) t.arr }) s

/-- R168, R491: the directory entries of a set are read: one wrong bit of a codeword is corrected, more invalidate its entry. -/
def State.readDirSet (set : Nat) (s : State) : State :=
  match s.faults fun j => j.set == set && (j.kind == 4 || j.kind == 5) with
  | [] => s
  | l =>
    (List.range 48).foldl (fun t k =>
      let w := k / 3
      let here := l.filter fun j => j.way == w && j.word == k % 3
      if here.isEmpty then t
      else
        let t := t.metAll here
        if flips here == 1 then t.report { source := 0x00B, addr := placeAddr set w, detail := k % 3 }
        else State.report { source := 0x00C, addr := placeAddr set w, detail := k % 3 }
          { t with dir := t.dir.filter fun e => !(e.set == set && e.way == w) }) s

/-- The line that stands at a line's place. -/
def State.at? (s : State) (c : CLine) : Option CLine := s.arr.find? fun x => x.key == c.key

/-- R233, R431: a bank access to a way: a read or a write in its tier. -/
def State.bankRead (way : Nat) (s : State) : State := s.act (2 * bits way 4 4) 1

/-- R233, R431: see `State.bankRead`. -/
def State.bankWrite (way n : Nat) (s : State) : State := s.act (2 * bits way 4 4 + 1) n

/-- R83, R491: sector `i` of a line is read from its bank. A single-bit error of a codeword is corrected, more wrong bits in any
codeword poison the sector. -/
def State.readData (c : CLine) (i : Nat) (s : State) : State :=
  let x := c.sec i
  if !x.banked then s
  else
  let s := s.bankRead c.way
  match s.faults fun j => j.set == c.set && j.way == c.way && j.sector == i && j.kind ≤ 1 with
  | [] => s
  | l =>
    (List.range 8).foldl (fun t w =>
      let here := l.filter (·.word == w)
      if here.isEmpty then t
      else
        let t := t.metAll here
        if flips here == 1 then
          t.reportFree fun n => { source := 0x007, part := c.part, addr := c.line * 128 + i * 64, detail := w + n * 8 }
        else
          State.log { source := 0x008, part := c.part, addr := c.line * 128 + i * 64, detail := w }
            ((t.putLine (c.setSec i { x with pois := poisonBits true })).voidProv c.line)) s

/-- A lookup of a line in the tags (R85, R431). -/
def State.readTag (line : Nat) (s : State) : State := (s.act 17 1).readTags (setOf line)

/-- The tags and directory entries that a lookup of a line reads (R85, R168, R431). -/
def State.readLookup (line : Nat) (s : State) : State := ((s.readTag line).act 18 1).readDirSet (setOf line)

/-- Sectors of a line, and of its residual line where it has one (R90), are read from the array. -/
def State.readLineData (line : Nat) (wantLo wantHi : Bool) (s : State) : State :=
  let read (find : State → Option CLine) (i : Nat) (t : State) : State :=
    match find t with
    | some c => t.readData c i
    | none => t
  let s := if wantLo then read (·.residOf line) 0 (read (·.lineOf line) 0 s) else s
  if wantHi then read (·.residOf line) 1 (read (·.lineOf line) 1 s) else s

/-! ### Faults of buffers (R445) -/

/-- The fill data of a miss register, marked poisoned. -/
def MissReg.spoil (i : Nat) (m : MissReg) : MissReg :=
  let bad (x : Sec) : Sec := { x with pois := poisonBits true }
  if i == 0 then { m with loGot := m.loGot.map bad } else { m with hiGot := m.hiGot.map bad }

/-- The data flits of a request, those of a sector marked poisoned. -/
def TxnKind.spoil (i : Nat) : TxnKind → TxnKind
  | .req op q tag => .req op { q with dat := q.dat.map fun (f : DatFlit) => if f.sector == i then { f with poison := true } else f } tag
  | k => k

/-- The half of a line's data that a snoop or an operand read has brought. -/
def halfOf (i : Nat) (lo hi : Option (Sector × Bool)) : Option (Sector × Bool) := if i == 0 then lo else hi

/-- Such data with sector `i` marked poisoned. -/
def spoilHalf (k i : Nat) (x : Option (Sector × Bool)) : Option (Sector × Bool) := if k == i then x.map fun y => (y.1, true) else x

/-- A snoop's data with sector `i` marked poisoned. -/
def SnoopRec.spoil (i : Nat) (k : SnoopRec) : SnoopRec := { k with lo := spoilHalf 0 i k.lo, hi := spoilHalf 1 i k.hi }

/-- The data that a transaction keeps, those of sector `i` marked poisoned. -/
def Txn.spoil (i : Nat) (t : Txn) : Txn :=
  { t with kind := t.kind.spoil i, ownLo := spoilHalf 0 i t.ownLo, ownHi := spoilHalf 1 i t.ownHi, snoops := t.snoops.map (·.spoil i) }

/-- The partition of a buffered copy of a sector: in the write-back buffer, a miss register, the data of a request, or what snoops have
brought. -/
def State.buffered (s : State) (line i : Nat) : Option Nat :=
  let wb (e : WbEnt) : Bool := e.line == line && (if i == 0 then e.lo.isSome else e.hi.isSome)
  let mr (m : MissReg) : Bool := m.line == line && (if i == 0 then m.loGot.isSome else m.hiGot.isSome)
  let tx (t : Txn) : Bool := t.line == line && ((match t.kind with
    | .req _ q _ => q.dat.any fun f => f.sector == i
    | _ => false) || (halfOf i t.ownLo t.ownHi).isSome || t.snoops.any fun k => (halfOf i k.lo k.hi).isSome)
  (((s.wbb.find? wb).map (·.part)) <|> ((s.mrs.find? mr).map (·.part))) <|> ((s.txns.find? tx).map (·.part))

/-- R445: every copy of a sector that the slice makes of a doubly wrong one is poisoned. -/
def State.spoil (line i : Nat) (s : State) : State :=
  State.voidProv line
    { s with wbb := s.wbb.map fun (e : WbEnt) => if e.line == line then e.poisonSec i else e,
             mrs := s.mrs.map fun (m : MissReg) => if m.line == line then m.spoil i else m,
             txns := s.txns.map fun (t : Txn) => if t.line == line then t.spoil i else t }

/-- R445: the buffered sectors of a line are read. -/
def State.readBuffered (line : Nat) (s : State) : State :=
  s.bad.foldl (fun t d => match d with
    | .buf l i _ double =>
      (match t.buffered l i with
       | some part => if l == line then (if double then (t.bufFault d part).spoil l i else t.bufFault d part) else t
       | none => t)
    | _ => t) s

/-! ### Victims (R88, R116) -/

/-- R83: the sectors of a line that a write-back reads from their banks, and the line as it stands after the read. -/
def State.readOut (c : CLine) (s : State) : CLine × State :=
  let s := if c.lo.d then s.readData c 0 else s
  let c := (s.at? c).getD c
  let s := if c.hi.d then s.readData c 1 else s
  ((s.at? c).getD c, s)

/-- R118: drop a line without write-back; a dead one enters the dead-drop record. -/
def State.dropLine (c : CLine) (s : State) : State := if c.dead then (s.delLine c).noteDead c.line else s.delLine c

/-- R88, R116: drop a victim, writing its dirty sectors back unless it is dead or a replica (R410). -/
def State.evictLine (c : CLine) (s : State) : State :=
  if c.dead || c.rep || c.resid then s.dropLine c
  else
    let (c, s) := s.readOut c
    (s.delLine c).wbLine c

/-! ### Placement (R87, R89, R99 to R104) -/

/-- Where an absent line goes. -/
inductive Place where
  | way (w rrv : Nat) (victim : Option CLine) (bump : List Nat) (ovf : Bool)
  | bypass (ev : Option Nat)
  | wait
deriving DecidableEq, Repr

/-- R86: the value on insertion. -/
def insertRrv (pers : Nat) : Nat := match pers with | 0 => 3 | 1 => 2 | 2 => 1 | _ => 0

/-- R86: the value after a hit. -/
def hitRrv (pers : Nat) : Nat := if pers == 0 then 2 else 0

/-- R87 steps 2 to 4 among candidate lines in way order: the victim, and by how much every candidate ages. -/
def pickVictim (cands : List CLine) : Option (CLine × Nat) :=
  match cands.find? (·.dead) with
  | some c => some (c, 0)
  | none =>
    let m := cands.foldl (fun m c => max m c.rrv) 0
    (cands.find? (fun c => c.rrv == m)).map (·, 3 - m)

/-- Finish a choice: the victim's write-back needs room in the buffer (R131). DESIGN CHOICE (log entry 42): at quota, where
R87's steps run among the lens's own lines, step 4 ages those lines only. -/
def State.choose (s : State) (cands : List CLine) (rrv : Nat) (ovf : Bool) : Place :=
  match pickVictim cands with
  | none => .bypass none
  | some (c, k) =>
    if c.anyDirty && !c.dead && !s.wbRoom c.line then .wait
    else .way c.way rrv (some c) (if k == 0 then [] else cands.map (·.way)) ovf

/-- R87: allocation in the cache ways of a partition. -/
def State.placeCache (s : State) (set part rrv : Nat) (ovf : Bool) : Place :=
  let mask := (s.part part).cache
  let here := (s.setLines set).filter fun c => wayIn mask c.way
  match (waysOf mask).find? (fun w => !here.any (·.way == w)) with
  | some w => .way w rrv none [] ovf
  | none => if mask == 0 then .bypass (if ovf then some Ev.pinOverflow else none) else s.choose here rrv ovf

/-- R100, R122: the active slot that governs a request's slot, with the slots it counts. -/
def State.governor (s : State) (lens : Option Nat) : Option (Nat × List Nat) :=
  match lens with
  | none => none
  | some i =>
    if (s.lensSlot i).inAct then some (i, i :: (s.lensSlot i).preds)
    else (s.lens.slots.findIdx? fun l => l.inAct && l.preds.contains i).map
      fun j => (j, j :: (s.lensSlot j).preds)

/-- The quota of the lens that governs a slot (R94, R100). -/
def State.quotaOf (s : State) (lens : Option Nat) : Nat :=
  match s.governor lens with
  | some (j, _) => (s.descOf (some j)).quota
  | none => 2097152

/-- The lens is at its quota (R101); a `QUOTA` of 2,097,152 does not limit it (R94). -/
def State.atQuota (s : State) (lens : Option Nat) : Bool :=
  match s.governor lens with
  | some (j, _) => s.quotaOf lens != 2097152 && s.quotaOf lens ≤ s.lineCount j
  | none => false

/-- R246: an arming window has this line of its plane still to place. -/
def State.toPlace (s : State) (set part : Nat) (t : Txn) : Bool :=
  match t.kind with
  | .rangeOp 5 w => setOf t.line == set && ((s.wins.getD w {}).arming.map (·.part)) == some part
  | _ => false

/-- R246: pinned ways of a set held for planes that are being placed. -/
def State.heldPins (s : State) (set part : Nat) : Nat :=
  (s.txns.filter fun t => s.toPlace set part t &&
    !((s.lineOf t.line).map (fun c => c.part == part && wayIn (s.part part).pin c.way)).getD false).length

/-- R246: scratch ways of a set held for planes that are being placed. -/
def State.heldScratch (s : State) (set part : Nat) : Nat :=
  (s.txns.filter fun t => s.toPlace set part t && (s.residOf t.line).isNone &&
    (match t.kind with | .rangeOp _ w => ((s.wins.getD w {}).arming.map (·.acc)) == some 1 | _ => false)).length

/-- The ways of a mask that hold no line of the set, in order. -/
def State.freeWays (s : State) (set mask : Nat) : List Nat :=
  (waysOf mask).filter fun w => !(s.setLines set).any (·.way == w)

/-- R89, R99, R101, R104: where a line that misses goes; an address of a scratchpad is never allocated (R204), a partition without cache
ways serves all but `PIN` without a count (R104), a lens with `QUOTA` 0 never allocates (R94), and a partition under resilver may no
longer allocate (R465). DESIGN CHOICE (log entry 43): of several free pinned ways the line takes the lowest that is not held for a plane
that is being placed (R246). -/
def State.place (s : State) (line part : Nat) (lens : Option Nat) : Place :=
  let d := s.descOf lens
  let set := setOf line
  let full := s.atQuota lens
  if s.inScratch (line * 128) || (s.res.active && s.res.part == part) || (d.pers != 3 && (s.part part).cache == 0) then .bypass none
  else if s.quotaOf lens == 0 then .bypass (some Ev.quotaBypass)
  else if d.pers == 3 then
    if full then .bypass (some Ev.quotaBypass)
    else
      match ((s.freeWays set (s.part part).pin).drop (s.heldPins set part)).head? with
      | some w => .way w 0 none [] false
      | none => s.placeCache set part 0 true
  else if full then
    let own := match s.governor lens with | some (_, l) => l | none => []
    let cands := (s.setLines set).filter fun c =>
      wayIn (s.part part).cache c.way && (match c.lens with | some i => own.contains i | none => false)
    if cands.isEmpty then .bypass (some Ev.quotaBypass) else s.choose cands (insertRrv d.pers) false
  else s.placeCache set part (insertRrv d.pers) false

/-- R105: a line has been replaced from the partition's cache ways. -/
def State.noteReplaced (p : Nat) (s : State) : State :=
  { s with lens := { s.lens with thrash := s.lens.thrash.modify p fun t =>
      if t.lookups < 65536 then { t with evicts := t.evicts + 1 } else { t with nextEvicts := t.nextEvicts + 1 } } }

/-- Perform a placement: age, evict, count, and insert the line with the given sectors. -/
def State.insertAt (line part : Nat) (lens : Option Nat) (rep : Bool) (lo hi : Sec) (w rrv : Nat)
    (victim : Option CLine) (bump : List Nat) (ovf : Bool) (s : State) : State :=
  let set := setOf line
  let m := (s.setLines set).foldl (fun m c => if bump.contains c.way then max m c.rrv else m) 0
  let s := { s with arr := s.arr.map fun (c : CLine) =>
    if c.set == set && bump.contains c.way then { c with rrv := c.rrv + (3 - m) } else c }
  let s := match victim with
    | some c => (s.evictLine c).noteReplaced part
    | none => s
  let s := if ovf then s.count Ev.pinOverflow (some part) else s
  ((s.bankWrite w (b2n lo.banked + b2n hi.banked)).unlistDead line).putLine
    { set := set, way := w, line := line, lo := lo, hi := hi, rrv := rrv, part := part, lens := lens, rep := rep }

/-- Allocate a line with these sectors; the flag is false when it is served without allocation (R101, R102, R104). -/
def State.allocate (line part : Nat) (lens : Option Nat) (rep : Bool) (lo hi : Sec) (s : State) : Bool × State :=
  match s.place line part lens with
  | .way w rrv v b ovf => (true, s.insertAt line part lens rep lo hi w rrv v b ovf)
  | .bypass ev => (false, match ev with | some e => s.count e (some part) | none => s)
  | .wait => (false, s)

/-- R86: a hit in a cache way sets the re-reference value of the line's own persistence. -/
def State.touch (c : CLine) (s : State) : State :=
  if s.cacheWay c then s.putLine { c with rrv := hitRrv (s.descOf c.lens).pers } else s

/-! ### Reading and writing lines -/

/-- What sector `i` of a line reads as in the array or the write-back buffer, with its poison (R128, R131). -/
def State.cached (s : State) (line i : Nat) : Option (Sector × Bool) :=
  match s.lineOf line with
  | some c =>
    if (c.sec i).v then some ((c.sec i).value, (c.sec i).poison)
    else (s.wbSec line i).map fun w => (w.data, w.poison)
  | none => (s.wbSec line i).map fun w => (w.data, w.poison)

/-- The miss register of a line that keeps fill data or waits for it. -/
def State.mrOf (s : State) (line : Nat) : Option MissReg := s.mrs.find? fun m => m.line == line && m.st != .discard

/-- The fill data a miss register holds of sector `i`. -/
def MissReg.got (m : MissReg) (i : Nat) : Option Sec := if i == 0 then m.loGot else m.hiGot

/-- What sector `i` reads as for a waiter: array, buffer, or the register's copy (R129, R132, R133). -/
def State.sector (s : State) (line i : Nat) : Option (Sector × Bool) :=
  match s.cached line i with
  | some x => some x
  | none =>
    match s.mrOf line with
    | some m => (m.got i).map fun x => (x.value, x.poison)
    | none => none

/-- R131: take the buffer's sectors back into the array where it holds none: not yet issued ones dirty, and their write-back
cancelled; issued ones clean. -/
def State.reinstall (line part : Nat) (lens : Option Nat) (s : State) : State :=
  let sec (w : Option WbSec) : Sec := match w with
    | some w => if w.issued then Sec.clean w.data w.poison else Sec.dirty w.data w.poison
    | none => {}
  match s.wbb.find? (·.line == line) with
  | none => s
  | some e =>
    let lo := sec e.lo
    let hi := sec e.hi
    let old (i : Nat) : Bool := ((s.lineOf line).map (fun c => (c.sec i).v)).getD false
    let (ok, s') := match s.lineOf line with
      | some c =>
        (true, (s.bankWrite c.way (b2n (!c.lo.v && lo.v) + b2n (!c.hi.v && hi.v))).putLine
          { c with lo := if c.lo.v then c.lo else lo, hi := if c.hi.v then c.hi else hi })
      | none => s.allocate line part lens false lo hi
    if !ok then s'
    else
      let cancel (i : Nat) (w : Option WbSec) (t : State) : State := match w with
        | some w =>
          if w.issued || old i then t
          else State.wbDrop line i { t with memWait := t.memWait.filter fun r => !r.isWb line i }
        | none => t
      (s'.wbb.find? (·.line == line)).elim s' fun e => cancel 1 e.hi (cancel 0 e.lo s')

/-- A write of bytes `off` to `off + size - 1` of sector `i` of a line that is present with the sector valid or wholly
covered (R82, R84, R92, R117): the new line. -/
def CLine.write (c : CLine) (i : Nat) (d : Sector) (off size : Nat) (poison : Bool) : CLine :=
  let x := c.sec i
  let whole := size == 64
  let data := if whole then d else merge x.value d off size
  { c.setSec i (Sec.dirty data (if whole then poison else x.poison || poison)) with dead := false }

/-- R131, R173: dirty data for an absent line wait while the victim of its allocation, or the data themselves, have no room in
the write-back buffer. -/
def State.installWaits (s : State) (line part : Nat) (lens : Option Nat) : Bool :=
  (s.lineOf line).isNone &&
  (if (s.descOf lens).append then !s.wbRoom line
   else match s.place line part lens with
    | .way .. => false
    | .bypass _ => !s.wbRoom line
    | .wait => true)

/-- R110: dirty data take a place in the array, which an append lens gives to an `APPEND` only; the flag is false when they may
not. -/
def State.tryInstall (line part : Nat) (lens : Option Nat) (lo hi : Sec) (s : State) : Bool × State :=
  if (s.descOf lens).append then (false, s) else s.allocate line part lens false lo hi

/-- R182: poison both sectors of a line, allocating it when it is absent; the line's provisional entries are voided. -/
def State.poisonLine (line part : Nat) (lens : Option Nat) (s : State) : State :=
  let s := s.voidProv line
  match s.lineOf line with
  | some c => s.putLine { c with lo := c.lo.spoilt, hi := c.hi.spoilt, dead := false }
  | none =>
    let (ok, s) := s.tryInstall line part lens (Sec.dirty 0 true) (Sec.dirty 0 true)
    if ok then s else (s.wbPut line part 0 0 true).wbPut line part 1 0 true

/-- Returned data that no line takes go to memory (R102, R173, R174). -/
def State.toMemory (line part : Nat) (lo hi : Option (Sector × Bool)) (s : State) : State :=
  let s := match lo with | some (d, p) => s.wbPut line part 0 d p | none => s
  match hi with | some (d, p) => s.wbPut line part 1 d p | none => s

/-- R173: install dirty data over both sectors; a dead line's data are dropped (R116), an absent line is allocated or
its data go to memory. -/
def State.installDirty (line part : Nat) (lens : Option Nat) (lo hi : Option (Sector × Bool)) (s : State) : State :=
  let sec (old : Sec) (n : Option (Sector × Bool)) : Sec := match n with
    | some (d, p) => Sec.dirty d p
    | none => old
  if lo.isNone && hi.isNone then s
  else match s.lineOf line with
    | some c =>
      if c.dead then s
      else (s.bankWrite c.way (b2n lo.isSome + b2n hi.isSome)).putLine { c with lo := sec c.lo lo, hi := sec c.hi hi }
    | none =>
      let (ok, s) := s.tryInstall line part lens (sec {} lo) (sec {} hi)
      if ok then s else s.toMemory line part lo hi

/-- R131: an installation that waits for the write-back buffer, or a notice whose data install. -/
def Txn.isInstall (t : Txn) : Bool :=
  match t.kind with
  | .install _ => true
  | .req op _ _ => match op with | .writeback | .writeclean | .evictClean => true | _ => false
  | _ => false

/-- Put a transaction at the head of its line's list, behind the installations that stand there. -/
def State.putFirst (t : Txn) (s : State) : State :=
  let first (u : Txn) : Bool := u.line == t.line && u.isInstall
  { s with txns := s.txns.filter first ++ [t] ++ s.txns.filter (fun u => !first u), nextId := s.nextId + 1 }

/-- R131: an installation that waits for the write-back buffer. -/
def State.queueInstall (mode line part : Nat) (lens : Option Nat) (lo hi : Option (Sector × Bool)) (s : State) : State :=
  s.putFirst { id := s.nextId, kind := .install mode, line := line, part := part, lens := lens, started := true,
               ownLo := lo, ownHi := hi, grp := s.reg.cur.getD (s.reg.cfg.selfGroup.getD part 0), agent := s.reg.curAgent }

/-- R131: dirty data of the line wait for room in the write-back buffer. -/
def State.installing (s : State) (line : Nat) : Bool :=
  s.txns.any fun t => t.line == line && (match t.kind with | .install _ => true | _ => false)

/-- R131: an installation has no room now. -/
def State.installStuck (s : State) (mode line part : Nat) (lens : Option Nat) : Bool :=
  if mode == 1 then (s.lineOf line).isNone && !s.wbRoom line else s.installWaits line part lens

/-- R411: a replica fill takes its place, unless the line has come meanwhile or its lens is at its quota. -/
def State.installReplica (line part : Nat) (lens : Option Nat) (lo hi : Option (Sector × Bool)) (s : State) : State :=
  match lo, hi with
  | some a, some b =>
    if (s.lineOf line).isSome || (s.mrOf line).isSome || s.atQuota lens then s
    else
      let (ok, s) := s.allocate line part lens (s.relayed line) (Sec.clean a.1 a.2) (Sec.clean b.1 b.2)
      if ok then s.countN Ev.fillSector (some part) 2 else s
  | _, _ => s

/-- R173, R182, R411: perform an installation. -/
def State.installNow (mode line part : Nat) (lens : Option Nat) (lo hi : Option (Sector × Bool)) (s : State) : State :=
  match mode with
  | 0 => s.installDirty line part lens lo hi
  | 1 => if (s.lineOf line).isSome then s.installDirty line part lens lo hi else s.toMemory line part lo hi
  | 2 => s.poisonLine line part lens
  | _ => s.installReplica line part lens lo hi

/-- R131, R173, R182: install dirty data, or poison a line, now or when there is room in the write-back buffer. -/
def State.installSoon (mode line part : Nat) (lens : Option Nat) (lo hi : Option (Sector × Bool)) (s : State) : State :=
  if s.installStuck mode line part lens || s.installing line then s.queueInstall mode line part lens lo hi
  else s.installNow mode line part lens lo hi

/-- R182: poison both sectors of a line, now or when there is room. -/
def State.poisonSoon (line part : Nat) (lens : Option Nat) (s : State) : State := s.installSoon 2 line part lens none none

/-- R91: a ZERO of a line that is present or may be allocated; otherwise two sectors of zeros go to memory (R102,
R492: `part` none is a management command that allocates nothing unlensed). -/
def State.zeroLineOp (line : Nat) (part : Option Nat) (lens : Option Nat) (s : State) : State :=
  match s.lineOf line with
  | some c => s.putLine { c with lo := Sec.zero, hi := Sec.zero, dead := false }
  | none =>
    let (ok, s) := match part with
      | some p => s.tryInstall line p lens Sec.zero Sec.zero
      | none => (false, s)
    if ok then s
    else (s.wbPut line (part.getD 0) 0 0 false).wbPut line (part.getD 0) 1 0 false

/-- R246 step 2: place one line of the plane of an arming window: a line of a cache way is dropped, the line stands zero
in a pinned way of `PART` whatever the quota, and an FP32C residual stands zero in a scratch way. DESIGN CHOICE (log entry
43): of several free pinned or scratch ways it is the lowest. -/
def State.placeSum (a : WinArgs) (line : Nat) (s : State) : State :=
  let set := setOf line
  let pinned := ((s.lineOf line).map (fun c => c.part == a.part && wayIn (s.part a.part).pin c.way)).getD false
  let s := if pinned then s
    else match s.lineOf line with | some c => s.dropLine c | none => s
  let s := match s.lineOf line with
    | some c => s.putLine { c with lo := Sec.zero, hi := Sec.zero, dead := false }
    | none =>
      match (s.freeWays set (s.part a.part).pin).head? with
      | some w => (s.unlistDead line).putLine
          { set := set, way := w, line := line, lo := Sec.zero, hi := Sec.zero, part := a.part, lens := some a.lens }
      | none => s
  if a.acc != 1 then s
  else match s.residOf line with
    | some c => s.putLine { c with lo := Sec.zero, hi := Sec.zero }
    | none =>
      match (s.freeWays set (s.part a.part).scratch).head? with
      | some w => s.putLine
          { set := set, way := w, line := line, lo := Sec.zero, hi := Sec.zero, part := a.part, resid := true }
      | none => s

end Sys2Proof.Machine
end

