-- ==== Sys2Proof/Machine/Directory.lean ====
section
/-! DEFINITION. The home directory and snoops: entries, formats, victims, snoop IDs, answers, and the reclaim of a down
agent's holdings (R160 to R184). -/

namespace Sys2Proof.Machine

open Sys2Proof

/-! ### Entries (R165 to R167) -/

/-- The entry of a line. -/
def State.dirAt (s : State) (line : Nat) : Option DirEnt := s.dir.find? (·.line == line)

/-- Key of an entry. -/
def DirEnt.key (e : DirEnt) : Nat := e.set * 16 + e.way

/-- Put an entry at its place, in order of place. -/
def dirPut (e : DirEnt) : List DirEnt → List DirEnt
  | [] => [e]
  | x :: l => if x.key < e.key then x :: dirPut e l else if x.key == e.key then e :: l else e :: x :: l

/-- The agent's bit of the coarse vector (R167). -/
def vecBit (a : Nat) : Nat := bits a 9 3

/-- R167: the agent is recorded. -/
def DirEnt.records (e : DirEnt) (a : Nat) : Bool :=
  e.owner == some a || e.sharers.contains a || (e.coarse && e.vec.getLsbD (vecBit a))

/-- R167: the agents a snoop to every holder goes to. -/
def State.holders (s : State) (e : DirEnt) (excl : Option Nat) : List Nat :=
  let sh := if e.coarse then
      (List.range s.cfg.route.length).filter fun a => e.vec.getLsbD (vecBit a) && (s.routeOf a).present
    else e.sharers
  let all := match e.owner with
    | some o => o :: sh.filter (· != o)
    | none => sh
  all.filter fun a => some a != excl

/-- The entry records nobody. -/
def DirEnt.isEmpty (e : DirEnt) : Bool :=
  e.owner.isNone && (if e.coarse then e.vec == 0 else e.sharers.isEmpty)

/-- Store an entry; an empty one is freed (R165). It is a directory write (R431). -/
def State.putDir (e : DirEnt) (s : State) : State :=
  let s := s.act 19 1
  if e.isEmpty then { s with dir := s.dir.filter (fun (x : DirEnt) => x.key != e.key) }
  else { s with dir := dirPut e s.dir }

/-- Free the entry of a line. -/
def State.freeDir (line : Nat) (s : State) : State :=
  State.act 19 (b2n (s.dirAt line).isSome) { s with dir := s.dir.filter (fun (x : DirEnt) => x.line != line) }

/-- Pointers a precise entry uses (`CNT` of R166). -/
def DirEnt.cnt (e : DirEnt) : Nat := e.sharers.length + b2n e.owner.isSome

/-- The vector with the sharers' bits set. -/
def vecOf (l : List Nat) (v : BitVec 128) : BitVec 128 := l.foldl (fun v a => v ||| BitVec.ofNat 128 (1 <<< vecBit a)) v

/-- R167: a precise entry with more than four pointers becomes coarse; the flag says it did. -/
def DirEnt.norm (e : DirEnt) : DirEnt × Bool :=
  if e.coarse then ({ e with vec := vecOf e.sharers e.vec, sharers := [] }, false)
  else if 4 < e.cnt then ({ e with coarse := true, vec := vecOf e.sharers e.vec, sharers := [] }, true)
  else (e, false)

/-- Store an entry in its format, counting `DIR_COARSE`. -/
def State.putNorm (e : DirEnt) (s : State) : State :=
  let (e', c) := e.norm
  let s := s.putDir e'
  if c then s.count Ev.dirCoarse (some e.part) else s

/-- R167: add a sharer to an entry. -/
def State.addSharer (e : DirEnt) (a : Nat) (s : State) : State :=
  if e.owner == some a || e.sharers.contains a then s.putNorm e
  else s.putNorm { e with sharers := e.sharers ++ [a] }

/-- R167, R171: remove an agent from an entry. -/
def DirEnt.remove (e : DirEnt) (a : Nat) : DirEnt :=
  if e.owner == some a then { e with owner := none, excl := false }
  else { e with sharers := e.sharers.filter (· != a) }

/-- R171: the owner becomes a sharer: `DE` or `DO` to `DS`. -/
def DirEnt.demote (e : DirEnt) : DirEnt :=
  match e.owner with
  | some o => { e with owner := none, excl := false, sharers := o :: e.sharers }
  | none => e

/-- R182: what an entry keeps when the holdings of a down agent are reclaimed: a coarse vector stays. -/
def DirEnt.without (e : DirEnt) (a : Nat) : DirEnt := if e.owner == some a || !e.coarse then e.remove a else e

/-- R175, R182: the entry still records somebody once the holdings of the down agents are reclaimed. -/
def State.outlives (s : State) (e : DirEnt) : Bool := !(s.down.foldl (fun e r => e.without r.agent) e).isEmpty

/-! ### Busy lines, trackers and victims (R169, R175, R176) -/

/-- R169: a transaction in progress holds the line. -/
def State.busy (s : State) (line : Nat) : Bool := s.txns.any fun t => t.line == line && t.busy

/-- Home trackers in use: transactions of requests and range operations that hold a line, or have taken a tracker to hold it
(R136, R169). -/
def State.trackers (s : State) : Nat := (s.txns.filter (fun t => (t.busy || t.trk) && !t.kind.isEvict)).length

/-- Eviction buffer entries in use, or taken by a request that may need one (R136, R176). -/
def State.evictions (s : State) : Nat := (s.txns.filter (fun t => t.kind.isEvict || t.evb)).length

/-- The rotation pointer of a directory set (R175). -/
def State.rotOf (s : State) (set : Nat) : Nat := ((s.rot.find? (·.1 == set)).map (·.2)).getD 0

/-- Where a new entry goes. -/
inductive DirPlace where
  | free (way : Nat)
  | victim (e : DirEnt)
  | full
deriving DecidableEq, Repr

/-- R175: the lowest invalid way, else a victim whose line is not busy, `DS` before `DO` before `DE`, cyclically from
the rotation pointer. -/
def State.dirPlace (s : State) (set : Nat) : DirPlace :=
  let here := s.dir.filter fun e => e.set == set
  match (List.range 16).find? (fun w => !here.any (·.way == w)) with
  | some w => .free w
  | none =>
    let order := (List.range 16).map fun i => (s.rotOf set + i) % 16
    let pick (p : DirEnt → Bool) : Option DirEnt :=
      order.findSome? fun w => here.find? fun e => e.way == w && !s.busy e.line && p e
    match pick (fun e => e.owner.isNone) with
    | some e => .victim e
    | none =>
      match pick (fun e => e.owner.isSome && !e.excl) with
      | some e => .victim e
      | none =>
        match pick (fun e => e.owner.isSome && e.excl) with
        | some e => .victim e
        | none => .full

/-- Set the rotation pointer, keeping the list sorted and without zeros. -/
def State.setRot (set v : Nat) (s : State) : State :=
  let l := s.rot.filter (fun (x : Nat × Nat) => x.1 != set)
  { s with rot := if v == 0 then l
      else l.filter (fun (x : Nat × Nat) => x.1 < set) ++ [(set, v)] ++ l.filter (fun (x : Nat × Nat) => set < x.1) }

/-! ### Snoops (R160 to R162, R409) -/

/-- Data have arrived in full. -/
def both (lo hi : Option (Sector × Bool)) : Bool := lo.isSome && hi.isSome

/-- R161: the snoop is outstanding on its port: its agent still owes an answer, or data under its ID. -/
def SnoopRec.owed (k : SnoopRec) : Bool :=
  k.sent && !k.taken && k.inflight.isNone && (match k.ans with
    | none => true
    | some a => a.data && !both k.lo k.hi)

/-- Snoop IDs outstanding on a port (R161); port 8 is the span. -/
def State.snoopIds (s : State) (port : Nat) : List Nat :=
  (s.txns.flatMap fun t => (t.snoops.filter fun k => k.port == port && k.owed).map (·.id)) ++
  (s.span.fwd.filter fun f => f.sent && f.port == port).map (·.id)

/-- R161: the lowest free snoop ID of a port (log entry 13). -/
def State.freeSnoopId (s : State) (port : Nat) : Option Nat :=
  ((List.range 256).map (· + 0xF00)).find? fun i => !(s.snoopIds port).contains i

/-- R478: snoops count for the entry's partition, or the transaction's when the entry is gone. -/
def State.snoopPart (s : State) (tid line : Nat) : Option Nat :=
  match s.dirAt line with
  | some e => some e.part
  | none => (s.txns.find? (·.id == tid)).map (·.part)

/-- Send one snoop of a transaction, or let it wait for an ID. -/
def State.sendSnoop (tid : Nat) (k : SnoopRec) (line : Nat) (s : State) : State :=
  let add (k : SnoopRec) (t : State) : State := t.setTxn tid fun x => { x with snoops := x.snoops ++ [k] }
  match s.freeSnoopId k.port with
  | none => add { k with sent := false } s
  | some i =>
    let s := add { k with sent := true, id := i } s
    let s := s.count Ev.snpSent (s.snoopPart tid line)
    if k.far then s.spanSend (.snp k.op line i k.agent) else s.emit (.snp k.port k.op line i k.agent)

/-- R161: snoop these agents for a transaction; no snoop goes to a down agent (R180) or one without the present bit. -/
def State.snoopAll (tid op line : Nat) (agents : List Nat) (s : State) : State :=
  let owner := (s.dirAt line).bind (·.owner)
  agents.foldl (fun t a =>
    if t.isDown a || !(t.routeOf a).present then t
    else
      let far := t.isFar a
      t.sendSnoop tid { agent := a, port := if far then 8 else (t.routeOf a).port, id := 0, op := op, sent := false,
                        far := far, owner := owner == some a } line) s

/-- Send the snoops that wait for an ID on a port, as long as IDs are free (R161, R409). -/
def State.sendWaiting (port : Nat) (s : State) : State :=
  let s := s.txns.foldl (fun t x =>
    x.snoops.foldl (fun t k =>
      if k.sent || k.port != port || k.ans.isSome || k.inflight.isSome then t
      else match t.freeSnoopId port with
        | none => t
        | some i =>
          let t := t.setTxn x.id fun y => { y with snoops := y.snoops.map fun m =>
            if m.agent == k.agent && !m.sent then { m with sent := true, id := i } else m }
          let t := t.count Ev.snpSent (t.snoopPart x.id x.line)
          if k.far then s.runLike ((t.runAs (some x.grp) x.agent).spanSend (.snp k.op x.line i k.agent))
          else t.emit (.snp k.port k.op x.line i k.agent)) t) s
  s.span.fwd.foldl (fun t f =>
    if f.sent || f.port != port then t
    else match t.freeSnoopId port with
      | none => t
      | some i =>
        let t := { t with span := { t.span with fwd := t.span.fwd.map fun (g : FwdSnoop) =>
          if g.homeId == f.homeId then { g with sent := true, id := i } else g } }
        (t.count Ev.snpSent none).emit (.snp port f.op f.line i f.agent)) s

/-- R163, R178, R179: the snoop has been answered, with the data or the notice that the answer stands for. -/
def SnoopRec.done (k : SnoopRec) : Bool :=
  match k.inflight with
  | some 2 => true
  | some _ => (match k.notice with | some n => n.op == .evictClean || both n.lo n.hi | none => false)
  | none =>
    match k.ans with
    | none => false
    | some a =>
      match k.notice with
      | some n => n.op == .evictClean || both n.lo n.hi
      | none => !a.data || both k.lo k.hi

/-- What an answered snoop gives the home: the agent's state afterwards (0 I, 1 S, 2 O), data for the requester, and
whether the data are dirty data the home takes over (R163, R173, R178). -/
def SnoopRec.result (k : SnoopRec) : Nat × Option (Sector × Bool) × Option (Sector × Bool) × Bool :=
  match k.notice with
  | some n =>
    let st := if n.op == .writeclean && k.op != 2 then 1 else 0
    (st, n.lo, n.hi, n.op != .evictClean)
  | none =>
    match k.inflight with
    | some _ => (0, none, none, false)
    | none =>
      match k.ans with
      | some a => (a.code, k.lo, k.hi, a.pd)
      | none => (0, none, none, false)

/-- Every snoop of the transaction is answered, and the transaction has taken the answers. -/
def Txn.snoopsDone (t : Txn) : Bool := t.snoops.all (·.taken)

/-! ### Protocol errors and the reclaim of holdings (R170, R173, R182, R183) -/

/-- Count and log `PROTO_ERR`. -/
def State.protoErr (code line agent port part : Nat) (s : State) : State :=
  (s.count Ev.protoErr (some part)).log
    { source := 0x006, part := part, agent := agent, port := port, addr := line * 128, detail := code }

/-- R182: a line poisoned in the reclaim of an agent is counted and kept for the report's record. -/
def State.noteReclaim (agent line part : Nat) (s : State) : State :=
  let s := s.count Ev.reclaimPoison (some part)
  match s.down.findIdx? (fun r => r.agent == agent) with
  | some i =>
    { s with down := s.down.modify i fun r =>
        { r with poisoned := r.poisoned + 1, first := if r.poisoned == 0 then line * 128 else r.first } }
  | none => s

/-- R182: poison the line of an agent that held it exclusive or owned. -/
def State.reclaimPoison (agent line part : Nat) (s : State) : State :=
  (s.poisonSoon line part (s.lensAt (line * 128))).noteReclaim agent line part

/-- The agent of a request in progress, for which the line's entry must not lapse with its last holder: what the entry becomes is
decided since its FCLK 12 (R171). A `RD_SHARED` is granted S; `RD_UNIQUE` and `UPGRADE` become the owner. -/
def Txn.joins (t : Txn) : Option (Nat × Bool) :=
  match t.kind with
  | .req op q _ =>
    if t.served || q.provisional then none
    else if op == .rdShared && !t.newEnt && t.started && t.grant == 1 then some (q.agent, false)
    else if (op == .rdUnique || op == .upgrade) && t.started && t.grant != 0 && !t.newEnt then some (q.agent, true)
    else none
  | _ => none

/-- R171, R182: store an entry that has lost a holder. An entry that has lost the last one is free; while a request of the line is
in progress that the entry will record, a new one takes its place for it at once. -/
def State.putLess (e : DirEnt) (s : State) : State :=
  if !e.isEmpty then s.putDir e
  else match s.txns.findSome? fun t => if t.line == e.line then t.joins.map (t.id, ·) else none with
    | some (id, a, own) =>
      let e := { e with owner := if own then some a else none, excl := own, sharers := if own then [] else [a],
                        coarse := false, vec := 0 }
      (s.putDir e).setTxn id fun t => { t with newEnt := true }
    | none => s.putDir e

/-- R182: reclaim what an entry records of an agent. -/
def State.reclaimEnt (agent : Nat) (e : DirEnt) (s : State) : State :=
  if e.owner == some agent then (s.putLess (e.remove agent)).reclaimPoison agent e.line e.part
  else if e.coarse then s
  else s.putLess (e.remove agent)

/-- R183: down agents that the line's entry records lose their holdings first. -/
def State.reclaimLine (line : Nat) (s : State) : State :=
  s.down.foldl (fun t r =>
    match t.dirAt line with
    | some e => if e.records r.agent then t.reclaimEnt r.agent e else t
    | none => t) s

end Sys2Proof.Machine
end

