-- ==== Sys2Proof/Machine/Fp.lean ====
section
/-! DEFINITION. The arithmetic of the reduction engine: binary32 under R210, the formats of R211, R212 and R229, and
the element operations of R214, R215, R219, R230 and R232. -/

namespace Sys2Proof.Machine

open Sys2Proof

/-- A decoded floating-point value; `fin neg m e` is `m * 2^e` with its sign. -/
inductive FVal where
  | nan
  | inf (neg : Bool)
  | fin (neg : Bool) (m : Nat) (e : Int)
deriving DecidableEq, Repr

/-- A binary format: width, precision with the hidden bit, exponent of its smallest subnormal, the largest finite
encoding without sign, and whether it has infinities and NaNs in the IEEE places. -/
structure Fmt where
  width : Nat
  prec : Nat
  emin : Int
  maxFin : Nat
  ieee : Bool

/-- binary32. -/
def fp32 : Fmt := { width := 32, prec := 24, emin := -149, maxFin := 0x7F7FFFFF, ieee := true }
/-- binary16. -/
def fp16 : Fmt := { width := 16, prec := 11, emin := -24, maxFin := 0x7BFF, ieee := true }
/-- BF16. -/
def bf16 : Fmt := { width := 16, prec := 8, emin := -133, maxFin := 0x7F7F, ieee := true }
/-- FP8 E4M3 (R212: no infinity, NaN at `0x7F`). -/
def e4m3 : Fmt := { width := 8, prec := 4, emin := -9, maxFin := 0x7E, ieee := false }
/-- FP8 E5M2. -/
def e5m2 : Fmt := { width := 8, prec := 3, emin := -16, maxFin := 0x7B, ieee := true }
/-- MXFP6 E2M3. -/
def e2m3 : Fmt := { width := 6, prec := 4, emin := -3, maxFin := 0x1F, ieee := false }
/-- MXFP6 E3M2. -/
def e3m2 : Fmt := { width := 6, prec := 3, emin := -4, maxFin := 0x1F, ieee := false }
/-- MXFP4 E2M1. -/
def e2m1 : Fmt := { width := 4, prec := 2, emin := -1, maxFin := 7, ieee := false }

/-- Read an encoding (R212). -/
def Fmt.decode (f : Fmt) (n : Nat) : FVal :=
  let neg := bit n (f.width - 1)
  let mag := n % 2 ^ (f.width - 1)
  let frac := mag % 2 ^ (f.prec - 1)
  let ex := mag >>> (f.prec - 1)
  if mag > f.maxFin then
    if f.ieee && frac == 0 then .inf neg else .nan
  else if ex == 0 then .fin neg frac f.emin
  else .fin neg (frac + 2 ^ (f.prec - 1)) (f.emin + ex - 1)

/-- A natural number divided by `2^k`, to nearest, ties to even. -/
def rne (m k : Nat) : Nat :=
  let q := m >>> k
  let r := m % 2 ^ k
  let h := 2 ^ k
  if 2 * r > h || (2 * r == h && q % 2 == 1) then q + 1 else q

/-- The unsigned encoding of `m * 2^e` rounded to nearest even with an unbounded exponent (R210, R229); above
`maxFin` the value overflows. -/
def Fmt.roundMag (f : Fmt) (m : Nat) (e : Int) : Nat :=
  if m == 0 then 0
  else
    let top : Int := e + (Nat.log2 m + 1 : Nat)
    let t : Int := max (top - f.prec) f.emin
    let mm := if t ≤ e then m * 2 ^ (e - t).toNat else rne m (t - e).toNat
    mm + (t - f.emin).toNat * 2 ^ (f.prec - 1)

/-- The sign bit of a format. -/
def Fmt.sign (f : Fmt) (neg : Bool) : Nat := if neg then 2 ^ (f.width - 1) else 0

/-- The canonical quiet NaN of R210. -/
def qnan : Nat := 0x7FC00000

/-- Encode a value as binary32 (`fl` of R210). -/
def fl : FVal → Nat
  | .nan => qnan
  | .inf neg => fp32.sign neg + 0x7F800000
  | .fin neg m e => fp32.sign neg + min (fp32.roundMag m e) 0x7F800000

/-- The signed number of units of `2^-149` in a finite binary32 value. -/
def units : FVal → Int
  | .fin neg m e =>
    let v : Int := (m * 2 ^ (e + 149).toNat : Nat)
    if neg then -v else v
  | _ => 0

/-- The exact value of a number of units of `2^-149`; zero is `+0`. -/
def ofUnits (u : Int) : FVal := .fin (u < 0) u.natAbs (-149)

/-- The exact sum of two values, with the sign of a zero result as IEEE 754 gives it to nearest. -/
def fadd (a b : FVal) : FVal :=
  match a, b with
  | .nan, _ | _, .nan => .nan
  | .inf s, .inf t => if s == t then .inf s else .nan
  | .inf s, _ => .inf s
  | _, .inf t => .inf t
  | .fin s m e, .fin t n g =>
    let u := units (.fin s m e) + units (.fin t n g)
    if u == 0 then .fin (s && t) 0 (-149) else ofUnits u

/-- The exact product of two values. -/
def fmul (a b : FVal) : FVal :=
  match a, b with
  | .nan, _ | _, .nan => .nan
  | .inf s, .inf t => .inf (s != t)
  | .inf s, .fin t n _ => if n == 0 then .nan else .inf (s != t)
  | .fin s m _, .inf t => if m == 0 then .nan else .inf (s != t)
  | .fin s m e, .fin t n g => .fin (s != t) (m * n) (e + g)

/-- The value of a binary32 encoding. -/
def val32 (n : Nat) : FVal := fp32.decode n

/-- `fl(a + b)` on encodings. -/
def fl32Add (a b : Nat) : Nat := fl (fadd (val32 a) (val32 b))

/-- `fl(a × b)` on encodings. -/
def fl32Mul (a b : Nat) : Nat := fl (fmul (val32 a) (val32 b))

/-- The encoding is an infinity. -/
def isInf32 (n : Nat) : Bool := n % 2 ^ 31 == 0x7F800000

/-- The encoding is a NaN. -/
def isNan32 (n : Nat) : Bool := n % 2 ^ 31 > 0x7F800000

/-- What an element operation leaves: the sum, the residual, and the flags it sets (R215). -/
structure ElemOut where
  s : Nat
  c : Nat := 0
  ovf : Bool := false
  nan : Bool := false
deriving DecidableEq, Repr

/-- R214 and R215, `ACC` = FP32. -/
def plainAdd (s x : Nat) : ElemOut :=
  let r := fl32Add s x
  { s := r, ovf := isInf32 r, nan := isNan32 r }

/-- R215 on a sum and a residual that a compensated operation computed. -/
def compFix (s c : Nat) : ElemOut :=
  if isInf32 s || isNan32 s then { s := s, c := 0, ovf := isInf32 s, nan := isNan32 s }
  else if isInf32 c || isNan32 c then { s := s, c := 0, ovf := true }
  else { s := s, c := c }

/-- The exact error of a rounded sum, in binary32 (R214). -/
def sumErr (s x : Nat) : Nat :=
  fl (ofUnits (units (val32 s) + units (val32 x) - units (val32 (fl32Add s x))))

/-- R214 and R215: the pair-add. -/
def pairAdd (s c x : Nat) : ElemOut := compFix (fl32Add s x) (fl32Add c (sumErr s x))

/-- R230: the compensated fold. -/
def pairFold (sa ca sb cb : Nat) : ElemOut := compFix (fl32Add sa sb) (fl32Add (fl32Add ca cb) (sumErr sa sb))

/-- R232: finalising an element. -/
def finElem (s c : Nat) : ElemOut :=
  let r := fl32Add s c
  { s := r, c := 0, ovf := isInf32 r, nan := isNan32 r }

/-- A number of `w` bits read as signed. -/
def sgn (w n : Nat) : Int := if bit n (w - 1) then (n % 2 ^ w : Nat) - (2 ^ w : Nat) else (n % 2 ^ w : Nat)

/-- R214, R215, R239: the INT64 add. -/
def intAdd (s x : Nat) : ElemOut :=
  let t := sgn 64 s + sgn 64 x
  { s := (s + x) % 2 ^ 64, ovf := t < -(2 ^ 63 : Nat) || (2 ^ 63 : Nat) ≤ t }

/-- R212: the binary32 encoding of an addend of a plain format. -/
def widen (f : Fmt) (n : Nat) : Nat := fl (f.decode n)

/-- R212: the binary32 encoding of an MX element under its block scale byte. -/
def mxElem (f : Fmt) (x n : Nat) : Nat :=
  if x == 0xFF then qnan else fl (fmul (.fin false 1 ((x : Int) - 127)) (f.decode n))

/-- The order of R219 on binary32 numbers that are not NaN: −0 below +0. -/
def fle (a b : Nat) : Bool :=
  let key (n : Nat) : Int := if bit n 31 then -((n % 2 ^ 31 : Nat) : Int) - 1 else (n % 2 ^ 31 : Nat)
  key a ≤ key b

/-- What a conversion of the outflow gives: the encoding, and whether it counts `OUTFLOW_SAT` or `OUTFLOW_NAN`. -/
structure ConvOut where
  enc : Nat
  sat : Bool := false
  nan : Bool := false
deriving DecidableEq, Repr

/-- R229 for a floating-point output format narrower than binary32. -/
def convert (f : Fmt) (nanEnc : Nat) (sat : Bool) (v : FVal) : ConvOut :=
  match v with
  | .nan => { enc := nanEnc }
  | .inf neg =>
    if f.ieee then { enc := f.sign neg + f.maxFin + 1 }
    else if sat then { enc := f.sign neg + f.maxFin, sat := true } else { enc := nanEnc, nan := true }
  | .fin neg m e =>
    let r := f.roundMag m e
    if r ≤ f.maxFin then { enc := f.sign neg + r }
    else if sat then { enc := f.sign neg + f.maxFin, sat := true }
    else if f.ieee then { enc := f.sign neg + f.maxFin + 1 }
    else { enc := nanEnc, nan := true }

/-- R229: convert a binary32 element to `OFMT` 0 to 4. -/
def convertFp (ofmt : Nat) (sat : Bool) (w : Nat) : ConvOut :=
  match ofmt with
  | 1 => convert fp16 0x7E00 sat (val32 w)
  | 2 => convert bf16 0x7FC0 sat (val32 w)
  | 3 => convert e4m3 0x7F sat (val32 w)
  | 4 => convert e5m2 0x7E sat (val32 w)
  | _ => { enc := fl (val32 w) }

/-- R229: convert an INT64 element to `OFMT` 5 or 6. -/
def convertInt (ofmt : Nat) (sat : Bool) (w : Nat) : ConvOut :=
  if ofmt == 6 then
    let v := sgn 64 w
    if sat && v < -(2 ^ 31 : Nat) then { enc := 2 ^ 31, sat := true }
    else if sat && (2 ^ 31 : Nat) ≤ v then { enc := 2 ^ 31 - 1, sat := true }
    else { enc := w % 2 ^ 32 }
  else { enc := w }

/-- Bytes of an output element (R228). -/
def ofmtBytes : Nat → Nat
  | 0 => 4 | 1 => 2 | 2 => 2 | 3 => 1 | 4 => 1 | 5 => 8 | _ => 4

end Sys2Proof.Machine
end

