-- ==== Sys2Proof/Machine/Operands.lean ====
section
/-! DEFINITION. Operand forms: sizes and data of the fabric opcodes (R155, R216, R217, R227, R247, R265), and the
header checks of R16 and R156. -/

namespace Sys2Proof

/-- R15: bytes of a size code. -/
def sizeBytes (c : Nat) : Nat := 2 ^ c

/-- R155, R216, R247, R265: the sizes an opcode allows. -/
def ReqOp.sizeOk (o : ReqOp) (c : Nat) : Bool :=
  match o with
  | .rdOnce => c ≤ 7
  | .wrFull | .append => c == 6 || c == 7
  | .wrPartial => c ≤ 5
  | .atAdd | .atMin | .atMax | .atAnd | .atOr | .atXor | .atSwap => c == 2 || c == 3
  | .atCadd => c == 2
  | .atCas64 => c == 3
  | .atCas128 => c == 4
  | .accumulate | .winArrive | .winFold | .winCollect | .cueRing => c == 6
  | _ => c == 7

/-- `DAT` in flits a request carries. -/
def ReqOp.flits (o : ReqOp) (size : Nat) : Nat :=
  match o with
  | .wrFull | .append => if size == 7 then 2 else 1
  | .writeback | .writeclean => 2
  | .wrPartial | .accumulate | .rdFused | .winArrive | .winFold | .winCollect | .cueRing => 1
  | _ => if o.isAt then 1 else 0

/-- Every `DAT` in flit of the request has arrived. -/
def Req.dataIn (q : Req) (o : ReqOp) : Bool := o.flits q.size ≤ q.dat.length

/-- Line of a request. -/
def Req.line (q : Req) : Nat := bits q.addr 51 7

/-- Sector `ADDR[6]`. -/
def Req.sector (q : Req) : Nat := bits q.addr 6 6

/-- The payload of a request with one flit. -/
def Req.payload (q : Req) : Sector := ((q.dat.head?).map (·.data)).getD 0

/-- The flit of a sector, for requests that write sectors. -/
def Req.flit (q : Req) (i : Nat) : Option DatFlit := q.dat.find? (·.sector == i)

/-- The request covers sector `i`. -/
def Req.covers (q : Req) (i : Nat) : Bool := q.size == 7 || q.sector == i

/-- The flit that carries sector `i`: by its sector bit, else the only flit. -/
def Req.dataAt (q : Req) (i : Nat) : Sector × Bool :=
  match q.flit i with
  | some f => (f.data, f.poison)
  | none => match q.dat.head? with
    | some f => (f.data, f.poison)
    | none => (0, false)

/-- Requests that act on a header or a bell and touch no line (R247, R265). -/
def ReqOp.isCtl : ReqOp → Bool
  | .winArrive | .winFold | .winCollect | .cueRing => true
  | _ => false

/-- Opcodes whose payload is checked before they act on the line. -/
def ReqOp.checked (o : ReqOp) : Bool := o.isAt || o == .accumulate || o == .rdFused

end Sys2Proof

namespace Sys2Proof.Machine

open Sys2Proof

/-- R16, R156: the header checks; true when the request completes with `ABORTED`. -/
def State.badHeader (s : State) (o : ReqOp) (q : Req) : Bool :=
  (match o with | .other _ => true | _ => false) ||
  !o.sizeOk q.size || q.addr % sizeBytes q.size != 0 ||
  (o.isAtomic && 5 ≤ q.scope) || (q.provisional && !o.isRead) || q.reserved != 0 ||
  !(s.routeOf q.agent).present

/-- R384: the `DETAIL` of a header record. -/
def hdrDetail (o : ReqOp) (q : Req) : Nat := o.code % 256 + q.txid * 256

/-- The port number a request shows in the log: 12 for a request from `SPAN`. -/
def logPort (q : Req) (tag : Option Nat) : Nat := if tag.isSome then 12 else q.port

/-- Log `HDR_ABORT` (R16, R156, R204, R224). -/
def State.logHdr (o : ReqOp) (q : Req) (tag : Option Nat) (s : State) : State :=
  s.log { source := 0x001, part := q.part, agent := q.agent, port := logPort q tag, addr := q.addr,
          detail := hdrDetail o q }

/-- The operands of an atomic (R217). -/
structure AtOp where
  opa : Nat
  opb : Nat
  typ : Nat
  fetch : Bool
  resvOk : Bool

/-- R217: decode the payload; reserved are `CTRL[63:4]`, bytes 40 to 63, and `OPB` outside a CAS. -/
def atOperand (o : ReqOp) (d : Sector) : AtOp :=
  let ctrl := getBytes d 32 8
  { opa := getBytes d 0 16, opb := getBytes d 16 16, typ := bits ctrl 2 0, fetch := bit ctrl 3,
    resvOk := ctrl >>> 4 == 0 && getBytes d 40 24 == 0 &&
      (o == .atCas64 || o == .atCas128 || getBytes d 16 16 == 0) }

/-- R218: the types an opcode accepts at its size. -/
def atTypeOk (o : ReqOp) (typ size : Nat) : Bool :=
  match o with
  | .atAdd | .atMin | .atMax => if size == 2 then typ ≤ 1 || typ == 4 else typ == 2 || typ == 3
  | .atCadd => typ == 4
  | .atAnd | .atOr | .atXor | .atSwap => if size == 2 then typ ≤ 1 else typ == 2 || typ == 3
  | .atCas64 => typ == 2 || typ == 3
  | _ => typ == 5

/-- An outflow descriptor (R227). -/
structure OutDesc where
  opnd : Nat := 0
  fuse : Nat := 0
  scaleEn : Bool := false
  scale : Nat := 0
deriving DecidableEq, Repr

/-- R227: the descriptor of two words. -/
def outDesc (w0 w1 : Nat) : OutDesc :=
  { opnd := bits w0 51 0, fuse := bits w0 53 52, scaleEn := bit w0 54, scale := bits w1 31 0 }

/-- R227: a reserved field of the descriptor is set, `FUSE` = 3 included. -/
def outDescBad (w0 w1 : Nat) : Bool := bits w0 63 55 != 0 || bits w1 63 32 != 0 || bits w0 53 52 == 3

end Sys2Proof.Machine
end

