-- ==== Sys2Proof/Machine/Engine.lean ====
section
/-! DEFINITION. The reduction engine on lines: payload decoding, atomics, sum elements with residuals, the outflow, lane
checks and sticky flags (R208 to R236). -/

namespace Sys2Proof.Machine

open Sys2Proof

/-! ### Payloads (R211, R212) -/

/-- R211: addends of a payload. -/
def ifmtCount : Nat → Nat
  | 0 => 16 | 10 => 16 | 11 => 16 | 12 => 8 | _ => 32

/-- R211: bits of an element. -/
def ifmtBits : Nat → Nat
  | 0 => 32 | 1 => 16 | 2 => 16 | 7 => 6 | 8 => 6 | 9 => 4 | 11 => 32 | 12 => 64 | _ => 8

/-- R211: bytes of the payload that hold elements and the block scale. -/
def ifmtUsed (i : Nat) : Nat := ifmtCount i * ifmtBits i / 8 + (if 5 ≤ i && i ≤ 9 then 1 else 0)

/-- R211: the target span in bytes. -/
def ifmtSpan : Nat → Nat
  | 0 => 64 | 12 => 64 | _ => 128

/-- R212: decode element `n` of a format under scale byte `x`: a binary32 or a 64-bit encoding. -/
def decodeElem (i x n : Nat) : Nat :=
  match i with
  | 0 => fl (val32 n)
  | 1 => widen fp16 n
  | 2 => widen bf16 n
  | 3 => widen e4m3 n
  | 4 => widen e5m2 n
  | 5 => mxElem e4m3 x n
  | 6 => mxElem e5m2 x n
  | 7 => mxElem e2m3 x n
  | 8 => mxElem e3m2 x n
  | 9 => mxElem e2m1 x n
  | 10 => (n + (if bit n 7 then 2 ^ 64 - 2 ^ 8 else 0)) % 2 ^ 64
  | 11 => (n + (if bit n 31 then 2 ^ 64 - 2 ^ 32 else 0)) % 2 ^ 64
  | _ => n

/-- R211, R212: the decoded addends of a payload, or none when a reserved byte is set. -/
def decodePayload (i : Nat) (d : Sector) : Option (List Nat) :=
  if d.toNat >>> (8 * ifmtUsed i) != 0 then none
  else
    let w := ifmtBits i
    let x := getBytes d (ifmtCount i * w / 8) 1
    some ((List.range (ifmtCount i)).map fun k => decodeElem i x ((d.toNat >>> (w * k)) % 2 ^ w))

/-! ### Windows as places (R222, R242, R243) -/

/-- Bytes of a sum element. -/
def accBytes (acc : Nat) : Nat := if acc == 2 then 8 else 4

/-- The line lies in the window's plane. -/
def Window.holds (w : Window) (line : Nat) : Bool :=
  w.base / 128 ≤ line && line < (w.base + w.size * 2 ^ 21) / 128

/-- R222, R246, R493: the window whose sum plane holds a line. -/
def State.sumWin (s : State) (line : Nat) : Option Nat :=
  s.wins.findIdx? fun w => w.st != .idle && w.arming.isNone && w.holds line

/-- The header address a request may use: the one being armed, else the header's own. -/
def Window.hdrNow (w : Window) : Nat := (w.arming.map (·.hdr)).getD w.hdr

/-- R243, R493: the window whose header line this is, arming windows included. -/
def State.hdrWin (s : State) (line : Nat) : Option Nat :=
  s.wins.findIdx? fun w => (w.st != .idle || w.arming.isSome) && w.hdrNow / 128 == line

/-- Encoding of `STATE` (R242). -/
def WinState.code : WinState → Nat
  | .idle => 0 | .armed => 1 | .opened => 2 | .sealed => 3 | .final => 4 | .collected => 5

/-- R242: the ready word. -/
def Window.ready (w : Window) : Nat := w.gen.toNat + w.st.code * 2 ^ 32 + w.count * 2 ^ 40

/-- R241: the header. -/
def Window.header (w : Window) : Sector :=
  BitVec.ofNat 512 (
    w.ready + (w.base + w.size * 2 ^ 52) * 2 ^ 64 +
    (w.expect + w.acc * 2 ^ 24 + w.ifmt * 2 ^ 26 + w.ofmt * 2 ^ 30 + b2n w.sat * 2 ^ 33 + b2n w.autoFin * 2 ^ 34 +
      w.part * 2 ^ 35 + w.lens * 2 ^ 39 + b2n w.ovf * 2 ^ 47 + b2n w.nan * 2 ^ 48) * 2 ^ 128 +
    (w.late + w.cause * 2 ^ 32) * 2 ^ 192 + w.hdr * 2 ^ 256)

/-- R242: the fields of a header that requests change. -/
def Window.snap (x : Window) : WinSnap :=
  { st := x.st, gen := x.gen, count := x.count, late := x.late, cause := x.cause, ovf := x.ovf, nan := x.nan }

/-- R242: a header with these fields. -/
def Window.withSnap (x : Window) (k : WinSnap) : Window :=
  { x with st := k.st, gen := k.gen, count := k.count, late := k.late, cause := k.cause, ovf := k.ovf, nan := k.nan }

/-- R242, R249: a request with order `id` changes a window; reads of the header ordered after it and not answered yet show the change,
those ordered before it do not. -/
def State.orderedWin (w id : Nat) (f : WinSnap → WinSnap) (s : State) : State :=
  let s := s.setWin w fun x => x.withSnap (f x.snap)
  { s with txns := s.txns.map fun (t : Txn) =>
      if t.hdrRd && t.late == some w && id < t.id then { t with snap := f t.snap } else t }

/-- R215: set the sticky flags of a window, for the request with order `id`. -/
def State.setSticky (w id : Nat) (ovf nan : Bool) (s : State) : State :=
  if ovf || nan then s.orderedWin w id fun x => { x with ovf := x.ovf || ovf, nan := x.nan || nan } else s

/-! ### Lanes (R208, R236) -/

/-- R236: mark sector `i` of a line, and of its residual line where it has one, poisoned. Where the array does not hold the sector,
its copy in the line's register takes the mark, and memory gets it through the write-back buffer (R221). -/
def State.markPoison (line part i : Nat) (s : State) : State :=
  let mark (c : Option CLine) (t : State) : State :=
    match c with
    | some c => t.putLine (c.setSec i (c.sec i).spoilt)
    | none => t
  let s := s.voidProv line
  match s.lineOf line, s.sector line i with
  | none, some (d, _) => s.wbPut line part i d true
  | c, _ => mark (s.residOf line) (mark c s)

/-- R236: the next lane operation on facet `f` mismatches. -/
def State.laneFault (f : Nat) (s : State) : Option Inject := s.fault fun j => j.kind == 6 && j.set == f

/-- R236: a mismatch retires a lane, which Config picks (log entry 23), and is recorded under `source`. -/
def State.retireLane (j : Inject) (f source part addr : Nat) (s : State) : State :=
  let lane := (Config.freeLane s.fresh).toNat
  let s := s.metFault j
  State.log { source := source, part := part, addr := addr, detail := f + lane * 16 }
    { s with lanes := s.lanes.modify f (· - 1), fresh := s.fresh + 1 }

/-- R236: a facet without a lane asserts `FATAL`. -/
def State.facetLost (f : Nat) (s : State) : State :=
  if s.lanes.getD f 0 == 0 then s.report { source := 0x010, detail := f } else s

/-- R208, R236, R478: `n` lane operations on a sector of a line, in the facet of that sector. A residue mismatch retires a lane
and the operation is repeated on another; when that one mismatches too it is retired as well and the sector and its residual
are poisoned, which the flag says. DESIGN CHOICE (log entry 125): a mismatch on the facet's last lane leaves none to repeat the
operation on; the model counts the repetition and keeps its result, and the facet's loss asserts `FATAL`. Of the operations `pair` are
pair additions and `conv` decodings or conversions (R431, log entry 141). -/
def State.laneOps (line sec n : Nat) (part : Nat) (s : State) (pair : Nat := 0) (conv : Nat := 0) : Bool × State :=
  if n == 0 then (false, s)
  else
    let s := (((s.countN Ev.laneOp (some part) n).act 4 pair).act 5 (n - pair - conv)).act 6 conv
    let f := facetOf (setOf line) sec
    let s := (s.use 4 n).sign 0x30 (2 ^ f) (2 ^ f) (some part)
    let addr := line * 128 + sec * 64
    match s.laneFault f with
    | none => (false, s)
    | some j =>
      let s := s.sign 0x30 (2 ^ (16 + f)) (2 ^ (16 + f)) (some part)
      match (s.metFault j).laneFault f with
      | none => (false, ((s.retireLane j f 0x00E part addr).count Ev.laneRetry none).facetLost f)
      | some k =>
        let s := (s.retireLane j f 0x00F part addr).retireLane k f 0x00F part addr
        (true, (s.markPoison line part sec).facetLost f)

/-! ### Atomics (R219) -/

/-- R219 on the element value: the new value. -/
def atCompute (o : ReqOp) (typ size m opa opb : Nat) : Nat :=
  let w := 8 * 2 ^ size
  let x := opa % 2 ^ w
  match o with
  | .atAdd => if typ == 4 then fl32Add m x else (m + x) % 2 ^ w
  | .atMin =>
    if typ == 4 then
      (if isNan32 m || isNan32 x then qnan else if fle m x then m else x)
    else if typ % 2 == 0 then (if sgn w m ≤ sgn w x then m else x) else min m x
  | .atMax =>
    if typ == 4 then
      (if isNan32 m || isNan32 x then qnan else if fle m x then x else m)
    else if typ % 2 == 0 then (if sgn w m ≤ sgn w x then x else m) else max m x
  | .atAnd => m &&& x
  | .atOr => m ||| x
  | .atXor => m ^^^ x
  | .atSwap => x
  | _ => if m == x then opb % 2 ^ w else m

/-! ### Sum elements (R214, R225, R230, R232) -/

/-- One element operation of the window's accumulator. -/
def addElem (acc s c x : Nat) : ElemOut :=
  match acc with
  | 0 => plainAdd s x
  | 1 => pairAdd s c x
  | _ => intAdd s x

/-- R225: what a read of an element gives. -/
def readElem (acc s c : Nat) : Nat := if acc == 1 then fl32Add s c else s

/-- Apply a list of addends to consecutive elements from byte `off` of a (sum, residual) sector pair. -/
def addSector (acc : Nat) : List Nat → Nat → Sector → Sector → Bool → Bool → Sector × Sector × Bool × Bool
  | [], _, s, c, o, n => (s, c, o, n)
  | x :: l, off, s, c, o, n =>
    let e := accBytes acc
    let r := addElem acc (getBytes s off e) (getBytes c off e) x
    addSector acc l (off + e) (setBytes s off e r.s) (if acc == 1 then setBytes c off e r.c else c)
      (o || r.ovf) (n || r.nan)

/-- A sector of a line and of its residual (zero when there is none), and whether one is poisoned. -/
def State.sumPair (s : State) (line i : Nat) : Sector × Sector × Bool :=
  let a := (s.lineOf line).map (·.sec i)
  let r := (s.residOf line).map (·.sec i)
  ((a.map (·.value)).getD 0, (r.map (·.value)).getD 0, (a.map (·.poison)).getD false || (r.map (·.poison)).getD false)

/-- Write a sum sector and, in an FP32C window, its residual (R92). -/
def State.putPair (line i acc : Nat) (sum res : Sector) (s : State) : State :=
  let s := match s.lineOf line with
    | some c => (s.bankWrite c.way 1).putLine (c.write i sum 0 64 false)
    | none => s
  if acc == 1 then
    match s.residOf line with
    | some c => (s.bankWrite c.way 1).putLine (c.write i res 0 64 false)
    | none => s
  else s

/-- R223, R235: before an operation on sums changes anything, its banks are read and its lanes checked: a sector of the line, with
`lanes` lane operations, `conv` of them decodings. The flag says that the sum or its residual is poisoned. -/
def State.accRead (w line i lanes : Nat) (s : State) (conv : Nat := 0) : Bool × State :=
  let pair := if (s.win w).acc == 1 then lanes - conv else 0
  let (_, s) := (s.readLineData line (i == 0) (i == 1)).laneOps line i lanes (s.win w).part pair conv
  ((s.sumPair line i).2.2, s)

/-- R223: the request with order `id` adds addends to the elements of sector `i` from byte `off`. -/
def State.accApply (w id line i off : Nat) (xs : List Nat) (s : State) : State :=
  let acc := (s.win w).acc
  let (a, c, _) := s.sumPair line i
  let (a, c, o, n) := addSector acc xs off a c false false
  (s.putPair line i acc a c).setSticky w id o n

/-! ### The outflow (R226 to R229) -/

/-- R226: one output element. -/
def outElem (w : Window) (d : OutDesc) (v o : Nat) : ConvOut :=
  if w.acc == 2 then convertInt w.ofmt w.sat v
  else
    let x := match d.fuse with
      | 1 => fl32Add v o
      | 2 => fl32Mul v o
      | _ => v
    let x := if d.scaleEn then fl32Mul x d.scale else x
    convertFp w.ofmt w.sat x

/-- R225, R226: the output bytes of a 128 B sum line as a number, with the counts of `OUTFLOW_SAT` and
`OUTFLOW_NAN`. -/
def outLine (w : Window) (d : OutDesc) (sum res op : Nat) : Nat × Nat × Nat :=
  let e := accBytes w.acc
  let b := ofmtBytes w.ofmt
  (List.range (128 / e)).foldl (fun (t : Nat × Nat × Nat) k =>
    let v := readElem w.acc ((sum >>> (8 * e * k)) % 2 ^ (8 * e)) ((res >>> (8 * e * k)) % 2 ^ (8 * e))
    let r := outElem w d v ((op >>> (32 * k)) % 2 ^ 32)
    (t.1 + (r.enc <<< (8 * b * k)), t.2.1 + b2n r.sat, t.2.2 + b2n r.nan)) (0, 0, 0)

/-- Lane operations of an outflow element (R233). -/
def outLanes (d : OutDesc) : Nat := 1 + b2n (d.fuse != 0) + b2n d.scaleEn

/-- Both sectors of a line as one number. -/
def both128 (lo hi : Sector) : Nat := lo.toNat + hi.toNat * 2 ^ 512

/-- A sector of a 128 B number. -/
def part128 (n i : Nat) : Sector := BitVec.ofNat 512 (n >>> (512 * i))

/-- Output bytes of a sum line (R228). -/
def outBytes (w : Window) : Nat := 128 / accBytes w.acc * ofmtBytes w.ofmt

/-- R235: a piece of `n` output bytes from byte `i` of a line's output holds an element of a poisoned sector: the first half
of the output comes from the lower sector. -/
def outPoison (w : Window) (pLo pHi : Bool) (i n : Nat) : Bool :=
  (pLo && 2 * i < outBytes w) || (pHi && outBytes w < 2 * (i + n))

/-- R225, R228, R233: the outflow reads a sum line: both sums and residuals, and which sectors are poisoned, after `n` lane
operations on each sector, `conv` of them conversions; what it has read stands in its staging (R445). -/
def State.outRead (line n conv part : Nat) (s : State) : Sector × Sector × Sector × Sector × Bool × Bool × State :=
  let (_, s) := (s.readLineData line true true).laneOps line 0 n part 0 conv
  let (_, s) := s.laneOps line 1 n part 0 conv
  let (a0, c0, p0) := s.sumPair line 0
  let (a1, c1, p1) := s.sumPair line 1
  let (b0, s) := s.staged line 0 part
  let (b1, s) := s.staged line 1 part
  (a0, c0, a1, c1, p0 || b0, p1 || b1, s)

/-- R228, R445: the operand line of a fused outflow is read from its staging: what stands in it, each half with its poison. -/
def State.opRead (line part : Nat) (lo hi : Option (Sector × Bool)) (s : State) : (Sector × Bool) × (Sector × Bool) × State :=
  let (b0, s) := if lo.isSome then s.staged line 0 part else (false, s)
  let (b1, s) := if hi.isSome then s.staged line 1 part else (false, s)
  let (o0, q0) := lo.getD (0, false)
  let (o1, q1) := hi.getD (0, false)
  ((o0, q0 || b0), (o1, q1 || b1), s)

/-! ### Lines of folds, finalisation and collects (R230, R232, R235, R253) -/

/-- R230: one element of a fold. -/
def foldElem (acc sa ca sb cb : Nat) : ElemOut :=
  match acc with
  | 0 => plainAdd sa sb
  | 1 => pairFold sa ca sb cb
  | _ => intAdd sa sb

/-- R230: fold sector numbers of the source into the destination's, element by element. -/
def foldSector (acc : Nat) (sa ca sb cb : Sector) : Sector × Sector × Bool × Bool :=
  let e := accBytes acc
  (List.range (64 / e)).foldl (fun (t : Sector × Sector × Bool × Bool) k =>
    let r := foldElem acc (getBytes sa (e * k) e) (getBytes ca (e * k) e) (getBytes sb (e * k) e) (getBytes cb (e * k) e)
    (setBytes t.1 (e * k) e r.s, if acc == 1 then setBytes t.2.1 (e * k) e r.c else t.2.1,
     t.2.2.1 || r.ovf, t.2.2.2 || r.nan)) (sa, ca, false, false)

/-- R235: a poisoned source leaves the destination sector as it is and poisons it. -/
def State.poisonSum (line i : Nat) (s : State) : State :=
  match s.lineOf line with
  | some c => (s.voidProv line).putLine (c.setSec i (c.sec i).spoilt)
  | none => s

/-- R230, R231, R235: fold sector `i` of a source line into the destination line; the flag says it was poisoned. -/
def State.foldSec (w src line i : Nat) (s : State) : Bool × State :=
  let x := s.win w
  let s := (s.readLookup src).readLookup line
  let s := (s.readLineData src (i == 0) (i == 1)).readLineData line (i == 0) (i == 1)
  let n := 64 / accBytes x.acc * (if x.acc == 1 then 2 else 1)
  let (_, s) := s.laneOps line i n x.part (if x.acc == 1 then n else 0)
  let (sb, cb, pb) := s.sumPair src i
  let (bb, s) := s.staged src i x.part
  let (sa, ca, pa) := s.sumPair line i
  if pb || bb then (true, s.poisonSum line i)
  else if pa then (true, s)
  else
    let (a, c, o, n) := foldSector x.acc sa ca sb cb
    (false, (s.putPair line i x.acc a c).setSticky w s.nextId o n)

/-- R232: finalise both sectors of a line of an FP32C window; a poisoned pair stays as it is. -/
def State.finSec (w line i : Nat) (s : State) : State :=
  let (_, s) := ((s.readLookup line).readLineData line (i == 0) (i == 1)).laneOps line i 16 (s.win w).part
  let (a, c, p) := s.sumPair line i
  if p then s
  else
    let r := (List.range 16).foldl (fun (t : Sector × Bool × Bool) k =>
      let r := finElem (getBytes a (4 * k) 4) (getBytes c (4 * k) 4)
      (setBytes t.1 (4 * k) 4 r.s, t.2.1 || r.ovf, t.2.2 || r.nan)) (a, false, false)
    let s := match s.lineOf line with
      | some x => (s.bankWrite x.way 1).putLine (x.write i r.1 0 64 false)
      | none => s
    let s := match s.residOf line with
      | some x => s.putLine (x.setSec i Sec.zero)
      | none => s
    s.setSticky w s.nextId r.2.1 r.2.2

/-- R31, R205, R253: write the output bytes of a line, in pieces aligned to their size. -/
def State.outWrites (w addr total n : Nat) (bad : Nat → Nat → Bool) (s : State) : State :=
  let piece := if addr % 64 == 0 && 64 ≤ total then 64 else 32
  (List.range (total / piece)).foldl (fun t i =>
    let a := addr + i * piece
    t.writeUc a (if piece == 64 then 6 else 5) (t.win w).part
      (BitVec.ofNat 512 (((n >>> (8 * i * piece)) % 2 ^ (8 * piece)) <<< (8 * (a % 64)))) (bad (i * piece) piece)
      (.collect w)) s

/-- R253 steps 2 and 3 on one sum line, with its operand line when the descriptor fuses one. -/
def State.collectLine (w line : Nat) (lo hi : Option (Sector × Bool)) (s : State) : State :=
  let x := s.win w
  match x.col with
  | none => s
  | some c =>
    let d := outDesc c.d0 c.d1
    let (a0, c0, a1, c1, pLo, pHi, s) := s.outRead line (outLanes d * (64 / accBytes x.acc)) (64 / accBytes x.acc) x.part
    let ((o0, q0), (o1, q1), s) := s.opRead (addrLine (d.opnd + (line * 128 - x.base))) x.part lo hi
    let pLo := pLo || (d.fuse != 0 && q0)
    let pHi := pHi || (d.fuse != 0 && q1)
    let (n, sat, nan) := outLine x d (both128 a0 a1) (both128 c0 c1) (both128 o0 o1)
    let s := (s.countN Ev.outflowSat (some x.part) sat).countN Ev.outflowNan (some x.part) nan
    let off := line * 128 - x.base
    let s := if c.noOut then s
      else s.outWrites w (c.dst + off / accBytes x.acc * ofmtBytes x.ofmt) (outBytes x) n (outPoison x pLo pHi)
    let s := s.setWin w fun y => { y with colPoison := y.colPoison || pLo || pHi, colLines := y.colLines + 1 }
    let s := (s.voidProv line).zeroLineOp line (some x.part) (some x.lens)
    match s.residOf line with
    | some r => s.putLine { r with lo := Sec.zero, hi := Sec.zero }
    | none => s

/-! ### Placing facts of R255 -/

/-- The smallest power of two at or above a plane of `size` units of 2 MiB. -/
def planePow (size : Nat) : Nat := 2 ^ 21 * 2 ^ ((List.range 6).find? (fun k => size ≤ 2 ^ k)).getD 5

end Sys2Proof.Machine
end

