-- ==== Sys2Proof/Machine/Hot.lean ====
section
/-! DEFINITION. Hot-page counting: access counters, notifications, epochs and the notification ring (R330 to R334). -/

namespace Sys2Proof.Machine

open Sys2Proof

/-- Put a counter in page order; a counter at zero without its notified bit is not listed. -/
def hotPut (j n : Nat) (b : Bool) : List (Nat × Nat × Bool) → List (Nat × Nat × Bool)
  | [] => if n == 0 && !b then [] else [(j, n, b)]
  | x :: l =>
    if x.1 < j then x :: hotPut j n b l
    else
      let rest := if x.1 == j then l else x :: l
      if n == 0 && !b then rest else (j, n, b) :: rest

/-- R330: the counter of a line's page, when it lies in the count window. -/
def HotUnit.index (h : HotUnit) (line : Nat) : Option Nat :=
  if line / 2 ^ 29 == h.base then some (line / 2 ^ 14 % 2 ^ 15) else none

/-- R332: the notification record of a page. -/
def hotRecord (base j count mode pos epoch : Nat) : Word × Word :=
  (BitVec.ofNat 64 (base * 2 ^ 15 + j + count * 2 ^ 31 + mode * 2 ^ 47 + pos * 2 ^ 48), BitVec.ofNat 64 (epoch % 2 ^ 16))

/-- Ring size in records (R326, R330). -/
def HotUnit.ringSize (h : HotUnit) : Nat := 2 ^ h.ringLog

/-- R326, R330: write the staged notifications that have room in the ring. -/
def State.hotDrain : Nat → State → State
  | 0, s => s
  | n + 1, s =>
    match s.hot.staged with
    | [] => s
    | (w0, w1) :: rest =>
      let h := s.hot
      if !h.ringEn || h.ringSize ≤ (h.prod + 65536 - h.cons) % 65536 then s
      else
        let addr := h.ringBase + 16 * (h.prod % h.ringSize)
        let w1 := w1.toNat + b2n (bit h.prod h.ringLog) * 2 ^ 63
        let d : Sector := BitVec.ofNat 512 ((w0.toNat + w1 * 2 ^ 64) * 2 ^ (8 * (addr % 64)))
        let s := { s with hot := { h with staged := rest, prod := (h.prod + 1) % 65536 } }
        (s.writeUc addr 4 0 d false .plain).hotDrain n

/-- R331: this slice is the line's home, so that a request counts here. -/
def State.countsHere (s : State) (line : Nat) : Bool :=
  s.bucketSt (bucketOf line) == .home || s.bucketSt (bucketOf line) == .outgoing

/-- R331, R332: one request counts for a line's page at its home; `mem` says it read a sector from memory. A counter that stands above a
threshold written since has reached it (log entry 59). -/
def State.hotCount (line : Nat) (mem : Bool) (s : State) : State :=
  let h := s.hot
  if !h.en || (h.mode == 1 && !mem) || !s.countsHere line then s
  else match h.index line with
    | none => s
    | some j =>
      let (n, b) := match h.ctrs.find? (fun x => x.1 == j) with
        | some (_, n, b) => (n, b)
        | none => (0, false)
      let n := min (n + 1) 65535
      if h.thresh ≤ n && !b then
        let s := { s with hot := { h with ctrs := hotPut j n true h.ctrs } }
        if !h.ringEn || 8 ≤ h.staged.length then s.count Ev.hotDrop none
        else
          let r := hotRecord h.base j n h.mode s.position h.epochNo
          State.hotDrain 8 (State.setStatus 2 { s with hot := { s.hot with staged := h.staged ++ [r] } })
      else { s with hot := { h with ctrs := hotPut j n b h.ctrs } }

/-- R333: the next epoch: every counter halves, and the notified bit of one below `HOT_THRESH` clears. -/
def State.hotEpochStep (s : State) : State :=
  let h := s.hot
  let l := h.ctrs.map fun (x : Nat × Nat × Bool) => (x.1, x.2.1 / 2, x.2.2 && h.thresh ≤ x.2.1 / 2)
  { s with hot := { h with epochNo := (h.epochNo + 1) % 65536,
                           ctrs := l.filter fun (x : Nat × Nat × Bool) => x.2.1 != 0 || x.2.2 } }

/-- R330, R334: clear every counter and notified bit. -/
def State.hotClear (s : State) : State := { s with hot := { s.hot with ctrs := [] } }

end Sys2Proof.Machine
end

