-- ==== Sys2Proof/Machine/Serve.lean ====
section
/-! DEFINITION. Serving a line at its home: miss registers, transactions in line order, the directory actions of R171,
effects of every coherent request, and the line work of range operations and fills (R82, R101, R107, R116, R127 to
R137, R169 to R176, R219 to R228). -/

namespace Sys2Proof.Machine

open Sys2Proof

/-! ### Needs of a request (R129, R171) -/

/-- A grant may follow: `RD_SHARED` outside a `REDUCTION` lens (R172). -/
def State.mayGrant (s : State) (lens : Option Nat) : Bool := !(s.descOf lens).reduction

/-- R172: the lens allows only S. -/
def State.onlyShared (s : State) (lens : Option Nat) : Bool :=
  (s.descOf lens).readOnly || (s.descOf lens).mirror

/-- R97: the first check that fails decides: the status, and the `DETAIL` of the record. Notices, `CONFIRM` and `CANCEL`
are taken while their partition is under resilver (R464). -/
def State.check97 (s : State) (op : ReqOp) (q : Req) (lens : Option Nat) : Option (Status × Nat) :=
  let d := s.descOf lens
  let slot := lens.getD 0
  let taken := op.isNotice || op == .confirm || op == .cancel
  if !(if taken then (s.part q.part).active else s.served q.part) then some (.accessDenied, slot)
  else if q.fenced && !d.openFenced then some (.accessDenied, slot)
  else if lens.isSome && d.part != q.part then some (.accessDenied, slot)
  else if op == .cueRing then none
  else if op.isWrite && !op.isNotice && (d.readOnly || d.mirror) then some (.accessDenied, slot)
  else if op == .append && !d.append then some (.aborted, 0)
  else match s.lineOf q.line with
    | some c => if c.part != q.part then some (.accessDenied, slot + c.part * 256) else none
    | none => none

/-- R171: an `UPGRADE` by a recorded sharer (1) or owner in O (2); anything else is served as `RD_UNIQUE` (0). DESIGN CHOICE (log
entry 56): so is one from the owner of a `DE` entry, of which the table of R171 has no row. -/
def upgradeRole (e : Option DirEnt) (a : Nat) : Nat :=
  match e with
  | none => 0
  | some e =>
    if e.owner == some a then (if e.excl then 0 else 2)
    else if e.records a then 1 else 0

/-- The sectors whose data the request needs from the array, the buffer or memory (R82, R129, R171, R221). -/
def needs (op : ReqOp) (q : Req) (e : Option DirEnt) : Bool × Bool :=
  let one := (q.sector == 0, q.sector == 1)
  match op with
  | .rdShared => if (e.bind (·.owner)).isSome && !q.provisional then (false, false) else (true, true)
  | .rdOnce => if (e.bind (·.owner)).isSome && !q.provisional then (false, false)
      else if q.size == 7 then (true, true) else one
  | .rdUnique => (true, true)
  | .upgrade => if upgradeRole e q.agent == 0 then (true, true) else (false, false)
  | .rdFused => (true, true)
  | .wrPartial => one
  | .accumulate => (false, false)
  | _ => if op.isAt then one else (false, false)

/-- R82, R221: a read or an atomic that misses fetches the whole line. -/
def wholeFetch (op : ReqOp) : Bool := op != .wrPartial

/-- The agents a request snoops with `SNP_INV` (R171), by its opcode. -/
def State.invTargets (s : State) (op : ReqOp) (q : Req) (e : Option DirEnt) : List Nat :=
  match e with
  | none => []
  | some e =>
    match op with
    | .rdUnique | .upgrade => s.holders e (some q.agent)
    | .rdShared | .rdOnce | .rdFused => []
    | _ => s.holders e none

/-- A new directory entry is needed (R171, R172). -/
def State.needsEntry (s : State) (op : ReqOp) (q : Req) (lens : Option Nat) (e : Option DirEnt) : Bool :=
  e.isNone && !s.relayed q.line && (match op with
    | .rdShared => !q.provisional && s.mayGrant lens
    | .rdUnique | .upgrade => true
    | _ => false)

/-- The transaction will make its line busy: it snoops or grants (R169). -/
def State.willBusy (s : State) (op : ReqOp) (q : Req) (lens : Option Nat) (e : Option DirEnt) : Bool :=
  !s.relayed q.line && match op with
  | .rdShared => !q.provisional && (s.mayGrant lens || (e.bind (·.owner)).isSome)
  | .rdOnce | .rdFused => !q.provisional && (e.bind (·.owner)).isSome
  | .rdUnique | .upgrade => true
  | _ => !(s.invTargets op q e).isEmpty

/-- The request may allocate its line (R99, R110, R116). -/
def State.mayAlloc (s : State) (op : ReqOp) (q : Req) (lens : Option Nat) : Bool :=
  (!(s.descOf lens).append || op == .append) && !(op.isRead && q.lastUse && !q.provisional)

/-! ### Miss registers (R133 to R136) -/

/-- Waiters of a line's register: the requests in its list that have not been served (R133, R135); one that has timed out has no
effect left and waits no more (R456). -/
def State.lineWaiters (s : State) (line : Nat) : Nat :=
  (s.txns.filter fun t => t.line == line && t.waiter && !t.served && !t.timedOut).length

/-- Waiter entries of a line's register that are in use, or held by a read of an owner's data (R133, R136). -/
def State.lineClaims (s : State) (line : Nat) : Nat :=
  (s.txns.filter fun t => t.line == line && (t.waiter || t.keep) && !t.served && !t.timedOut).length

/-- Waiter entries in use, or held so (R133, R136). -/
def State.poolUsed (s : State) : Nat := (s.txns.filter fun t => (t.waiter || t.keep) && !t.served && !t.timedOut).length

/-- Miss registers in use, and those that a read of an owner's data holds should the answer bring none (R136). -/
def State.regsUsed (s : State) : Nat := s.mrs.length + (s.txns.filter (·.keep)).length

/-- R129, R134: the register whose waiter list a request joins. -/
def State.joinable (s : State) (line : Nat) : Option MissReg :=
  s.mrs.find? fun m => m.line == line && (m.st == .miss || m.st == .fill || m.st == .drain)

/-- Send the memory reads of a fill, the requested sector first (R31, R82, R135). -/
def State.fetch (line part : Nat) (lo hi : Bool) (first : Nat) (s : State) : State :=
  let addr (i : Nat) : Nat := line * 128 + i * 64
  let uc (i : Nat) (t : State) : State :=
    t.memSend { port := t.memPort (addr i), mopc := 2, addr := addr i, size := 6, part := part, use := .fillLine line }
  if lo && hi then
    s.memSend { port := s.memPort (addr 0), mopc := 1, addr := addr first, size := 7, part := part,
                use := .fillLine line }
  else if lo then uc 0 s
  else if hi then uc 1 s
  else s

/-- Update a walk. -/
def State.setWalk (id : Nat) (f : Walk → Walk) (s : State) : State :=
  { s with walks := s.walks.map fun (w : Walk) => if w.id == id then f w else w }

/-- R132, R133: install a fill sector: never over a valid sector; kept in the register when it may not allocate. The
allocation waits when the write-back buffer has no room for its victim (R131). A poisoned sector voids the line's provisional
entries (R141). -/
def State.installFill (line i : Nat) (x : Sec) (s : State) : State :=
  let put (t : State) (part : Nat) : State :=
    let t := t.count Ev.fillSector (some part)
    if x.poison then t.voidProv line else t
  match s.mrOf line with
  | none => s
  | some m =>
    match s.lineOf line with
    | some c => if (c.sec i).v then s else put ((s.bankWrite c.way 1).putLine (c.setSec i x)) m.part
    | none =>
      if !m.alloc || (s.wbSec line i).isSome then s
      else
        let (ok, s) := if i == 0 then s.allocate line m.part m.lens m.rep x {} else s.allocate line m.part m.lens m.rep {} x
        if ok then put s m.part
        else
          { s with mrs := s.mrs.map fun (y : MissReg) =>
              if y.line == line && y.st != .discard && s.place line m.part m.lens != .wait
              then { y with alloc := false } else y }

/-- Every sector the register fetches has arrived. -/
def MissReg.full (m : MissReg) : Bool := (!m.wantLo || m.loGot.isSome) && (!m.wantHi || m.hiGot.isSome)

/-- R134: `MISS`, `FILL` or `DRAIN` by what has been installed, or is kept for waiters that may not allocate. -/
def MissReg.advance (m : MissReg) : MissReg :=
  if m.st != .miss && m.st != .fill then m
  else if m.full then { m with st := .drain }
  else if m.loGot.isSome || m.hiGot.isSome then { m with st := .fill }
  else m

/-- R133, R152: the fill of a walk has arrived in full. -/
def State.walkGot (m : MissReg) (s : State) : State :=
  match m.owner with
  | .walk id =>
    let bad := (m.loGot.map (·.poison)).getD false || (m.hiGot.map (·.poison)).getD false
    s.setWalk id fun (w : Walk) => { w with outFills := w.outFills - 1, sawPoison := w.sawPoison || bad }
  | .fabric => s

/-- R411: a line that is fetched for a `MIRROR` lens with `FILL` = 1 goes to the twin as well. -/
def State.sendFill (m : MissReg) (s : State) : State :=
  match m.lens, m.loGot, m.hiGot with
  | some i, some a, some b =>
    if s.fillOn i && (s.descOf m.lens).mirror && (s.homed m.line || s.relayed m.line) then
      s.spanSend (.fill m.line i [{ sector := 0, data := a.value, poison := a.poison },
                                  { sector := 1, data := b.value, poison := b.poison }])
    else s
  | _, _, _ => s

/-- R131: the register holds data of a line whose allocation waits for the write-back buffer. -/
def State.stuckFill (s : State) (m : MissReg) : Bool :=
  m.alloc && (m.loGot.isSome || m.hiGot.isSome) && (s.lineOf m.line).isNone && (s.wbSec m.line 0).isNone &&
  (s.wbSec m.line 1).isNone && s.place m.line m.part m.lens == .wait

/-- R134: what a line's register holds is installed, and the register moves on; a fill that is complete is shown to its
walk and, where R411 asks for it, to the twin. What the installation moves is charged to the group of the fill (R289, R296). -/
def State.fillUp (line : Nat) (s : State) : State :=
  let s := s.readBuffered line
  match s.mrOf line with
  | none => s
  | some m =>
    if m.st == .spec then s
    else
      let was := s
      let s := if m.grp.isSome then s.runAs m.grp m.agent else s
      let s := match m.loGot with | some x => s.installFill line 0 x | none => s
      let s := match m.hiGot with | some x => s.installFill line 1 x | none => s
      let s := match s.mrOf line with
        | some m =>
          if s.stuckFill m then s
          else { s with mrs := s.mrs.map fun (x : MissReg) => if x.line == line then x.advance else x }
        | none => s
      let s := if m.st != .drain && (s.mrOf line).any (fun x => x.st == .drain) then (s.walkGot m).sendFill m else s
      was.runLike s

/-- R431, R484: a register is allocated. Its number on the debug port is a free value, for the spec does not say which register the slice
takes (log entry 20). -/
def State.takeMr (m : MissReg) (s : State) : State :=
  State.sign 0x20 0x3FE0 ((Config.freeDebug s.fresh).toNat % 2 ^ 9 * 2 ^ 5) (some m.part)
    (State.act 20 1 { s with mrs := s.mrs ++ [m], fresh := s.fresh + 1 })

/-- R134, R136: a register for the missing sectors; a speculative read of the line becomes its fill, with the sectors
that have arrived. -/
def State.openMr (line part : Nat) (lens : Option Nat) (alloc rep : Bool) (owner : MrOwner) (lo hi : Bool)
    (first : Nat) (s : State) : State :=
  if s.mrs.any (fun m => m.line == line && m.st == .spec) then
    State.fillUp line { s with mrs := s.mrs.map fun (m : MissReg) =>
        if m.line == line && m.st == .spec then
          { m with st := .miss, alloc := alloc, lens := lens, part := part, owner := owner, wantLo := true, wantHi := true,
                   grp := s.reg.cur, agent := s.reg.curAgent }
        else m }
  else
    let m : MissReg := { line := line, st := .miss, part := part, lens := lens, alloc := alloc, rep := rep,
                         owner := owner, wantLo := lo, wantHi := hi, grp := s.reg.cur, agent := s.reg.curAgent }
    State.fetch line part lo hi first (s.takeMr m)

/-- R135: a waiter that needs a sector the register is not fetching makes it fetch that sector too, as it joins. One that may allocate
where the register might not gives it the lens of its own match (R96). DESIGN CHOICE (log entry 126): a register that stands in `DRAIN`
then stays there, since R134 gives it no way back. -/
def State.widenMr (line : Nat) (lo hi alloc : Bool) (lens : Option Nat) (s : State) : State :=
  match s.mrOf line with
  | none => s
  | some m =>
    let addLo := lo && !m.wantLo && (s.cached line 0).isNone
    let addHi := hi && !m.wantHi && (s.cached line 1).isNone
    let s := { s with mrs := s.mrs.map fun (x : MissReg) =>
      if x.line == line && x.st != .discard then
        { x with wantLo := x.wantLo || addLo, wantHi := x.wantHi || addHi, alloc := x.alloc || alloc,
                 lens := if alloc && !x.alloc then lens else x.lens }
      else x }
    let s := if addLo then s.fetch line m.part true false 0 else s
    if addHi then s.fetch line m.part false true 1 else s

/-- R129, R130, R134: the speculative read of a line is discarded; its register is free again with the last of its data. -/
def State.dropSpec (line : Nat) (s : State) : State :=
  match s.mrs.find? (fun m => m.line == line && m.st == .spec) with
  | none => s
  | some m =>
    let left (x : MissReg) : Option MissReg :=
      if x.line == line && x.st == .spec then (if x.full then none else some { x with st := .discard }) else some x
    State.count Ev.specDiscard (some m.part)
      { s with mrs := s.mrs.filterMap left,
               memOut := s.memOut.map fun (r : MemReq) =>
                 if r.spec && r.use == .fillLine line then { r with use := .plain } else r }

/-- R128: issue a speculative read at FCLK 6 when all six conditions hold; none goes out for a partition under resilver (R469). -/
def State.speculate (op : ReqOp) (q : Req) (lens : Option Nat) (s : State) : State :=
  let d := s.descOf lens
  let line := q.line
  let r : MemReq := { port := s.memPort q.addr, mopc := 1, addr := line * 128 + q.sector * 64, size := 7,
                      part := q.part, spec := true, use := .fillLine line }
  if (op.isRead || op == .rdUnique || op == .wrPartial || op.isAt) && !(s.res.active && s.res.part == q.part) && s.homed line && d.pers != 3 && !d.reduction &&
      (s.mrOf line).isNone && s.regs.specCtl.getLsbD q.part && s.regsUsed ≤ 479 && s.memReady r &&
      !(s.memWait.any (·.port == r.port)) then
    let m : MissReg := { line := line, st := .spec, part := q.part, lens := lens, alloc := true, wantLo := true,
                         wantHi := true, grp := s.reg.cur, agent := s.reg.curAgent }
    (State.memSend r (s.takeMr m)).count Ev.specIssue (some q.part)
  else s

/-- R134: a register in `DRAIN` whose waiters have all been served is `FREE`. -/
def State.sweepMr (line : Nat) (s : State) : State :=
  if s.lineWaiters line == 0 then
    { s with mrs := s.mrs.filter fun (m : MissReg) => !(m.line == line && m.st == .drain) }
  else s

/-! ### Responses of transactions -/

/-- R331: statuses that hot-page counting leaves out. -/
def Status.counts : Status → Bool
  | .misroute | .accessDenied | .aborted => false
  | _ => true

/-- Complete a request on its port or over `SPAN`; hot pages count it (R331). A request that a fatal error has met on the
way has been aborted already (R459). -/
def State.answer (op : ReqOp) (q : Req) (tag : Option Nat) (mem : Bool) (st : Status) (grant : Nat) (part : Bool)
    (fl : List (Nat × Sector × Bool)) (s : State) : State :=
  if s.power.state == .recovery then s
  else
  let s := s.respondData q.port q.txid tag st grant false part fl
  if st.counts && !op.isNotice && op != .confirm && op != .cancel then s.hotCount q.line mem else s

/-! ### Directory entries of transactions (R171, R175, R176) -/

/-- R289: the group of a partition's own operations. -/
def State.selfGroup (s : State) (part : Nat) : Nat := s.reg.cfg.selfGroup.getD part 0

/-- R176: a victim entry moves to the eviction buffer and its holders are invalidated. -/
def State.evictEnt (e : DirEnt) (s : State) : State :=
  let tid := s.nextId
  let ag := s.holders e none
  let t : Txn := { id := tid, kind := .evict e, line := e.line, part := e.part, lens := s.lensAt (e.line * 128),
                   started := true, busy := true, grp := s.reg.cur.getD (s.selfGroup e.part), agent := s.reg.curAgent }
  let s := { s with nextId := tid + 1, txns := s.txns ++ [t] }
  let s := (s.count Ev.dirEvict (some e.part)).snoopAll tid 2 e.line ag
  let s := { s with dir := s.dir.filter (fun (x : DirEnt) => x.key != e.key) }
  match s.txns.find? (·.id == tid) with
  | some t => if t.snoops.isEmpty then s.dropTxn tid else s
  | none => s

/-- A new entry for the line has to wait: every way of its set is busy, or its victim has no place in the eviction buffer
(R175, R176), which an entry of nobody but down agents does not need (R182). -/
def State.dirWait (s : State) (line : Nat) : Option WaitCause :=
  match s.dirPlace (setOf line) with
  | .free _ => none
  | .full => some .busyLine
  | .victim v => if s.outlives v && 16 ≤ s.evictions then some .evictBuf else none

/-- R175: create an entry for a line, displacing a victim when the set is full; a victim that R182 frees leaves its way invalid, and
the pointer stays. -/
def State.createDir (line part : Nat) (owner : Option Nat) (sharers : List Nat) (s : State) : State :=
  let set := setOf line
  let e (w : Nat) : DirEnt := { set := set, way := w, line := line, part := part, owner := owner,
                                excl := owner.isSome, sharers := sharers }
  match s.dirPlace set with
  | .free w => s.putDir (e w)
  | .victim v =>
    let s := s.reclaimLine v.line
    match s.dirAt v.line with
    | some x => ((s.evictEnt x).setRot set ((v.way + 1) % 16)).putDir (e v.way)
    | none => s.putDir (e v.way)
  | .full => s

/-! ### Resources of a transaction (R136, R169, R175, R176) -/

/-- Where a request's data stand at its FCLK 12 (R127, R129): the sectors it needs from memory, whether it takes them from an
owner's answer, and whether it joins a register. -/
structure Source where
  lo : Bool
  hi : Bool
  owner : Bool
  join : Bool
deriving DecidableEq, Repr

/-- R129: the first row that applies decides. -/
def State.source (s : State) (op : ReqOp) (q : Req) : Source :=
  let e := s.dirAt q.line
  let (lo, hi) := needs op q e
  let lo := lo && (s.cached q.line 0).isNone
  let hi := hi && (s.cached q.line 1).isNone
  let own := op.isRead && !q.provisional && (e.bind (·.owner)).isSome && !s.relayed q.line
  { lo := lo, hi := hi, owner := own, join := !own && (lo || hi) && (s.joinable q.line).isSome }

/-- R173: a data request from an agent in its own `PTR0` role. -/
def State.ownRole (s : State) (op : ReqOp) (q : Req) : Bool :=
  ((s.dirAt q.line).bind (·.owner)) == some q.agent && !q.provisional && (op.isRead || op == .rdUnique)

/-- R136: a request that joins a register performs its coherence actions when it is served (R135), and may need a tracker, and an
eviction-buffer entry for a directory entry, by then. -/
def State.mayNeedTracker (s : State) (op : ReqOp) (q : Req) (lens : Option Nat) (join : Bool) : Bool :=
  s.willBusy op q lens (s.dirAt q.line) || (join && !q.provisional && !s.relayed q.line)

/-- R136: see `State.mayNeedTracker`; the entry that stands at FCLK 12 may be gone by then. -/
def State.mayNeedEvict (s : State) (op : ReqOp) (q : Req) (lens : Option Nat) (join : Bool) : Bool :=
  join && !s.relayed q.line && (match op with
    | .rdShared => !q.provisional && s.mayGrant lens
    | .rdUnique | .upgrade => true
    | _ => false)

/-- R135: the request's directory work has to wait for its turn in the line's list. -/
def State.startsLater (s : State) (op : ReqOp) (q : Req) (lens : Option Nat) : Bool :=
  (s.source op q).join || (s.willBusy op q lens (s.dirAt q.line) &&
    s.txns.any fun u => u.line == q.line && !u.served && !u.started &&
      (match u.kind with | .req op _ _ => !(op.isCtl || op.isNotice) | _ => false))

/-- R136: what a request would have to wait for at its FCLK 12; it takes all it needs or nothing. -/
def State.lacks (s : State) (op : ReqOp) (q : Req) (lens : Option Nat) : Option WaitCause :=
  let line := q.line
  let e := s.dirAt line
  let src := s.source op q
  let (lo, hi) := needs op q e
  let spec := s.mrs.any (fun m => m.line == line && m.st == .spec)
  let keeps := src.owner && ((s.cached line 0).isNone || (s.cached line 1).isNone)
  let reg := ((src.lo || src.hi) && !src.join && !spec) || keeps
  let later := s.startsLater op q lens
  let write := match op with | .wrFull | .zeroLine | .append => true | _ => false
  let inBuf := (lo && (s.wbSec line 0).isSome) || (hi && (s.wbSec line 1).isSome)
  if (src.join || keeps) && 32 ≤ s.lineClaims line then some .missReg
  else if reg && 512 ≤ s.regsUsed then some .missReg
  else if (src.lo || src.hi || keeps) && 8192 ≤ s.poolUsed then some .waiterPool
  else if s.mayNeedTracker op q lens later && 512 ≤ s.trackers then some .tracker
  else if s.mayNeedEvict op q lens later && 16 ≤ s.evictions then some .evictBuf
  else match (if s.needsEntry op q lens e then s.dirWait line else none) with
  | some c => some c
  | none =>
    if (write || inBuf) && (s.lineOf line).isNone && s.mayAlloc op q lens && s.place line q.part lens == .wait then
      some .wbBuf
    else none

/-! ### Starting a transaction -/

/-- R105: requests the thrash monitor counts. -/
def State.ordinary (s : State) (lens : Option Nat) : Bool :=
  let d := s.descOf lens
  d.pers != 3 && !d.append

/-- R105, R478, R483: count a lookup of a line as a hit or a miss. The lookups after the 65,536th of a window belong to the next. -/
def State.noteLookup (op : ReqOp) (q : Req) (tag lens : Option Nat) (s : State) : State :=
  let hit := (s.lineOf q.line).isSome
  let s := if op.isRead || op == .rdFused || op == .rdUnique
    then (s.follow q.port q.txid tag (if hit then 1 else 2)).count (if hit then Ev.rdHit else Ev.rdMiss) (some q.part)
    else s.count (if hit then Ev.wrHit else Ev.wrMiss) (some q.part)
  if s.ordinary lens then
    { s with lens := { s.lens with thrash := s.lens.thrash.modify q.part fun t =>
        if t.lookups < 65536 then { t with lookups := t.lookups + 1, hits := t.hits + b2n hit }
        else { t with nextLookups := t.nextLookups + 1, nextHits := t.nextHits + b2n hit } } }
  else s

/-- Drop a transaction that came to nothing, and answer it. -/
def State.refuseTxn (t : Txn) (op : ReqOp) (q : Req) (tag : Option Nat) (st : Status) (s : State) : State :=
  let s := (s.dropSpec t.line).dropTxn t.id
  if t.timedOut then s else s.answer op q tag t.memRead st 0 false []

/-- R171: a write that has nobody to snoop leaves no entry: what stands there records agents that no snoop can reach. -/
def State.freeStale (line : Nat) (s : State) : State :=
  match s.dirAt line with
  | some e => if (s.holders e none).any fun a => !s.isDown a && (s.routeOf a).present then s else s.freeDir line
  | none => s

/-- R129, R169, R171: the directory work of a request's transaction: snoops, a new entry, and the state it will grant. A transaction that
snoops nobody and grants nothing leaves its line free, and if it is a write no entry. DESIGN CHOICE (log entry 127): a provisional read
that has joined a register behind a reader which is granted E or M in the meantime delivers its data and is voided: R139 tests the
directory at its FCLK 12. -/
def State.startReq (t : Txn) (op : ReqOp) (q : Req) (tag : Option Nat) (s : State) : State :=
  let line := t.line
  let s := s.reclaimLine line
  let e := s.dirAt line
  let owner := e.bind (·.owner)
  if s.ownRole op q then
    (s.protoErr op.code line q.agent (logPort q tag) q.part).refuseTxn t op q tag .aborted
  else
    let newEnt := s.needsEntry op q t.lens e
    let only := s.onlyShared t.lens
    let inv := s.invTargets op q e
    let fromOwner := (s.source op q).owner
    let role := if op == .upgrade then upgradeRole e q.agent else 0
    let grant := match op with
      | .rdShared => if q.provisional || !s.mayGrant t.lens || s.relayed line then 0 else if newEnt && !only then 2 else 1
      | .rdUnique => 2
      | .upgrade => if role == 2 then 3 else 2
      | _ => 0
    let s := s.setTxn t.id fun x =>
      { x with started := true, busy := s.willBusy op q t.lens e, newEnt := newEnt || x.newEnt, upg := role,
               fromOwner := fromOwner, grant := grant, trk := false, evb := false,
               keep := fromOwner && ((s.cached line 0).isNone || (s.cached line 1).isNone) }
    let s := if newEnt then
        (if grant == 1 then s.createDir line q.part none [q.agent]
         else (s.voidProv line).createDir line q.part (some q.agent) [])
      else s
    let s := match owner with
      | some o => if fromOwner then s.snoopAll t.id 1 line [o] else s.snoopAll t.id 2 line inv
      | none => s.snoopAll t.id 2 line inv
    let quiet := !s.txns.any fun x => x.id == t.id && !x.snoops.isEmpty
    let s := if op.isWrite && grant == 0 && quiet then s.freeStale line else s
    s.setTxn t.id fun x => if x.grant == 0 && x.snoops.isEmpty then { x with busy := false } else x

/-- R286: the group of an agent's tint. -/
def State.groupOf (s : State) (agent tint : Nat) : Nat :=
  (s.reg.cfg.agentBase.getD agent 0 + bits s.lens.tintAct.toNat (2 * tint + 1) (2 * tint)) % 64

/-- R295, R297: what one line access of the slice's own operations takes from its group's balance, as a shaper would for a read
of the line: two units of `MEM`, or one of `SPAN` for a line that the other half homes (DESIGN CHOICE, log entry 52). -/
def State.selfCharge (s : State) (line : Nat) : Nat × Nat := if s.relayed line then (3, 1) else (2, 2)

/-- R297: the group's mirrored balance covers the access; a group without weight keeps no balance. -/
def State.selfCovers (s : State) (g line : Nat) : Bool :=
  let (r, n) := s.selfCharge line
  (s.grp g).weight == 0 || decide ((32 * n : Int) ≤ (s.balOf g r).mirr)

/-- R297: the access is paid from the balance; the reservation is credited when the round ends (R296). -/
def State.selfPay (g line : Nat) (s : State) : State :=
  let (r, n) := s.selfCharge line
  if (s.grp g).weight == 0 then s
  else s.setBal g r fun b => { b with mirr := b.mirr - 32 * (n : Int), credit := b.credit + 32 * (n : Int) }

/-- Begin an operation of the slice on a line: a transaction at the end of the line's list, charged to its partition's own
group (R289). -/
def State.addTxn (kind : TxnKind) (line part : Nat) (lens : Option Nat) (s : State) : State :=
  { s with txns := s.txns ++ [{ id := s.nextId, kind := kind, line := line, part := part, lens := lens, started := false,
                                grp := s.selfGroup part }],
           nextId := s.nextId + 1 }

/-- A read of a whole line that the slice makes for itself: no agent has the number 1024. -/
def sliceReq (line part : Nat) : Req :=
  { port := 0, agent := 1024, txid := 0, addr := line * 128, size := 7, part := part }

/-! ### Taking answers (R171, R173, R178, R179) -/

/-- R173, R174: returned data are not installed over what the transaction overwrites or drops: they are kept while it may still
come to nothing. -/
def Txn.overwrites (t : Txn) : Bool :=
  match t.kind with
  | .req op q _ => op == .zeroLine || ((op == .wrFull || op == .append) && q.size == 7)
  | .rangeOp op _ => op == 2 || op == 3 || op == 5
  | _ => false

/-- R492: the partition of a range operation on a line; none for a command of the management mailbox on an absent unlensed
line. -/
def State.opPart (id line : Nat) (lens : Option Nat) (s : State) : Option Nat :=
  match s.lineOf line with
  | some c => some c.part
  | none =>
    match lens with
    | some i => some (s.descOf (some i)).part
    | none =>
      match s.ranges.find? (fun (r : RangeRun) => r.id == id) with
      | some r => r.window
      | none => (s.walks.find? (fun (w : Walk) => w.id == id)).map (·.part)

/-- R173, R174: the dirty data of an answered snoop are installed; what has no room waits (R131). The partition is the one that R492
gives at this access; a release of a bucket is a command of the management mailbox. -/
def State.absorbData (t : Txn) (lo hi : Option (Sector × Bool)) (s : State) : State :=
  match t.kind with
  | .rangeOp 1 id => s.installSoon 1 t.line ((s.opPart id t.line t.lens).getD 0) t.lens lo hi
  | .rangeOp 6 _ => s.installSoon 1 t.line ((s.opPart s.nextId t.line t.lens).getD 0) t.lens lo hi
  | .rangeOp 8 _ => s.installSoon 1 t.line (((s.lineOf t.line).map (·.part)).getD t.part) t.lens lo hi
  | .rangeOp 0 id =>
    (match s.opPart id t.line t.lens with
     | some p => s.installSoon 0 t.line p t.lens lo hi
     | none => s.installSoon 1 t.line 0 t.lens lo hi)
  | _ => s.installSoon 0 t.line t.part t.lens lo hi

/-- Take one answered snoop: complete its notice, keep the data for the requester, and install dirty data (R173, R179). -/
def State.absorb (tid : Nat) (k : SnoopRec) (s : State) : State :=
  if !k.done || k.taken then s
  else match s.txns.find? (·.id == tid) with
    | none => s
    | some t =>
      let (st, lo, hi, pd) := k.result
      let keepData := t.fromOwner || (t.overwrites && pd)
      let s := match k.notice with
        | some n => s.respond n.port n.txid n.tag .done
        | none => s
      let s := s.setTxn tid fun x =>
        { x with ownLo := if keepData then lo <|> x.ownLo else x.ownLo,
                 ownHi := if keepData then hi <|> x.ownHi else x.ownHi,
                 snoops := x.snoops.map fun m => if m.agent == k.agent then
                   { m with ans := some { code := st, data := false, pd := false }, notice := none, lo := none,
                            hi := none, taken := true, inflight := if m.inflight == some 2 then some 2 else none } else m }
      if pd && !(t.overwrites && !t.timedOut) then s.absorbData t lo hi else s

/-- State of an agent after its answer: 0 I, 1 S, 2 O. -/
def Txn.left (t : Txn) (a : Nat) : Option Nat :=
  (t.snoops.find? (·.agent == a)).bind fun k => k.ans.map (·.code)

/-- R171: the entry after an owner has answered `SNP_SHARED` or `SNP_CLEAN`. -/
def State.ownerAfter (t : Txn) (s : State) : State :=
  match s.dirAt t.line with
  | none => s
  | some e =>
    match e.owner with
    | none => s
    | some o =>
      match t.left o with
      | some 1 => s.putNorm e.demote
      | some 2 => s.putNorm { e with excl := false }
      | some _ => s.putNorm (e.remove o)
      | none => s

/-- R171, R172: the entry after every holder but the requester has been invalidated, when no grant is made. A transaction that
sent no snoop leaves the entry as it is. -/
def State.invAfter (keep : Option Nat) (t : Txn) (s : State) : State :=
  if t.snoops.isEmpty then s
  else match s.dirAt t.line with
  | none => s
  | some e =>
    match keep with
    | some a =>
      if e.records a then
        s.putDir { e with owner := if e.owner == some a then some a else none, excl := e.excl && e.owner == some a,
                          sharers := e.sharers.filter (· == a),
                          vec := if e.coarse && e.owner != some a then vecOf [a] 0 else 0 }
      else s.freeDir t.line
    | none => s.freeDir t.line

/-- R169, R171: when every snoop of a transaction that grants nothing has been answered, the line's entry shows the answers and
the line is no longer busy with it. -/
def State.settleTxn (tid : Nat) (s : State) : State :=
  match s.txns.find? (·.id == tid) with
  | none => s
  | some t =>
    let reads := match t.kind with | .operand .. => true | .req .. => t.grant == 0 | _ => false
    if !reads || t.settled || t.snoops.isEmpty || !t.snoopsDone then s
    else
      State.setTxn tid (fun x => { x with settled := true, busy := false })
        (if t.fromOwner then s.ownerAfter t else s.invAfter none t)

/-- Take every answered snoop of a transaction. -/
def State.absorbAll (tid : Nat) (s : State) : State :=
  match s.txns.find? (·.id == tid) with
  | none => s
  | some t => (t.snoops.foldl (fun s k => s.absorb tid k) s).settleTxn tid

/-- R172: a request that made an entry and grants nothing leaves it without the requester. -/
def State.unjoin (t : Txn) (agent : Nat) (s : State) : State :=
  if !t.newEnt then s
  else match s.dirAt t.line with
    | some e => if e.coarse && e.owner != some agent then s else s.putDir (e.remove agent)
    | none => s

/-- R167, R171: the entry becomes `DE` of the requester. -/
def State.ownEnt (line part a : Nat) (s : State) : State :=
  match s.dirAt line with
  | some e => s.putDir { e with owner := some a, excl := true, sharers := [], vec := 0 }
  | none => s.createDir line part (some a) []

/-- R143, R167: the entry after `INVALIDATE_RANGE` has removed the holders it snooped; those that a `CONFIRM` has recorded
meanwhile stay, in the entry's format. -/
def State.invRange (t : Txn) (s : State) : State :=
  match s.dirAt t.line with
  | none => s
  | some e =>
    let own := match e.owner with | some o => if t.conf.contains o then some o else none | none => none
    s.putNorm { e with owner := own, excl := e.excl && own.isSome, sharers := t.conf.filter (fun a => some a != own), vec := 0 }

/-! ### Effects at the order point -/

/-- A `RELEASE` of the window waits (R256). -/
def State.releasing (s : State) (w : Nat) : Bool :=
  (s.win w).after.any fun o => match o with | .release .. => true | _ => false

/-- The window whose sum plane a request's line lies in at its order point; a window that only waits to be released has none
(R249). -/
def State.planeWin (s : State) (line : Nat) : Option Nat :=
  (s.sumWin line).bind fun w => if s.releasing w then none else some w

/-- R493: the window on whose sum plane a request found its line at its order point. -/
def State.sumOf (s : State) (t : Txn) : Option Nat :=
  if t.wst == .idle then none else s.wins.findIdx? fun w => w.st != .idle && w.holds t.line

/-- Data of one sector for a requester: the owner's answer, else array, buffer or register. -/
def State.dataFor (s : State) (t : Txn) (i : Nat) : Option (Sector × Bool) :=
  let own := if i == 0 then t.ownLo else t.ownHi
  match own with
  | some x => some x
  | none => s.sector t.line i

/-- R225, R252: a plain read of a sector of a sum line. -/
def State.sumRead (w line i : Nat) (s : State) : Sector × Bool :=
  let acc := (s.win w).acc
  let (a, c, p) := s.sumPair line i
  let e := accBytes acc
  let n := (List.range (64 / e)).foldl (fun n k =>
    n + readElem acc (getBytes a (e * k) e) (getBytes c (e * k) e) * 2 ^ (8 * e * k)) 0
  (if acc == 1 then BitVec.ofNat 512 n else a, p)

/-- R116 to R118: a read of a line that is dead, or listed as dropped dead. -/
def State.deadRead (line part : Nat) (s : State) : State :=
  match s.lineOf line with
  | some c =>
    if c.dead then (s.putLine { c with dead := false }).count Ev.deadReread (some part)
    else s
  | none =>
    if s.lens.deadDrop.contains line then (s.unlistDead line).count Ev.deadReread (some part) else s

/-- A sector as a read returns it. -/
def State.readFlit (s : State) (t : Txn) (i : Nat) : Nat × Sector × Bool :=
  match s.sumOf t with
  | some w => let (d, p) := s.sumRead w t.line i; (i, d, p)
  | none => match s.dataFor t i with
    | some (d, p) => (i, d, p)
    | none => (i, 0, true)

/-- The flits of a read that have not left yet (R82, R137). -/
def State.readFlits (s : State) (t : Txn) (q : Req) : List (Nat × Sector × Bool) :=
  ((List.range 2).filter fun i => q.covers i && !t.sent.contains i).map (s.readFlit t)

/-- The sectors of a request that have still to be read from the array: those that no owner's answer has given. -/
def State.readRest (t : Txn) (q : Req) (s : State) : State :=
  s.readLineData t.line (q.covers 0 && !t.sent.contains 0 && t.ownLo.isNone) (q.covers 1 && !t.sent.contains 1 && t.ownHi.isNone)

/-- R116: a hit with `LAST_USE` on a line of a cache way sets `DEAD`. -/
def State.lastUse (t : Txn) (q : Req) (s : State) : State :=
  match s.lineOf t.line with
  | some c => if q.lastUse && t.hit && s.cacheWay c then s.putLine { c with dead := true } else s
  | none => s

/-- R252: the window still takes contributions or has not been finalised. -/
def WinState.running : WinState → Bool
  | .armed | .opened | .sealed => true
  | _ => false

/-- End a transaction: it waits for `COMP_ACK` when it granted, and is dropped otherwise (R159, R169). -/
def State.endTxn (t : Txn) (q : Req) (tag : Option Nat) (grant : Nat) (s : State) : State :=
  if grant != 0 && !s.isDown q.agent then
    s.setTxn t.id fun x => { x with served := true, busy := true, ack := some (q.port, (tag.getD q.txid), b2n tag.isSome) }
  else s.dropTxn t.id

/-- R86: a hit sets the re-reference value. -/
def State.hitTouch (t : Txn) (s : State) : State :=
  if t.hit then match s.lineOf t.line with | some c => s.touch c | none => s else s

/-- R225, R233: the lane operations of a plain read of a sum line whose residuals are not yet folded in. -/
def State.sumLanes (t : Txn) (q : Req) (s : State) : State :=
  match s.sumOf t with
  | some w =>
    if (s.win w).acc == 1 && (s.win w).st.running then
      ((List.range 2).filter q.covers).foldl (fun u i => (u.laneOps t.line i 16 (u.win w).part).2) s
    else s
  | none => s

/-- Serve a `RD_SHARED` or `RD_ONCE` (R116, R171, R172, R225); `PARTIAL` goes by the state of the window at the read's order point
(R249, R252). -/
def State.serveRead (t : Txn) (op : ReqOp) (q : Req) (tag : Option Nat) (s : State) : State :=
  let s := if t.fromOwner && !t.settled then s.ownerAfter t else s
  let s := (s.readRest t q).sumLanes t q
  let fl := s.readFlits t q
  let bad := t.sentBad || fl.any (fun x => x.2.2)
  let partialAttr := (s.sumOf t).isSome && t.wst.running
  let s := (s.hitTouch t).lastUse t q
  let grant := if bad || t.timedOut then 0 else t.grant
  let s := if grant == 0 then s.unjoin t q.agent
    else if t.newEnt then s
    else match s.dirAt t.line with
      | some e => s.addSharer e q.agent
      | none => s.createDir t.line q.part none [q.agent]
  if t.timedOut then s.dropTxn t.id
  else (s.answer op q tag t.memRead (if bad then .poison else .done) grant partialAttr fl).endTxn t q tag grant

/-- R407: the lowest free relay tag (log entry 14). -/
def State.relayTag (s : State) : Option Nat :=
  (List.range 256).find? fun t => !s.span.relays.any (·.tag == t)

/-- Open a relay entry. -/
def State.addRelay (r : Relay) (s : State) : State := { s with span := { s.span with relays := s.span.relays ++ [r] } }

/-- Close a relay entry. -/
def State.dropRelay (tag : Nat) (s : State) : State :=
  { s with span := { s.span with relays := s.span.relays.filter (fun (r : Relay) => r.tag != tag) } }

/-- The relay entry of a fabric transaction. -/
def State.relayOf (s : State) (port txid : Nat) : Option Relay :=
  s.span.relays.find? fun r => r.port == port && r.txid == txid && !r.timedOut

/-- R410, R412: serve a read from the replica. The data of a `RD_SHARED` leave at once, and its completion waits for the
home's answer to the holder record. -/
def State.serveReplica (t : Txn) (q : Req) (s : State) : State :=
  let s := s.readRest t q
  let fl := s.readFlits t q
  let bad := t.sentBad || fl.any (fun x => x.2.2)
  let s := ((s.hitTouch t).lastUse t q).dropTxn t.id
  match s.relayOf q.port q.txid with
  | some r =>
    if t.timedOut then s.dropRelay r.tag
    else if bad then (s.dropRelay r.tag).respondData q.port q.txid none .poison 0 false false fl
    else if s.span.st == .down then (s.dropRelay r.tag).respondData q.port q.txid none .done 0 false false fl
    else ((s.answered q.port q.txid none true).sendDat q.port q.txid false fl).spanSend (.hrec t.line q.agent r.tag)
  | none =>
    if t.timedOut then s
    else s.respondData q.port q.txid none (if bad then .poison else .done) 0 false false fl

/-- Serve a `RD_UNIQUE` or an `UPGRADE` (R171, R172). -/
def State.serveUnique (t : Txn) (op : ReqOp) (q : Req) (tag : Option Nat) (s : State) : State :=
  if t.timedOut then
    let s := if t.newEnt then s.unjoin t q.agent else s.invAfter (some q.agent) t
    s.dropTxn t.id
  else if op == .upgrade && t.upg != 0 then
    (((s.hitTouch t).ownEnt t.line q.part q.agent).answer op q tag false .done t.grant false []).endTxn t q tag t.grant
  else
    let s := s.readRest t q
    let fl := s.readFlits t q
    let s := s.hitTouch t
    if t.sentBad || fl.any (fun x => x.2.2) then
      let s := if t.newEnt then s.unjoin t q.agent else s.invAfter (some q.agent) t
      (s.answer op q tag t.memRead .poison 0 false fl).endTxn t q tag 0
    else
      ((s.ownEnt t.line q.part q.agent).answer op q tag t.memRead .done 2 false fl).endTxn t q tag 2

/-- Write the sectors of a `WR_FULL` or `APPEND`: an absent line takes both sectors of a 128 B write in one allocation (R82,
R99, R102). -/
def State.writeFull (t : Txn) (q : Req) (alloc : Bool) (s : State) : State :=
  let s := s.hitTouch t
  let sec (i : Nat) : Sec := if q.covers i then Sec.dirty (q.dataAt i).1 (q.dataAt i).2 else {}
  match s.lineOf t.line with
  | some c =>
    let c := if q.covers 0 then c.write 0 (q.dataAt 0).1 0 64 (q.dataAt 0).2 else c
    (s.bankWrite c.way (b2n (q.covers 0) + b2n (q.covers 1))).putLine (if q.covers 1 then c.write 1 (q.dataAt 1).1 0 64 (q.dataAt 1).2 else c)
  | none =>
    let (ok, s) := if alloc then s.allocate t.line q.part t.lens false (sec 0) (sec 1) else (false, s)
    if ok then s
    else s.toMemory t.line q.part (if q.covers 0 then some (q.dataAt 0) else none)
      (if q.covers 1 then some (q.dataAt 1) else none)

/-- R82, R84, R102: a write within a sector; the flag says the sector stays poisoned. -/
def State.writeBytes (t : Txn) (q : Req) (i off size : Nat) (d : Sector) (p : Bool) (s : State) : Bool × State :=
  let s := (s.readLineData t.line (i == 0) (i == 1)).hitTouch t
  match s.lineOf t.line with
  | some c =>
    let s := s.bankWrite c.way 1
    if (c.sec i).v then
      let c' := c.write i d off size p
      ((c'.sec i).poison, s.putLine c')
    else
      let (old, po) := (s.dataFor t i).getD (0, true)
      let c' := (c.setSec i (Sec.clean old po)).write i d off size p
      ((c'.sec i).poison, s.putLine c')
  | none =>
    let (old, po) := (s.dataFor t i).getD (0, true)
    let new := merge old d off size
    (po || p, s.wbPut t.line q.part i new (po || p))

/-- R221: put an atomic's result where its line or its register keeps the sector. -/
def State.putAtomic (t : Txn) (q : Req) (i : Nat) (new : Sector) (s : State) : State :=
  match s.lineOf t.line with
  | some c =>
    let s := s.bankWrite c.way 1
    if (c.sec i).v then s.putLine (c.write i new 0 64 false)
    else s.putLine ((c.setSec i (Sec.clean new false)).write i new 0 64 false)
  | none => s.wbPut t.line q.part i new false

/-- R219, R220, R222, R235, R236: an atomic at its order point: status and fetched flit. DESIGN CHOICE (log entry 128): one that
completes with `POISON` returns no flit, for there is no value of `M` to return. -/
def State.serveAt (t : Txn) (op : ReqOp) (q : Req) (s : State) : Status × List (Nat × Sector × Bool) × State :=
  let a := atOperand op q.payload
  let i := q.sector
  let off := q.addr % 64
  match t.win with
  | some w =>
    let acc := (s.win w).acc
    let e := accBytes acc
    let (bad, s) := s.accRead w t.line i 1
    let (sum, res, _) := s.sumPair t.line i
    let old := getBytes sum off e + (if acc == 1 then getBytes res off e * 2 ^ 32 else 0)
    if bad then (.poison, [], s)
    else (.done, if a.fetch then [(i, BitVec.ofNat 512 old, false)] else [],
      s.accApply w t.id t.line i off [a.opa % 2 ^ (8 * e)])
  | none =>
    let s := s.readLineData t.line (i == 0) (i == 1)
    let (bad, s) := s.laneOps t.line i (if op == .atCas128 then 2 else 1) q.part
    match (if bad then none else s.dataFor t i) with
    | none => (.poison, [], s)
    | some (d, p) =>
      if p then (.poison, [], s)
      else
        let n := sizeBytes q.size
        let m := getBytes d off n
        let new := setBytes d off n (atCompute op a.typ q.size m a.opa a.opb)
        let s := (s.hitTouch t).putAtomic t q i new
        (.done, if a.fetch then [(i, BitVec.ofNat 512 m, false)] else [], s)

/-- R223, R235: `ACCUMULATE` at its order point: it changes nothing unless both sectors it covers are good. DESIGN CHOICE (log
entry 129): the poison mark of its own payload, and of the payloads of an atomic and a `RD_FUSED`, is ignored; R84 and R235 speak
of stored sectors only. -/
def State.serveAcc (t : Txn) (q : Req) (w : Nat) (s : State) : Status × State :=
  let x := s.win w
  let xs := (decodePayload x.ifmt q.payload).getD []
  let e := accBytes x.acc
  let per := if 5 ≤ x.ifmt && x.ifmt ≤ 9 then 2 else 1
  let off := q.addr % 128
  let n0 := if off < 64 then (64 - off) / e else 0
  let lo := xs.take n0
  let hi := xs.drop n0
  let (b0, s) := if off < 64 then s.accRead w t.line 0 (per * lo.length) ((per - 1) * lo.length) else (false, s)
  let (b1, s) := if hi.isEmpty then (false, s) else s.accRead w t.line 1 (per * hi.length) ((per - 1) * hi.length)
  if b0 || b1 then (.poison, s)
  else
    let s := s.count Ev.accumPayload (some x.part)
    let s := if off < 64 then s.accApply w t.id t.line 0 off lo else s
    (.done, if hi.isEmpty then s else s.accApply w t.id t.line 1 (if off < 64 then 0 else off - 64) hi)

/-- R226 to R229, R233, R235, R252: the outflow of a sum line for a `RD_FUSED`. -/
def State.serveFused (t : Txn) (q : Req) (w : Nat) (s : State) : Status × List (Nat × Sector × Bool) × State :=
  let x := s.win w
  let d := outDesc (getBytes q.payload 0 8) (getBytes q.payload 8 8)
  let per := outLanes d + b2n (x.acc == 1 && x.st.running)
  let (a0, c0, a1, c1, p0, p1, s) := s.outRead t.line (per * (64 / accBytes x.acc)) (64 / accBytes x.acc) x.part
  let ((o0, q0), (o1, q1), s) := s.opRead (addrLine d.opnd) x.part t.opLo t.opHi
  let pLo := p0 || (d.fuse != 0 && q0)
  let pHi := p1 || (d.fuse != 0 && q1)
  let (n, sat, nan) := outLine x d (both128 a0 a1) (both128 c0 c1) (both128 o0 o1)
  let flits := if outBytes x == 128 then [0, 1] else [0]
  let fl := flits.map fun j => (j, part128 n j, outPoison x pLo pHi (64 * j) 64)
  let s := (s.countN Ev.outflowSat (some x.part) sat).countN Ev.outflowNan (some x.part) nan
  (if pLo || pHi then .poison else .done, fl, s)

/-! ### Append lenses (R106 to R108) -/

/-- Unpin lines of a block until one must wait for the write-back buffer or its group's balance (R289, R297); the flag says all are
gone. -/
def State.spillLines (g : Nat) : List Nat → State → Bool × State
  | [], s => (true, s)
  | l :: rest, s =>
    if (s.lineOf l).isNone || !s.homed l then s.spillLines g rest
    else if !s.selfCovers g l then (false, s)
    else
      let s := s.readLookup l
      match s.lineOf l with
      | none => s.spillLines g rest
      | some c =>
        if c.anyDirty && !c.dead && !s.wbRoom l then (false, s)
        else State.spillLines g rest ((State.evictLine c (s.selfPay g l)).clearStopped c.lens)

/-- R108: release blocks from `TAIL_BLK` while the count is at the quota, never block `b` or a later one; the flag says
the spill has ended. -/
def State.spill (i b : Nat) : Nat → State → Bool × State
  | 0, s => (true, s)
  | n + 1, s =>
    match (s.lensSlot i).desc with
    | none => (true, s)
    | some d =>
      if s.lineCount i < d.quota || b ≤ (s.lensSlot i).tail then (true, s)
      else
        let (ok, s) := s.spillLines (s.selfGroup d.part) (d.blockLines (s.lensSlot i).tail)
        if !ok then (false, s)
        else ((s.setLens i fun l => { l with tail := l.tail + 1 }).count Ev.appendSpill (some d.part)).spill i b n

/-- R107: `HEAD_BLK` = max(`HEAD_BLK`, `b` + 1). -/
def State.pushHead (i b : Nat) (s : State) : State := s.setLens i fun l => { l with head := max l.head (b + 1) }

/-- R107, R289: an `APPEND` at its order point, or once its spill has ended: the status, or none while it spills. The spill is
an operation of the slice's own. DESIGN CHOICE (log entry 130): an `APPEND` that was matched before a swap and is served after it
moves the ring of its own slot, the one its match gave it (R96), not that of the slot's successor. -/
def State.serveAppend (t : Txn) (q : Req) (spilt : Bool) (s : State) : Option Status × State :=
  match t.lens with
  | none => (some .aborted, s)
  | some i =>
    match (s.lensSlot i).desc with
    | none => (some .aborted, s)
    | some d =>
      let b := d.blockOf q.addr
      if (s.lineOf t.line).isSome then (some .done, (s.writeFull t q true).pushHead i b)
      else if b < (s.lensSlot i).tail then
        (some .done, (s.writeFull t q false).count Ev.appendBehind (some d.part))
      else if s.lineCount i < d.quota then (some .done, (s.writeFull t q true).pushHead i b)
      else if d.spill then
        if spilt then (some .done, (s.writeFull t q false).count Ev.appendBehind (some d.part))
        else
          let (_, s) := (s.runAs (some (s.selfGroup d.part))).spill i b (b + 1)
          (none, (s.setTxn t.id fun x => { x with opAsked := true }).runAs (some t.grp) t.agent)
      else
        (some .aborted, (s.setLens i fun l => { l with stopped := true }).count Ev.appendStop (some d.part))

/-! ### Provisional reads (R138 to R144) -/

/-- The entry of a provisional read. -/
def State.provOf (s : State) (port txid : Nat) (tag : Option Nat) : Option ProvEnt :=
  s.prov.find? fun e => e.txid == txid && e.tag == tag && (tag.isSome || e.port == port)

/-- Update the entry of a provisional read. -/
def State.setProv (port txid : Nat) (tag : Option Nat) (f : ProvEnt → ProvEnt) (s : State) : State :=
  { s with prov := s.prov.map fun (e : ProvEnt) =>
      if e.txid == txid && e.tag == tag && (tag.isSome || e.port == port) then f e else e }

/-- Close an entry. -/
def State.closeProv (port txid : Nat) (tag : Option Nat) (s : State) : State :=
  let s := match s.provOf port txid tag with
    | some e => s.measure 8 (some e.part)
    | none => s
  { s with prov := s.prov.filter fun (e : ProvEnt) =>
      !(e.txid == txid && e.tag == tag && (tag.isSome || e.port == port)) }

/-- A transaction that only waits for a `COMP_ACK`. -/
def State.ackTxn (line part port id tagged : Nat) (kind : TxnKind) (s : State) : State :=
  let t : Txn := { id := s.nextId, kind := kind, line := line, part := part, lens := none, started := true,
                   served := true, busy := true, ack := some (port, id, tagged) }
  { s with txns := s.txns ++ [t], nextId := s.nextId + 1 }

/-- R143: the agents that a `CONFIRM` records while `INVALIDATE_RANGE` runs on the line stay recorded. -/
def State.noteConfirm (line agent : Nat) (s : State) : State :=
  { s with txns := s.txns.map fun (t : Txn) =>
      if t.line == line && t.started && (match t.kind with | .rangeOp 1 _ => true | _ => false)
      then { t with conf := t.conf ++ [agent] } else t }

/-- R112, R172: the line allows only S under the lens that the read matched (R96) or under the one that stands now. -/
def State.confirmShared (s : State) (e : ProvEnt) : Bool := s.onlyShared e.lens || s.onlyShared (s.lensAt (e.line * 128))

/-- R407: a `CONFIRM` of a read from a replica needs a relay entry for its holder record, and none is free. -/
def State.confirmStuck (s : State) (e : ProvEnt) : Bool :=
  e.st == .opened && !e.once && s.mayGrant e.lens && s.relayed e.line && s.span.st != .down && s.relayTag.isNone

/-- R143: `CONFIRM` of an `OPEN` entry: the directory action of an ordinary read, under the lens that the read matched (R96;
log entry 46). One that needs a relay entry is not performed while none is free. -/
def State.confirmOpen (e : ProvEnt) (s : State) : State :=
  let s := (s.closeProv e.port e.txid e.tag)
  let done (g : Nat) (t : State) : State :=
    let t := (t.count Ev.provConfirm (some e.part)).respond e.port e.txid e.tag .done g
    if g == 0 || t.isDown e.agent then t
    else t.ackTxn e.line e.part e.port (e.tag.getD e.txid) (b2n e.tag.isSome)
      (.req .confirm { port := e.port, agent := e.agent, txid := e.txid, addr := e.line * 128, size := 7, part := e.part } e.tag)
  let refused (t : State) : State := (t.count Ev.provRefused (some e.part)).respond e.port e.txid e.tag .aborted
  if e.once || !s.mayGrant e.lens then done 0 s
  else if s.relayed e.line then
    match (if s.span.st == .down then none else s.relayTag) with
    | none => done 0 s
    | some k =>
      ((s.count Ev.provConfirm (some e.part)).addRelay
        { tag := k, agent := e.agent, port := e.port, txid := e.txid, op := .confirm, line := e.line, part := e.part,
          lens := e.lens, replica := true, grp := e.grp }).spanSend (.hrec e.line e.agent k)
  else
    let s := (s.reclaimLine e.line).noteConfirm e.line e.agent
    match s.dirAt e.line with
    | some d => done 1 (s.addSharer d e.agent)
    | none =>
      if (s.dirWait e.line).isSome then refused s
      else if s.confirmShared e then done 1 (s.createDir e.line e.part none [e.agent])
      else done 2 ((s.voidProv e.line).createDir e.line e.part (some e.agent) [])

/-- R143: a `CONFIRM` takes effect on an entry that is `OPEN` or `VOIDED`. DESIGN CHOICE (log entry 131): `PROV_CONFIRM` counts the
`CONFIRM`s of `OPEN` entries that complete with `DONE`, not those of `VOIDED` ones. -/
def State.confirmNow (e : ProvEnt) (s : State) : State :=
  let t := s.runAs (some e.grp) (some e.agent)
  s.runLike (if e.st == .voided then (t.closeProv e.port e.txid e.tag).respond e.port e.txid e.tag .aborted else t.confirmOpen e)

/-- R143: the last data flit of a provisional read has left its port, or the span. -/
def State.provLeft (s : State) (e : ProvEnt) : Bool :=
  !(s.heldOut.any fun h => match h.flit with | .dat p t .. => e.tag.isNone && p == e.port && t == e.txid | _ => false) &&
  !(s.span.waitTx.any fun w => match w.item with | .rsp t .. => e.tag == some t | _ => false)

/-- R143: a `PENDING` entry whose data have left opens, or is voided by a conflicting event that came first; a `CONFIRM` that
it holds takes effect, once a relay entry that it needs is free (R407). -/
def State.provSettle (e : ProvEnt) (s : State) : State :=
  if e.st == .pending then
    if !e.sent || !s.provLeft e then s
    else
      let e' := { e with st := if e.voidPend then .voided else .opened }
      let s := s.setProv e.port e.txid e.tag fun _ => e'
      let s := if e.voidPend then (s.sendVoid e).count Ev.provVoid (some e.part) else s
      if e.confirmHeld && !s.confirmStuck e' then s.confirmNow e' else s
  else if e.confirmHeld && !s.confirmStuck e then s.confirmNow e
  else s

/-- Every entry whose data have left. -/
def State.provsGo (s : State) : State := s.prov.foldl (fun t e => t.provSettle e) s

/-- Serve a provisional read: its data with `OPEN`, or a final `POISON` (R139, R140, R143). -/
def State.serveProv (t : Txn) (q : Req) (tag : Option Nat) (s : State) : State :=
  match s.provOf q.port q.txid tag with
  | none => s.dropTxn t.id
  | some e =>
    let s := s.readRest t q
    let fl := s.readFlits t q
    let s := (s.hitTouch t).dropTxn t.id
    if t.timedOut then s.closeProv q.port q.txid tag
    else if t.sentBad || fl.any (fun x => x.2.2) then
      (s.closeProv q.port q.txid tag).answer .rdOnce q tag t.memRead .poison 0 false fl
    else
      let s := (s.respondData q.port q.txid tag .done 0 true false fl).hotCount t.line t.memRead
      let e' := { e with sent := true }
      (s.setProv q.port q.txid tag fun _ => e').provSettle e'

/-! ### Line work of range operations and fills (R151, R174) -/

/-- Write a line's dirty sectors to memory and keep it clean (R83, R92, R174). -/
def State.cleanLine (c : CLine) (part : Nat) (s : State) : State :=
  let (c, s) := s.readOut c
  let s := if c.lo.d then s.wbPut c.line part 0 c.lo.value c.lo.poison else s
  let s := if c.hi.d then s.wbPut c.line part 1 c.hi.value c.hi.poison else s
  s.putLine { c with lo := { c.lo with d := false }, hi := { c.hi with d := false } }

/-- Cancel the write-backs of a line that have not been issued. -/
def State.cancelWb (line : Nat) (s : State) : State :=
  let cancel (i : Nat) (t : State) : State :=
    match t.wbSec line i with
    | some w => if w.issued then t
        else State.wbDrop line i { t with memWait := t.memWait.filter fun r => !r.isWb line i }
    | none => t
  cancel 1 (cancel 0 s)

/-- Code of a range operation in a transaction. -/
def RangeKind.code : RangeKind → Nat
  | .flush => 0 | .invalidate => 1 | .discard => 2 | .zero => 3 | .unpin => 4

/-- R359, R465: a drain writes a line back and keeps it clean; a resilver counts the lines it writes back. -/
def State.drainLine (c : CLine) (s : State) : State :=
  if c.dead && c.anyDirty then s.evictLine c
  else
    let s := if c.anyDirty && s.res.active then { s with res := { s.res with lines := s.res.lines + 1 } } else s
    s.cleanLine c c.part

/-- R174: the effect of a range operation on one line, once its snoops are answered. `part` is the partition of R492.
Operations 0 to 4 are those of the range commands, 5 places a plane (R246), 6 releases a bucket (R70), 7 drains for
`CONFIG` or a resilver (R359, R465) and 8 drains for `OFF` (R424). A discard and an unpin may let a stopped append lens go on
(R109). -/
def State.rangeLine (k line : Nat) (part lens : Option Nat) (s : State) : State :=
  match k with
  | 0 =>
    match s.lineOf line with
    | some c => if c.dead then s else s.cleanLine c c.part
    | none => s
  | 1 | 6 | 8 => match s.lineOf line with | some c => s.evictLine c | none => s
  | 7 => match s.lineOf line with | some c => s.drainLine c | none => s
  | 2 =>
    let s := s.cancelWb line
    match s.lineOf line with | some c => (s.dropLine c).clearStopped c.lens | none => s
  | 3 => s.zeroLineOp line part lens
  | _ =>
    match s.lineOf line with
    | some c => if s.pinnedWay c then (s.evictLine c).clearStopped c.lens else s
    | none => s

/-- R133: a fill needs a register of its own: its sectors are neither here nor on their way. -/
def State.fillNeedsReg (s : State) (line : Nat) : Bool :=
  ((s.cached line 0).isNone || (s.cached line 1).isNone) && !(s.mrOf line).any (fun m => m.st != .spec) &&
  !s.mrs.any (fun m => m.line == line && m.st == .spec)

/-- The fill of a walk on a line whose owner has answered (R174). -/
def State.fillAfter (t : Txn) (walk : Nat) (s : State) : State :=
  let s := (s.ownerAfter t).dropTxn t.id
  if !s.walks.any (·.id == walk) then s
  else
  let s := if (s.lineOf t.line).isNone && ((s.wbSec t.line 0).isSome || (s.wbSec t.line 1).isSome)
    then s.reinstall t.line t.part t.lens else s
  let lo := s.cached t.line 0
  let hi := s.cached t.line 1
  if (lo.isSome && hi.isSome) || (s.mrOf t.line).any (fun m => m.st != .spec) then
    let bad := t.fromOwner && ((lo.map (·.2)).getD false || (hi.map (·.2)).getD false)
    s.setWalk walk fun (w : Walk) => { w with outFills := w.outFills - 1, sawPoison := w.sawPoison || bad }
  else s.openMr t.line t.part t.lens true (s.relayed t.line) (.walk walk) lo.isNone hi.isNone 0

/-! ### Progress (R135, R169, R188) -/

/-- R107: an `APPEND` below the ring's tail allocates nothing. -/
def State.appendsBehind (s : State) (t : Txn) (op : ReqOp) (q : Req) : Bool :=
  op == .append && (match t.lens with
    | some i => (match (s.lensSlot i).desc with | some d => d.blockOf q.addr < (s.lensSlot i).tail | none => false)
    | none => false)

/-- R102, R131: the request's data would go to memory through a buffer that is full, or its allocation waits for the write-back of a
victim. -/
def State.noBuffer (s : State) (t : Txn) (op : ReqOp) (q : Req) : Bool :=
  let whole := match op with | .wrFull | .zeroLine | .append => true | _ => false
  !t.timedOut && (s.lineOf t.line).isNone &&
  (if op == .wrPartial || op.isAt then !s.wbRoom t.line
   else whole && (if !s.mayAlloc op q t.lens || s.appendsBehind t op q then !s.wbRoom t.line
     else match s.place t.line q.part t.lens with
       | .way .. => false
       | .wait => true
       | .bypass _ => !s.wbRoom t.line))

/-- Everything a started request's effect waits for has arrived. -/
def State.ready (s : State) (t : Txn) (op : ReqOp) (q : Req) : Bool :=
  let (lo, hi) := needs op q none
  let got (i : Nat) : Bool := (s.dataFor t i).isSome || (s.sumOf t).isSome
  let need := !(op == .upgrade && t.upg != 0)
  t.snoopsDone && (t.timedOut || q.dataIn op) && !t.opAsked && !s.noBuffer t op q &&
  (!need || ((!lo || got 0) && (!hi || got 1)))

/-- R222: a contribution with order `id` opens an `ARMED` window. -/
def State.openWin (w id : Nat) (s : State) : State :=
  s.orderedWin w id fun x => if x.st == .armed then { x with st := .opened } else x

/-- R249: a refused contribution or arrival with order `id`. -/
def State.countLate (w id : Nat) (s : State) : State :=
  (s.orderedWin w id fun x => { x with late := min (x.late + 1) (2 ^ 32 - 1) }).count Ev.winLate (some (s.win w).part)

/-- R171, R172, R202, R456: a request that grants nothing ends with a status. The holders it invalidated have left the entry,
and dirty data that it did not overwrite after all are installed (R173). -/
def State.endWith (t : Txn) (op : ReqOp) (q : Req) (tag : Option Nat) (st : Status) (fl : List (Nat × Sector × Bool))
    (s : State) : State :=
  let s := if t.settled then s else s.invAfter none t
  let s := if t.overwrites && st != .done then s.installSoon 0 t.line t.part t.lens t.ownLo t.ownHi else s
  let s := s.dropTxn t.id
  if t.timedOut then s else s.answer op q tag t.memRead st 0 false fl

/-- Ask for the operand line of an outflow (R228, R253). -/
def State.askOperand (t : Txn) (opnd part : Nat) (s : State) : State :=
  let o := addrLine opnd
  let s := s.setTxn t.id fun x => { x with opAsked := true }
  { s with txns := s.txns ++ [{ id := s.nextId, kind := .operand t.id (sliceReq o part), line := o, part := part,
                                lens := s.lensAt (o * 128), started := false, grp := t.grp, agent := t.agent }],
           nextId := s.nextId + 1 }

/-- R86, R170: a notice completes as soon as its data are here; the data install in its place of the line's list, now or when there
is room. -/
def State.noticeDone (t : Txn) (q : Req) (tag : Option Nat) (s : State) : State :=
  (s.respond q.port q.txid tag .done).setTxn t.id fun x =>
    { x with kind := .install 0, ownLo := some (q.dataAt 0), ownHi := some (q.dataAt 1) }

/-- Serve a started request whose turn has come. -/
def State.serveReq (t : Txn) (op : ReqOp) (q : Req) (tag : Option Nat) (s : State) : State :=
  if t.prov then s.serveProv t q tag
  else match op with
  | .rdShared | .rdOnce =>
    if tag.isNone && s.relayed t.line && (s.descOf t.lens).mirror then s.serveReplica t q else s.serveRead t op q tag
  | .rdUnique | .upgrade => s.serveUnique t op q tag
  | .rdFused =>
    if t.timedOut then s.dropTxn t.id
    else match s.sumOf t with
    | some w =>
      let d := outDesc (getBytes q.payload 0 8) (getBytes q.payload 8 8)
      if d.fuse != 0 && t.opLo.isNone && t.opHi.isNone then s.askOperand t d.opnd q.part
      else
        let (st, fl, s) := s.serveFused t q w
        (s.answer op q tag t.memRead st 0 t.wst.running fl).dropTxn t.id
    | none => s.refuseTxn t op q tag .aborted
  | _ =>
    if t.timedOut then s.endWith t op q tag .timeout []
    else match op with
    | .wrFull => (s.writeFull t q (s.mayAlloc op q t.lens)).endWith t op q tag .done []
    | .wrPartial =>
      let (d, p) := q.dataAt q.sector
      let (bad, s) := s.writeBytes t q q.sector (q.addr % 64) (sizeBytes q.size) d p
      s.endWith t op q tag (if bad then .poison else .done) []
    | .zeroLine => ((s.hitTouch t).zeroLineOp t.line (some q.part) t.lens).endWith t op q tag .done []
    | .append =>
      (match s.serveAppend t q false with
       | (some st, s) => s.endWith t op q tag st []
       | (none, s) => s)
    | .accumulate =>
      (match t.win with
       | some w =>
         let (st, s) := s.serveAcc t q w
         (s.openWin w t.id).endWith t op q tag st []
       | none => s.endWith t op q tag .aborted [])
    | _ =>
      let (st, fl, s) := s.serveAt t op q
      (match t.win with | some w => s.openWin w t.id | none => s).endWith t op q tag st fl

/-- What a refusal by the payload logs. -/
inductive PayLog where
  | none | hdr | fuse
  | denied (detail : Nat)
deriving DecidableEq, Repr

/-- R226, R228: the descriptor of a `RD_FUSED`. -/
def State.fusedCheck (s : State) (t : Txn) (q : Req) : Option (Status × PayLog) :=
  let d0 := getBytes q.payload 0 8
  let d1 := getBytes q.payload 8 8
  let d := outDesc d0 d1
  if outDescBad d0 d1 || q.payload.toNat >>> 128 != 0 then some (.aborted, .hdr)
  else match s.sumOf t with
    | none => some (.aborted, .none)
    | some w =>
      if (s.win w).acc == 2 && (d.fuse != 0 || d.scaleEn) then some (.aborted, .none)
      else if d.fuse == 0 then none
      else
        let o := addrLine d.opnd
        let lens := s.lensAt d.opnd
        if d.opnd % 128 != 0 then some (.aborted, .none)
        else if !s.homed o || (s.descOf lens).reduction then some (.aborted, .fuse)
        else match s.check97 .rdOnce { q with addr := d.opnd, size := 7 } lens with
          | some (st, x) => some (st, .denied x)
          | none => none

/-- The checks of a payload that has arrived: `ABORTED` for a bad one, `LATE` for a refused contribution (R222, R224, R249). DESIGN CHOICE
(log entry 155): R218 gives an `AT_*` whose `TYPE` is not permitted, the reserved ones among them, neither a status nor a record; the
model answers `ABORTED` and writes none. -/
def State.payload (s : State) (t : Txn) (op : ReqOp) (q : Req) : Option (Status × PayLog) :=
  let lateOr : Option (Status × PayLog) := if t.late.isSome then some (.late, .none) else none
  let w := match t.win with | some w => some w | none => t.late
  if op == .rdFused then s.fusedCheck t q
  else if op.isAt then
    let a := atOperand op q.payload
    if !a.resvOk then some (.aborted, .hdr)
    else if !atTypeOk op a.typ q.size then some (.aborted, .none)
    else match w with
      | none => if op == .atCadd then some (.aborted, .none) else none
      | some w =>
        let acc := (s.win w).acc
        if op == .atCadd then (if acc == 1 then lateOr else some (.aborted, .none))
        else if op == .atAdd then
          (if (acc == 2 && (a.typ == 2 || a.typ == 3)) || (acc != 2 && a.typ == 4) then lateOr
           else some (.aborted, .none))
        else some (.aborted, .none)
  else if op == .accumulate then
    match w with
    | none => some (.aborted, .hdr)
    | some w =>
      let x := s.win w
      if q.addr % ifmtSpan x.ifmt != 0 || x.base + x.size * 2 ^ 21 < q.addr + ifmtSpan x.ifmt ||
          (decodePayload x.ifmt q.payload).isNone then some (.aborted, .hdr)
      else lateOr
  else none

/-- Write the record of a refusal by the payload. -/
def State.payLog (l : PayLog) (op : ReqOp) (q : Req) (tag : Option Nat) (s : State) : State :=
  match l with
  | .none => s
  | .hdr => s.logHdr op q tag
  | .fuse => (s.count Ev.fuseMisplaced (some q.part)).log
      { source := 0x012, part := q.part, agent := q.agent, port := logPort q tag, addr := q.addr, detail := op.code }
  | .denied d => s.log
      { source := 0x005, part := q.part, agent := q.agent, port := logPort q tag, addr := q.addr, detail := d }

/-! ### The order of a line (R135, R142, R169, R202) -/

/-- The sectors of its line that a request reads, and those it writes. -/
def touches (op : ReqOp) (q : Req) : (Nat → Bool) × (Nat → Bool) :=
  match op with
  | .rdShared | .rdUnique | .rdFused => (fun _ => true, fun _ => false)
  | .rdOnce => (q.covers, fun _ => false)
  | .wrFull | .append => (fun _ => false, q.covers)
  | .wrPartial => (fun i => q.sector == i, fun i => q.sector == i)
  | .upgrade | .zeroLine | .accumulate | .writeback | .writeclean => (fun _ => true, fun _ => true)
  | _ => if op.isAt then (fun i => q.sector == i, fun i => q.sector == i) else (fun _ => false, fun _ => false)

/-- What a transaction reads and writes of its line. -/
def Txn.touches (t : Txn) : (Nat → Bool) × (Nat → Bool) :=
  match t.kind with
  | .req op q _ => Machine.touches op q
  | .operand _ q => Machine.touches .rdOnce q
  | .evict _ => (fun _ => false, fun _ => false)
  | _ => (fun _ => true, fun _ => true)

/-- One of the two writes a sector that the other reads or writes. -/
def Txn.clashes (t u : Txn) : Bool :=
  [0, 1].any fun i => (t.touches.2 i && (u.touches.1 i || u.touches.2 i)) || (u.touches.2 i && t.touches.1 i)

/-- The transaction acts on a header or a bell, or reads a header: it has no place in its line's order. -/
def Txn.isCtl (t : Txn) : Bool := t.hdrRd || (match t.kind with | .req op _ _ => op.isCtl | _ => false)

/-- An operation of the slice other than a read: its order point is the start of its access (R142). -/
def Txn.isOp (t : Txn) : Bool :=
  match t.kind with
  | .rangeOp .. | .fillOp _ | .operand .. | .collectOp _ => true
  | _ => false

/-- R135, R169, R202: an earlier transaction `u` of the line keeps `t` from taking effect: both wait for one register, or they
clash; an operation that has begun comes before everything behind it, and so do dirty data that wait for room (R131). -/
def Txn.blocks (u t : Txn) : Bool :=
  if u.served || u.isCtl then false
  else if u.isOp && !u.started then false
  else match u.kind, t.kind with
  | .evict _, _ => true
  | .install _, _ => true
  | .rangeOp .., _ => true
  | .fillOp _, _ => true
  | .collectOp _, _ => true
  | _, .collectOp _ => true
  | _, .rangeOp .. => true
  | _, .fillOp _ => true
  | _, _ => (u.waiter && t.waiter) || u.clashes t

/-- The transactions of a line that stand before `t` in its list. -/
def State.earlier (s : State) (t : Txn) : List Txn :=
  (s.txns.filter fun u => u.line == t.line).takeWhile fun u => u.id != t.id

/-- No earlier transaction keeps `t` from taking effect. -/
def State.clear (s : State) (t : Txn) : Bool := !(s.earlier t).any (·.blocks t)

/-- R169: the line's directory entry is free for `t`: no earlier transaction keeps the line busy or has yet to act on it. -/
def State.mayStart (s : State) (t : Txn) : Bool :=
  !(s.earlier t).any fun u => u.busy || (!u.served && !u.started && !u.isCtl && !u.isOp)

/-- The transaction of a provisional read, which has not been served yet. -/
def Txn.isRead (t : Txn) (e : ProvEnt) : Bool :=
  t.prov && (match t.kind with
    | .req _ q g => q.txid == e.txid && g == e.tag && (g.isSome || q.port == e.port)
    | _ => false)

/-- R144: a `PROV_VOID` of the line has not left yet. Until it has, no write and no new poison of the line is seen: neither the void of an
open entry that waits for a credit, nor one that a provisional read ordered before `t` owes after its last flit. -/
def State.voidHeld (s : State) (t : Txn) : Bool :=
  let shows := [0, 1].any fun i => t.touches.1 i && ((s.dataFor t i).map (·.2)).getD false
  let changes := shows || t.touches.2 0 || t.touches.2 1 || (match t.kind with | .req op _ _ => op.isWrite | _ => false)
  (s.heldOut.any fun h => match h.flit with | .snp _ op l _ _ => op == 4 && l == t.line | _ => false) ||
  (s.span.waitTx.any fun w => match w.item with | .snp op l _ _ => op == 4 && l == t.line | _ => false) ||
  (changes && s.prov.any fun e => e.line == t.line && e.voidPend && e.st == .pending &&
    ((s.earlier t).any (·.isRead e) || !s.txns.any (·.isRead e)))

/-- R250: an earlier arrival whose payload has not come may yet seal the window that `t` contributes to. -/
def State.maySeal (s : State) (t : Txn) (w : Nat) : Bool :=
  let x := s.win w
  let open' := (s.txns.filter fun u => u.isCtl && u.win == some w && u.id < t.id).length
  0 < open' && x.expect != 0 && x.expect ≤ x.count + open'

/-- R82, R137: the first sector of a read that is here and has not left. -/
def State.earlySector (s : State) (t : Txn) (op : ReqOp) (q : Req) (tag : Option Nat) : Option Nat :=
  if !(op.isRead || op == .rdUnique) || tag.isSome || t.timedOut || (s.sumOf t).isSome ||
      (!t.fromOwner && !t.snoopsDone) then none
  else
    let own (i : Nat) : Bool := (if i == 0 then t.ownLo else t.ownHi).isSome ||
      t.snoops.any fun k => !k.taken && k.notice.isNone && (if i == 0 then k.lo else k.hi).isSome
    [q.sector, 1 - q.sector].find? fun i =>
      q.covers i && !t.sent.contains i &&
      (if t.fromOwner && !t.snoopsDone then own i else (s.dataFor t i).isSome)

/-- R82, R137: a sector leaves as soon as it is here. -/
def State.sendEarly (t : Txn) (q : Req) (i : Nat) (s : State) : State :=
  let held := if t.fromOwner && !t.snoopsDone then t.snoops.findSome? fun k => if k.taken then none else halfOf i k.lo k.hi else none
  let given := held <|> halfOf i t.ownLo t.ownHi
  let s := if given.isSome then s else s.readLineData t.line (i == 0) (i == 1)
  let (d, p) := (given <|> s.dataFor t i).getD (0, true)
  let done := [0, 1].all fun j => !q.covers j || j == i || t.sent.contains j
  (State.emit (.dat q.port q.txid i d p false done) (s.use 1 32)).setTxn t.id fun x =>
    { x with sent := x.sent ++ [i], sentBad := x.sentBad || p }

/-- The turn of a request: its directory work, a sector that may leave early, or its effect. -/
def State.reqTurn (t : Txn) (op : ReqOp) (q : Req) (tag : Option Nat) (s : State) : Option State :=
  if op.isNotice then (if q.dataIn op then some (s.noticeDone t q tag) else none)
  else if !t.started then
    if !s.mayStart t || !s.clear t then none
    else if t.timedOut then some (s.dropTxn t.id)
    else
      let s := s.reclaimLine t.line
      if s.installing t.line then some s
      else if s.needsEntry op q t.lens (s.dirAt t.line) && (s.dirWait t.line).isSome &&
          !(t.evb && s.dirWait t.line == some .evictBuf) then none
      else some (s.startReq t op q tag)
  else if !s.clear t || s.voidHeld t || (t.wst == .idle && ((s.sumWin t.line).map s.releasing).getD false) then none
  else if (t.win.map (s.maySeal t)).getD false && !t.timedOut then none
  else
    let checks := op.checked && q.dataIn op && t.opLo.isNone && t.opHi.isNone && !t.opAsked && t.snoopsDone && !t.timedOut
    match (if checks then s.payload t op q else none) with
    | some (st, log) =>
      let s := s.payLog log op q tag
      let s := match st, t.late with | .late, some w => s.countLate w t.id | _, _ => s
      some (s.endWith t op q tag st [])
    | none =>
      if s.ready t op q then some (s.serveReq t op q tag)
      else (s.earlySector t op q tag).map fun i => s.sendEarly t q i

/-- R96, R142: an operation's access to its line begins: it is matched, and takes its place behind everything that has an order
point. The placing of a plane and a collect keep their window's lens (R246, R253). -/
def State.beginOp (t : Txn) (f : Txn → Txn) (s : State) : State :=
  let lens (x : Txn) : Option Nat := (match x.kind with | .rangeOp 5 _ | .collectOp _ => x.lens | _ => s.lensAt (x.line * 128))
  let begin (x : Txn) : Txn := f { x with started := true, lens := lens x }
  { s with txns := s.txns.filter (·.id != t.id) ++ (s.txns.filter (·.id == t.id)).map begin }

/-- An operand read is an access of a collect, which is an operation of the slice's own (R289). -/
def State.ofCollect (s : State) (parent : Nat) : Bool :=
  s.txns.any fun u => u.id == parent && (match u.kind with | .collectOp _ => true | _ => false)

/-- R133, R136, R297: an operand read cannot be issued now. -/
def State.operandWaits (s : State) (t : Txn) (parent : Nat) (q : Req) : Bool :=
  let src := s.source .rdOnce q
  let keeps := src.owner && ((s.cached t.line 0).isNone || (s.cached t.line 1).isNone)
  s.busy t.line || (src.owner && 512 ≤ s.trackers) ||
  (((src.lo || src.hi) && !src.join || keeps) && 512 ≤ s.regsUsed) ||
  ((src.join || keeps) && 32 ≤ s.lineClaims t.line) || ((src.lo || src.hi || keeps) && 8192 ≤ s.poolUsed) ||
  (s.ofCollect parent && !s.selfCovers t.grp t.line)

/-- The turn of an operand read: it gives its line to the outflow that asked for it (R117, R118, R228, R253). A line of a scratchpad
is read uncached (R204, R205). -/
def State.operandTurn (t : Txn) (parent : Nat) (q : Req) (s : State) : Option State :=
  if !t.started then
    if !s.mayStart t || s.installing t.line || s.operandWaits t parent q then none
    else
      let t := { t with lens := s.lensAt (t.line * 128) }
      let s := if s.ofCollect parent then s.selfPay t.grp t.line else s
      let s := (s.readLookup t.line).reclaimLine t.line
      let addr := t.line * 128
      if s.inScratch addr then
        some (((s.beginOp t id).readUc addr t.part (.operand t.id)).readUc (addr + 64) t.part (.operand t.id))
      else if s.installing t.line then some s
      else
        let s := s.deadRead t.line t.part
        let src := s.source .rdOnce q
        let s := if src.owner || !(src.lo || src.hi) then s
          else if src.join then
            (s.widenMr t.line src.lo src.hi (s.mayAlloc .rdOnce q t.lens) t.lens).count Ev.mrMerge (some t.part)
          else s.openMr t.line t.part t.lens (s.mayAlloc .rdOnce q t.lens) false .fabric src.lo src.hi 0
        let s := s.beginOp t fun x => { x with waiter := !src.owner && (src.lo || src.hi), hit := (s.lineOf t.line).isSome }
        some (s.startReq t .rdOnce q none)
  else if !s.clear t || !s.ready t .rdOnce q then none
  else
    let s := if t.fromOwner && !t.settled then s.ownerAfter t else s
    let s := s.readLineData t.line t.ownLo.isNone t.ownHi.isNone
    let lo := s.dataFor t 0
    let hi := s.dataFor t 1
    some (((s.hitTouch t).dropTxn t.id).setTxn parent fun x => { x with opLo := lo, opHi := hi, opAsked := false })

/-- The turn of a walk's fill (R133, R150, R174): it holds a miss register since it begins, and takes none beyond the limit. -/
def State.fillTurn (t : Txn) (walk : Nat) (s : State) : Option State :=
  let full := s.fillNeedsReg t.line && 512 ≤ s.regsUsed
  if !t.started then
    if s.busy t.line || s.installing t.line || (512 ≤ s.trackers && ((s.dirAt t.line).bind (·.owner)).isSome) || full then none
    else
      let s := (s.readLookup t.line).reclaimLine t.line
      if s.installing t.line then some s
      else
      let owner := (s.dirAt t.line).bind (·.owner)
      let keep := s.fillNeedsReg t.line
      let s := s.beginOp t fun x => { x with busy := owner.isSome, fromOwner := owner.isSome, keep := keep }
      match owner with
      | some o => some (s.snoopAll t.id 3 t.line [o])
      | none => some s
  else if t.snoopsDone && s.clear t && (t.keep || !full) then some (s.fillAfter t walk) else none

/-- R174, R297: a range operation cannot issue its access now: the line is busy, a fill of it is under way, a request ordered before
it has still to do its directory work, or the balance of its group (R289) does not cover it. -/
def State.rangeWaits (s : State) (t : Txn) (k : Nat) : Bool :=
  let line := t.line
  s.busy line || s.installing line || (512 ≤ s.trackers && k != 4 && (s.dirAt line).isSome) ||
  s.mrs.any (fun m => m.line == line && (m.st == .miss || m.st == .fill)) ||
  s.txns.any (fun u => u.line == line && !u.served && !u.started && !u.isCtl && !u.isOp) ||
  (k ≤ 5 && !s.selfCovers (s.selfGroup t.part) line)

/-- The turn of a range operation (R174); the operations that conflict with every provisional read void them as they issue their
access (R141). -/
def State.rangeTurn (t : Txn) (k id : Nat) (s : State) : Option State :=
  let line := t.line
  if !t.started then
    if s.rangeWaits t k then none
    else
      let s := if k ≤ 5 then s.selfPay (s.selfGroup t.part) line else s
      let s := (s.readLookup line).reclaimLine line
      let s := s.beginOp t fun x => { x with busy := true }
      let s := if k == 2 || k == 3 || k == 5 || k == 6 then s.voidProv line else s
      match s.dirAt line with
      | none => some s
      | some e =>
        some (if k == 0 then (match e.owner with | some o => s.snoopAll t.id 3 line [o] | none => s)
          else if k == 4 then s else s.snoopAll t.id 2 line (s.holders e none))
  else if !t.snoopsDone || !s.clear t || s.voidHeld t || (k != 2 && k != 5 && !s.wbRoom line) then none
  else
    let s := match k with
      | 0 => s.ownerAfter t
      | 4 => s
      | 1 => s.invRange t
      | _ => s.freeDir line
    let part := s.opPart id line t.lens
    let s := if k == 5 then
        (match (s.win id).arming with | some a => s.placeSum a line | none => s)
      else s.rangeLine k line part t.lens
    some (s.dropTxn t.id)

/-- The turn of a collect on a sum line; the lines take it in ascending order (R253), each in its place of its line's order when the
walk reaches it and its group's balance covers it (R289, R297). -/
def State.collectTurn (t : Txn) (w : Nat) (s : State) : Option State :=
  match (s.win w).col with
  | none => some (s.dropTxn t.id)
  | some c =>
    let d := outDesc c.d0 c.d1
    if !t.started then
      if !s.selfCovers (s.selfGroup t.part) t.line || s.txns.any (fun u => u.kind == t.kind && u.line < t.line) then none
      else some ((s.selfPay (s.selfGroup t.part) t.line).beginOp t id)
    else if !s.clear t || t.opAsked then none
    else if d.fuse != 0 && t.opLo.isNone && t.opHi.isNone then
      some (s.askOperand t (d.opnd + (t.line * 128 - (s.win w).base)) t.part)
    else some (((s.readLookup t.line).dropTxn t.id).collectLine w t.line t.opLo t.opHi)

/-- R131: an installation that waits, once there is room. -/
def State.installTurn (t : Txn) (mode : Nat) (s : State) : Option State :=
  if !s.clear t || s.installStuck mode t.line t.part t.lens then none
  else some (((s.hitTouch t).installNow mode t.line t.part t.lens t.ownLo t.ownHi).dropTxn t.id)

/-- What a transaction of a line can do now. -/
def State.turn (t : Txn) (s : State) : Option State :=
  let s := s.runAs (some t.grp) t.agent
  match t.kind with
  | .evict _ => if t.snoopsDone then some (s.dropTxn t.id) else none
  | .req op q tag => if t.isCtl then none else s.reqTurn t op q tag
  | .operand parent q => s.operandTurn t parent q
  | .fillOp walk => s.fillTurn t walk
  | .rangeOp k id => s.rangeTurn t k id
  | .collectOp w => s.collectTurn t w
  | .install mode => s.installTurn t mode

/-- A read of the line's missing sectors for the transaction itself is under way. -/
def State.ownRead (s : State) (t : Txn) : Bool := (s.memOut ++ s.memWait).any fun r => r.use == .operand t.id

/-- A started request that finds a needed sector nowhere reads it from memory: its owner has answered without data (R178), for
which it holds a register and a waiter entry (R136), or the line has left the array since its FCLK 12. It never waits for a register
(R136): where none is free it reads the sectors uncached for itself once its turn has come (log entry 132). -/
def State.fallBack (t : Txn) (op : ReqOp) (q : Req) (s : State) : State :=
  let (lo, hi) := needs op q none
  let lo := lo && (s.dataFor t 0).isNone
  let hi := hi && (s.dataFor t 1).isNone
  let addr := t.line * 128
  let joins := (s.joinable t.line).isSome
  if !t.snoopsDone || (op == .upgrade && t.upg != 0) || (s.sumOf t).isSome || !(lo || hi) || s.inScratch addr then s
  else if joins && (t.waiter || t.keep || (s.lineClaims t.line < 32 && s.poolUsed < 8192)) then
    let s := (s.setTxn t.id fun x => { x with waiter := true, keep := false }).countN Ev.mrMerge (some t.part) (b2n !t.waiter)
    s.widenMr t.line lo hi (s.mayAlloc op q t.lens) t.lens
  else if !joins && (t.keep || (s.regsUsed < 512 && s.poolUsed < 8192)) then
    (s.setTxn t.id fun x => { x with memRead := true, waiter := true, keep := false }).openMr t.line t.part t.lens
      (s.mayAlloc op q t.lens) (s.relayed t.line) .fabric lo hi q.sector
  else if !s.clear t || s.ownRead t then s
  else
    let s := s.setTxn t.id fun x => { x with memRead := true }
    let s := if lo then s.readUc addr t.part (.operand t.id) else s
    if hi then s.readUc (addr + 64) t.part (.operand t.id) else s

/-- R179: the transactions of a line take the answers that have come, and those that find no data read memory. -/
def State.absorbLine (line : Nat) (s : State) : State :=
  (s.txns.filter fun t => t.line == line && t.started && !t.served).foldl (fun s t =>
    let s := (s.runAs (some t.grp) t.agent).absorbAll t.id
    match s.txns.find? (·.id == t.id), t.kind with
    | some t, .req op q _ => if t.isCtl || t.timedOut then s else s.fallBack t op q
    | some t, .operand _ q => s.fallBack t .rdOnce q
    | _, _ => s) s

/-- R448: a damaged entry that the line's transactions read. -/
def State.lineDamage (s : State) (line : Nat) : Option (Damage × Nat) :=
  s.bad.findSome? fun d => match d with
    | .mr l => if l == line && s.mrs.any (·.line == line) then some (d, 0) else none
    | .txn i => (s.txns.find? fun t => t.id == i && t.line == line).map fun t =>
        (d, match t.kind with | .evict _ => 5 | _ => if t.busy || t.trk then 2 else 1)
    | _ => none

/-- One step of the transactions of a line: the first in list order that can act. -/
def State.pumpOne (line : Nat) (s : State) : Option State :=
  match s.lineDamage line with
  | some (d, kind) => some (s.badEntry d kind none)
  | none =>
    let s := s.readBuffered line
    (s.txns.filter fun t => t.line == line && !t.served).findSome? fun t => s.turn t

/-- Serve a line as far as it goes. -/
def State.pump (line : Nat) : Nat → State → State
  | 0, s => s
  | n + 1, s =>
    let s := s.absorbLine line
    match s.pumpOne line with
    | none => s.sweepMr line
    | some s => s.pump line n

/-- Serve a line: each transaction takes a few steps; the work charges back to the group that ran before. -/
def State.pumpLine (line : Nat) (s : State) : State :=
  s.runLike ((s.pump line (6 * s.txns.length + 6)).sweepMr line)

/-! ### Entering the line (R129, R136, R142) -/

/-- Count a wait under R136, R169, R176 or R407. -/
def State.noteWait (c : WaitCause) (part : Nat) (s : State) : State :=
  match c with
  | .missReg | .waiterPool | .relay => s.count Ev.mrWait (some part)
  | .tracker | .busyLine => s.count Ev.busyWait (some part)
  | .evictBuf => s.count Ev.dirEvictWait (some part)
  | _ => s

/-- A request waits in its port's request buffer; `behind` says that only an earlier request of its agent holds it back
(R21), which is no wait of R136, R169 or R176. -/
def State.park (w : WaitReq) (c : WaitCause) (behind : Bool) (s : State) : State :=
  let s := s.dropSpec w.q.line
  let s := if behind then s else s.noteWait c w.q.part
  { s with waiting := s.waiting ++ [{ w with cause := c, looked := true }] }

/-- R129, R131, R136, R169: what keeps a request from its FCLK 12: a line that is busy, unless it joins the line's register, dirty
data of the line that wait for the write-back buffer, or a resource. -/
def State.blocked (s : State) (w : WaitReq) : Option WaitCause :=
  if s.installing w.q.line then some .wbBuf
  else if s.busy w.q.line && !(s.source w.op w.q).join then some .busyLine
  else if s.ownRole w.op w.q && !(s.source w.op w.q).join then none
  else s.lacks w.op w.q w.lens

/-- A request's FCLK 12 with all it needs at hand (R127, R129, R136, R142): its lookup counts, its data are fixed, it takes its
place in the line's order, and unless it joins a register its directory work begins. One that needs directory work waits for
earlier requests of the line that have still to do theirs (R135). -/
def State.take12 (w : WaitReq) (win late : Option Nat) (s : State) : State :=
  let op := w.op
  let q := w.q
  let line := q.line
  let src := s.source op q
  if s.ownRole op q && !src.join then
    let s := (s.protoErr op.code line q.agent (logPort q w.tag) q.part).dropSpec line
    s.answer op q w.tag false .aborted 0 false []
  else
    let e := s.dirAt line
    let need := s.willBusy op q w.lens e
    let later := s.startsLater op q w.lens
    let tracker := s.mayNeedTracker op q w.lens later
    let evict := s.mayNeedEvict op q w.lens later
    let miss := src.lo || src.hi
    let t : Txn := { id := s.nextId, kind := .req op q w.tag, line := line, part := q.part, lens := w.lens, started := false,
                     win := win, late := late, prov := q.provisional, age := w.age, grp := w.grp, agent := some q.agent,
                     hit := (s.lineOf line).isSome, memRead := miss, waiter := miss && !src.owner,
                     wst := ((s.planeWin line).map fun x => (s.win x).st).getD .idle }
    match (if op.checked && q.dataIn op && !(win.map (s.maySeal t)).getD false then s.payload t op q else none) with
    | some (st, log) =>
      let s := s.payLog log op q w.tag
      let s := match st, late with | .late, some x => s.countLate x t.id | _, _ => s
      s.refuseTxn t op q w.tag st
    | none =>
      let (lo, hi) := needs op q e
      let inBuf := (lo && !((s.lineOf line).map (·.lo.v)).getD false && (s.wbSec line 0).isSome) ||
                   (hi && !((s.lineOf line).map (·.hi.v)).getD false && (s.wbSec line 1).isSome)
      let alloc := s.mayAlloc op q w.lens
      let s := s.noteLookup op q w.tag w.lens
      let reads := op.isRead || op == .rdUnique || (op == .upgrade && upgradeRole e q.agent == 0)
      let s := if reads then s.deadRead line q.part else s
      let s := if op.isWrite && late.isNone then s.voidProv line else s
      let s := if inBuf && alloc then s.reinstall line q.part w.lens else s
      let whole := wholeFetch op && (s.lineOf line).isNone && (s.wbSec line 0).isNone && (s.wbSec line 1).isNone
      let s := if !t.waiter then s.dropSpec line
        else if src.join then (s.widenMr line src.lo src.hi alloc w.lens).count Ev.mrMerge (some q.part)
        else s.openMr line q.part w.lens alloc (s.relayed line) .fabric (src.lo || whole) (src.hi || whole) q.sector
      let t := if later then
          { t with busy := need, trk := tracker, evb := evict,
                   keep := src.owner && ((s.cached line 0).isNone || (s.cached line 1).isNone) }
        else t
      let s := if q.provisional then
          { s with prov := s.prov ++ [{ agent := q.agent, port := q.port, txid := q.txid, line := line, part := q.part,
                                        lens := w.lens, once := op == .rdOnce, st := .pending, tag := w.tag, grp := w.grp }] }
        else s
      let s := { s with txns := s.txns ++ [t], nextId := s.nextId + 1 }
      -- the order point of a contribution whose payload is here and good (R222, R249)
      let opens := op.checked && q.dataIn op && !(win.map (s.maySeal t)).getD false
      let s := match win with | some i => if opens then s.openWin i t.id else s | none => s
      (if later then s else s.startReq t op q w.tag).pumpLine line

/-- A request enters its line: it waits, or has its FCLK 12 (R129, R136). -/
def State.enter (w : WaitReq) (win late : Option Nat) (s : State) : State :=
  match s.blocked w with
  | some c => s.park w c false
  | none => s.take12 w win late

end Sys2Proof.Machine
end

