-- ==== Sys2Proof/Machine/Windows.lean ====
section
/-! DEFINITION. Reduction windows: arming, arrivals, folds, sealing, finalising, collecting and releasing
(R240 to R258, R493). -/

namespace Sys2Proof.Machine

open Sys2Proof

/-! ### Planes -/

/-- The lines of a plane that this slice homes, in ascending order. -/
def State.planeLines (s : State) (base size : Nat) : List Nat :=
  ((List.range (size * 16384)).map (base / 128 + ·)).filter s.homed

/-- Two byte ranges overlap. -/
def rangesMeet (a n b m : Nat) : Bool := a < b + m && b < a + n

/-- R245: an active lens of the partition with `REDUCTION` set holds the address. -/
def State.reductionLens (s : State) (part addr : Nat) : Option Nat :=
  match s.lensAt addr with
  | some i => if (s.descOf (some i)).reduction && (s.descOf (some i)).part == part then some i else none
  | none => none

/-- R245: the plane or header line of a window that is not `IDLE` overlaps the given plane or header line. -/
def Window.meets (x : Window) (base size hdr : Nat) : Bool :=
  x.st != .idle &&
  (rangesMeet x.base (x.size * 2 ^ 21) base (size * 2 ^ 21) || rangesMeet x.base (x.size * 2 ^ 21) hdr 128 ||
   rangesMeet x.hdr 128 base (size * 2 ^ 21) || x.hdr == hdr)

/-- R213: the arithmetic fields and their combination. -/
def accOk (acc ifmt ofmt : Nat) : Bool :=
  if acc == 2 then 10 ≤ ifmt && ifmt ≤ 12 && (ofmt == 5 || ofmt == 6) else acc ≤ 1 && ifmt ≤ 9 && ofmt ≤ 4

/-- R245: the fit check, set by set. -/
def State.fits (s : State) (a : WinArgs) : Bool :=
  let lines := s.planeLines a.base a.size
  let pin := (s.part a.part).pin
  let scr := (s.part a.part).scratch
  lines.all fun l =>
    let set := setOf l
    let here := lines.filter (setOf · == set)
    let need := (here.filter fun x =>
      !((s.lineOf x).map (fun c => c.part == a.part && wayIn pin c.way)).getD false).length
    need + s.heldPins set a.part ≤ (s.freeWays set pin).length &&
      (a.acc != 1 || here.length + s.heldScratch set a.part ≤ (s.freeWays set scr).length)

/-- A bucket that holds a line of the plane is in a handover state. A 2 MiB plane holds lines of every bucket (R55). -/
def State.planeMoves (s : State) : Bool := s.hand.buckets.any fun h => !h.relayOnly

/-! ### `ARM_WINDOW` (R244 to R246, R493) -/

/-- R379: the window an `ARM_WINDOW` names. -/
def armWin (m : MbCmd) : Nat := bits (m.arg 2) 5 0

/-- R379: the arguments of an `ARM`, with the slot of the lens that holds the plane. -/
def State.armArgs (s : State) (m : MbCmd) : WinArgs :=
  let a := m.arg 2
  let base := bits (m.arg 1) 51 0
  { hdr := bits (m.arg 0) 51 0, base := base, size := bits (m.arg 1) 57 52, expect := bits a 31 8, acc := bits a 33 32,
    ifmt := bits a 37 34, ofmt := bits a 40 38, sat := bit a 41, autoFin := bit a 42, part := bits a 46 43,
    lens := (s.lensAt base).getD 0 }

/-- R245: the first code whose condition holds. -/
def State.armCheck (s : State) (w : Nat) (issuer : Option Nat) (a : WinArgs) : Err :=
  if (match issuer with | some p => p != a.part | none => false) then .partitionAccess
  else if a.hdr % 128 != 0 || a.base % 2 ^ 21 != 0 then .align
  else if !accOk a.acc a.ifmt a.ofmt || a.size == 0 || 32 < a.size || !(s.part a.part).active then .fieldRange
  else match s.reductionLens a.part a.base, s.reductionLens a.part a.hdr with
    | some i, some _ =>
      if !(s.descOf (some i)).holds (a.base + a.size * 2 ^ 21 - 1) || !s.homed (a.hdr / 128) then .fieldRange
      else if rangesMeet a.base (a.size * 2 ^ 21) a.hdr 128 ||
          (s.wins.zipIdx).any (fun (x, j) => j != w && x.meets a.base a.size a.hdr) then .lensOverlap
      else if (s.win w).st != .idle || s.planeMoves then .busy
      else if !s.fits a then .pinCeiling else .ok
    | _, _ => .fieldRange

/-- Begin the placing pass of an accepted `ARM` or `REARM`: every homed line of the plane is placed, after the snoops of
`ZERO_RANGE` (R174, R246). -/
def State.startArming (w : Nat) (mb : Option Nat) (a : WinArgs) (s : State) : State :=
  let s := s.setWin w fun x => { x with arming := some a, armMb := mb }
  (s.planeLines a.base a.size).foldl (fun t l =>
    State.pumpLine l (t.addTxn (.rangeOp 5 w) l a.part (some a.lens))) s

/-- The header fields of a window as arguments, with a new `EXPECT` (R244). -/
def Window.args (x : Window) (expect : Nat) : WinArgs :=
  { hdr := x.hdr, base := x.base, size := x.size, expect := expect, acc := x.acc, ifmt := x.ifmt, ofmt := x.ofmt,
    sat := x.sat, autoFin := x.autoFin, part := x.part, lens := x.lens }

/-- The placing pass of window `w` has lines left. -/
def State.placing (s : State) (w : Nat) : Bool := s.txns.any fun t => t.kind == .rangeOp 5 w

/-- R244, R246 step 3: the header write. An `ARM` writes every field; a `REARM` keeps all but `EXPECT`, the generation, the
state, the count and the flags. -/
def State.armDone (w : Nat) (s : State) : State :=
  match (s.win w).arming with
  | none => s
  | some a =>
    let mb := (s.win w).armMb
    let s := s.setWin w fun x =>
      { st := .armed, gen := x.gen + 1, base := a.base, size := a.size, expect := a.expect, acc := a.acc, ifmt := a.ifmt,
        ofmt := a.ofmt, sat := a.sat, autoFin := a.autoFin, part := a.part, lens := a.lens, hdr := a.hdr,
        late := if x.st == .idle then 0 else x.late, cause := if x.st == .idle then 0 else x.cause, after := x.after }
    s.mbDone mb .done [BitVec.ofNat 64 (s.win w).gen.toNat]

/-! ### Sealing and draining (R249 to R251) -/

/-- R250: seal a window with a cause. -/
def State.sealWin (w cause : Nat) (s : State) : State :=
  s.setWin w fun x => { x with st := .sealed, cause := cause, drained := false }

/-- R250: what is ordered after a seal point, and has been taken as ordered before one, is refused as `LATE`. -/
def State.lateAfter (w id : Nat) (s : State) : State :=
  { s with txns := s.txns.map fun (t : Txn) =>
      if id < t.id && t.win == some w && !t.served then { t with win := none, late := some w } else t }

/-- R250, R255: the window was sealed at order `id`: the folds ordered after that may read it. -/
def State.srcAfter (w id : Nat) (s : State) : State :=
  let g := (s.win w).gen.toNat
  { s with txns := s.txns.map fun (t : Txn) =>
      if id < t.id && t.isCtl && !t.srcs.any (·.1 == w) && (match t.kind with | .req op _ _ => op == .winFold | _ => false)
      then { t with srcs := t.srcs ++ [(w, g)] } else t }

/-- R242, R250: what an arrival does to a header with `EXPECT` = `e`: it counts, opens, and seals with cause 1 when it brings `COUNT` to
`EXPECT`, whatever has sealed the window since. -/
def WinSnap.arrive (e : Nat) (x : WinSnap) : WinSnap :=
  let n := min (x.count + 1) (2 ^ 24 - 1)
  let full := e != 0 && e ≤ n
  let takes := x.st == .armed || x.st == .opened
  { x with count := n, st := if takes then (if full then .sealed else .opened) else x.st, cause := if full then 1 else x.cause }

/-- R242, R249, R250: an arrival with order `id` that was accepted at its order point. When it brings `COUNT` to `EXPECT` its
order point is the seal point. -/
def State.arrive (w id : Nat) (s : State) : State :=
  let x := s.win w
  let s := s.orderedWin w id (WinSnap.arrive x.expect)
  let y := s.win w
  let s := if y.st == .sealed && x.st != .sealed then s.setWin w fun z => { z with drained := false } else s
  if (y.st == .sealed && x.st != .sealed) || (y.cause == 1 && x.cause != 1) then (s.lateAfter w id).srcAfter w id else s

/-- A contribution or a fold into the window is ordered and not yet applied (R251). -/
def State.unapplied (s : State) (w : Nat) : Bool :=
  s.txns.any (fun t => t.win == some w && !t.served && (match t.kind with
    | .req op _ _ => !(op == .winArrive || op == .winCollect)
    | _ => false)) || s.folds.any (·.dst == w)

/-- A fold reads the window as its source, or may come to: it is ordered before `ord` and its payload has not arrived (R255,
R256). -/
def State.isSource (s : State) (w ord : Nat) : Bool :=
  s.folds.any (·.src == w) || s.txns.any fun t => t.id < ord && t.srcs.any (·.1 == w)

/-- R251 to R253: a request that is ordered on a line of the window's plane, and on its generation, has not been served. -/
def State.planeBusy (s : State) (w : Nat) : Bool :=
  s.txns.any fun t => (s.win w).holds t.line && !t.served && !t.isCtl && t.wst != .idle

/-- R252, R255: a read or a contribution ordered on the plane has not been served; one that is `LATE` touches nothing. -/
def State.planeUsed (s : State) (w : Nat) : Bool :=
  s.txns.any fun t => (s.win w).holds t.line && !t.served && !t.isCtl && t.wst != .idle && t.late.isNone

/-- R249: a window request ordered before `ord` waits for its payload, or for its turn. -/
def State.awaited (s : State) (w ord : Nat) : Bool :=
  s.txns.any fun t => t.isCtl && t.id < ord && (t.win == some w || t.late == some w)

/-- R142, R242: a request on the window, or a contribution to it, that is ordered before `ord` has still to change its header. -/
def State.headerMoves (s : State) (w ord : Nat) : Bool :=
  s.txns.any fun t => !t.served && t.id < ord && (t.win == some w || t.late == some w)

/-- Give the outcome of `SEAL` or `FINALIZE` with the ready word. -/
def State.sealDone (src : SwapSrc) (w : Nat) (st : Status) (s : State) : State :=
  s.srcDone src st [BitVec.ofNat 64 (s.win w).ready] 0

/-- R251: finalisation begins when the window has drained and it is asked for. -/
def State.beginFinal (w : Nat) (s : State) : State :=
  s.setWin w fun x =>
    if x.st == .sealed && x.drained && (x.autoFin || x.finReq) then { x with finalising := true } else x

/-- R278: the changes of the lens sets accepted so far. -/
def State.lensAccepted (s : State) : Nat := s.lens.done + s.lens.queue.length

/-- R251: wait for `FINAL`, sealing first where that is needed. A finalisation that an action begins accesses no line before the
swaps accepted before the action have been performed (R278). DESIGN CHOICE (log entry 136): on a window with `AUTO_FIN` it is the
seal that begins the finalisation, and a `FINALIZE` action there holds nothing back. -/
def State.finalizeWin (src : SwapSrc) (w : Nat) (s : State) : State :=
  let need := s.lensAccepted
  let s := s.setWin w fun x =>
    match src with
    | .mailbox m => { x with finReq := true, finMbs := x.finMbs ++ [m], finNeed := if x.finalising then x.finNeed else 0 }
    | .action i => { x with finReq := true, finSlots := x.finSlots ++ [i],
                            finNeed := if x.finReq || x.autoFin then x.finNeed else need }
  let s := if (s.win w).st == .sealed then s else s.sealWin w 3
  s.beginFinal w

/-- R249, R277, R377, R493: `SEAL`, or `FINALIZE` when `fin` is set, from a mailbox or a cue action. -/
def State.sealOp (src : SwapSrc) (fin : Bool) (w : Nat) (issuer : Option Nat) (gen : Option Nat) (s : State) : State :=
  let x := s.win w
  let stale := match gen with | some g => g != x.gen.toNat | none => false
  let cue := match src with | .action _ => true | .mailbox _ => false
  if cue && stale then s.sealDone src w .aborted
  else if x.arming.isSome then s.srcRefuse src .busy
  else if x.st == .idle then s.srcRefuse src .fieldRange
  else if (match issuer with | some p => p != x.part | none => false) then s.srcRefuse src .partitionAccess
  else if stale then s.sealDone src w .aborted
  else if x.st == .final || x.st == .collected then s.sealDone src w .done
  else if fin then s.finalizeWin src w
  else if x.st == .sealed then s.sealDone src w .done
  else (s.sealWin w 2).sealDone src w .done

/-! ### Collecting (R253, R254) -/

/-- What a collect meets. -/
inductive ColCheck where
  | go
  | status (st : Status)
  | err (e : Err)
  | misplaced
deriving DecidableEq, Repr

/-- R249 and R254, in order; `st` and `gen` are the window's at the collect's order point. -/
def State.colCheck (s : State) (w : Nat) (st : WinState) (gen : Nat) (c : ColArgs) : ColCheck :=
  let x := s.win w
  let d := outDesc c.d0 c.d1
  let n := x.size * 2 ^ 21 * ofmtBytes x.ofmt / accBytes x.acc
  if c.gen != gen || st == .collected then .status .alreadyCollected
  else if st != .final then .status .notReady
  else if !c.noOut && (c.dst % 32 != 0 || !s.cfg.scratch.any (fun (b, k) => b * 4096 ≤ c.dst && c.dst + n ≤ (b + k) * 4096))
    then .err .fieldRange
  else if d.fuse != 0 && (d.opnd % planePow x.size != 0 || bucketOf (addrLine d.opnd) != bucketOf (addrLine x.base) ||
      s.lens.slots.any (fun l => l.inAct && (match l.desc with
        | some e => e.reduction && rangesMeet (e.base * 2 ^ 21) (e.size * 2 ^ 21) d.opnd (x.size * 2 ^ 21)
        | none => false))) then .misplaced
  else if x.acc == 2 && (d.fuse != 0 || d.scaleEn) then .err .fieldRange
  else .go

/-- Complete a collect with a status. -/
def State.colStatus (c : ColArgs) (st : Status) (lines : Nat) (s : State) : State :=
  match c.mb, c.req with
  | some m, _ => s.mbDone m st [BitVec.ofNat 64 lines]
  | none, some (p, t, tag) => s.respond p t tag st
  | none, none => s

/-- Refuse a collect: a code for the mailbox, `ABORTED` for a request. -/
def State.colErr (c : ColArgs) (e : Err) (s : State) : State :=
  match c.mb, c.req with
  | some m, _ => s.mbRefuse m e
  | none, some (p, t, tag) => s.respond p t tag .aborted
  | none, none => s

/-- Log and count `FUSE_MISPLACED` (R228, R254, R255). -/
def State.fuseMisplaced (opc part agent port addr : Nat) (s : State) : State :=
  (s.count Ev.fuseMisplaced (some part)).log
    { source := 0x012, part := part, agent := agent, port := port, addr := addr, detail := opc }

/-- R253: the walk begins: an operation of the partition's own group (R289) on every sum line, each of which takes its place in its
line's order when the walk reaches it. The completion is the request's group's. What is ordered on the window after it finds the window
collected. -/
def State.colWalk (w : Nat) (c : ColArgs) (s : State) : State :=
  let x := s.win w
  let g := (c.req.bind (fun (p, i, tag) => (s.resvOf p i tag).map (·.charged))).getD (s.selfGroup x.part)
  let s := s.setWin w fun y => { y with st := .collected, col := some { c with grp := some g }, colPoison := false, colLines := 0 }
  let s : State := { s with txns := s.txns.map fun (t : Txn) =>
      if c.ord ≤ t.id && t.isCtl && (t.win == some w || t.late == some w) && t.wst == .final then { t with wst := .collected }
      else t }
  let lines := s.planeLines x.base x.size
  let s := lines.foldl (fun t l =>
    { t with txns := t.txns ++ [{ id := t.nextId, kind := .collectOp w, line := l, part := x.part, lens := some x.lens,
                                  started := false, grp := s.selfGroup x.part, wst := .final }],
             nextId := t.nextId + 1 }) s
  lines.foldl (fun t l => t.pumpLine l) s

/-- Perform a collect (R249, R253, R254). -/
def State.collectWin (w : Nat) (st : WinState) (gen : Nat) (c : ColArgs) (s : State) : State :=
  match s.colCheck w st gen c with
  | .go => s.colWalk w c
  | .status st => s.colStatus c st 0
  | .err e => s.colErr c e
  | .misplaced =>
    let port := match c.req with
      | some (p, _, tag) => if tag.isSome then 12 else p
      | none => 14
    (s.fuseMisplaced (if c.mb.isSome then 0x09 else 0x22) (s.win w).part 0 port (bits c.d0 51 0)).colStatus c .aborted 0

/-! ### Commands that wait for a quiet window (R256) -/

/-- R256: the command at the head of the list must still wait; a window request ordered before it may wait for its payload. -/
def State.mustWait (s : State) (w : Nat) (o : WinOp) : Bool :=
  let x := s.win w
  match o with
  | .release _ fin ord => s.isSource w ord || s.awaited w ord || x.col.isSome || s.unapplied w || s.planeBusy w ||
      (x.st == .sealed && (fin || x.finalising || !x.drained))
  | .rearm _ _ ord => s.isSource w ord || s.awaited w ord || x.col.isSome
  | .collect c => s.isSource w c.ord || s.awaited w c.ord

/-- R90, R246: invalidate the residual lines of a window. -/
def State.dropResiduals (w : Nat) (s : State) : State :=
  let x := s.win w
  { s with arr := s.arr.filter fun (c : CLine) => !(c.resid && x.holds c.line) }

/-- R246: `RELEASE`. -/
def State.releaseWin (w : Nat) (s : State) : State :=
  (s.dropResiduals w).setWin w fun x => { x with st := .idle, drained := false, finReq := false, finalising := false }

/-- Perform one command on a window. A collect that waits was accepted before any `REARM` that makes the window arming now. -/
def State.winOp (w : Nat) (o : WinOp) (s : State) : State :=
  match o with
  | .release mb .. => (s.releaseWin w).mbDone mb .done [BitVec.ofNat 64 (s.win w).gen.toNat]
  | .rearm mb e _ =>
    let x := s.win w
    let s := s.setWin w fun y => { y with arming := none }
    if x.st == .idle then s.mbRefuse mb .fieldRange
    else if !(x.st == .final || x.st == .collected) then s.mbRefuse mb .busy
    else s.startArming w mb (x.args e)
  | .collect c =>
    let x := s.win w
    if x.st == .idle then s.colErr c .fieldRange else s.collectWin w x.st x.gen.toNat c

/-- Perform the waiting commands of a window as far as they go. -/
def State.winGo (w : Nat) : Nat → State → State
  | 0, s => s
  | n + 1, s =>
    match (s.win w).after with
    | [] => s
    | o :: rest =>
      if s.mustWait w o then s
      else ((s.setWin w fun x => { x with after := rest }).winOp w o).winGo w n

/-- Every window's waiting commands. -/
def State.winsGo (s : State) : State :=
  (List.range 64).foldl (fun t w => t.winGo w (t.win w).after.length) s

/-- Every line with work goes on, in two rounds, for the operand of one line may come from another. -/
def State.pumpOps (s : State) : State :=
  let lines (t : State) : List Nat := ((t.txns.filter fun x => !x.served && !x.isCtl).map (·.line)).dedup
  let s := (lines s).foldl (fun u l => u.pumpLine l) s
  (lines s).foldl (fun u l => u.pumpLine l) s

/-- R70 step 4: requests of a bucket that the slice has accepted and not yet completed: those on its lines, the folds and collects
that a request to its headers asked for, and the rings of its bells. A request that goes to the twin is none of them. -/
def State.bucketBusy (s : State) (b : Nat) : Bool :=
  s.txns.any (fun t => bucketOf t.line == b) ||
  s.mrs.any (fun m => bucketOf m.line == b && m.st != .discard) ||
  s.waiting.any (fun w => bucketOf w.q.line == b && !w.far) ||
  s.folds.any (fun f => bucketOf (addrLine (s.win f.dst).hdr) == b) ||
  s.wins.any (fun x => !x.collects.isEmpty && bucketOf (addrLine x.hdr) == b) ||
  s.cue.beats.any (fun x => x.src.isSome && bucketOf ((s.cue.chans.getD x.chan {}).cfg.bell) == b)

/-- Update the handover of a bucket. -/
def State.setHand (b : Nat) (f : Handover → Handover) (s : State) : State :=
  { s with hand := { s.hand with buckets := s.hand.buckets.map fun (h : Handover) => if h.bucket == b then f h else h } }

/-- R70 step 4: back-invalidate the bucket's directory entries, void its provisional entries and write its lines to
memory. -/
def State.releaseStart (b : Nat) (s : State) : State :=
  let s := s.setHand b fun h => { h with phase := 1 }
  let s := (s.prov.filter fun (e : ProvEnt) => bucketOf e.line == b).foldl (fun t e => t.voidProv e.line) s
  let dirs := (s.dir.map fun (e : DirEnt) => e.line).filter fun l => bucketOf l == b
  let held := (s.arr.map fun (c : CLine) => c.line).filter fun l => bucketOf l == b
  let lines := (dirs ++ held).dedup
  let s := lines.foldl (fun t l => t.addTxn (.rangeOp 6 b) l ((t.opPart t.nextId l (t.lensAt (l * 128))).getD 0) none) s
  lines.foldl (fun t l => t.pumpLine l) s

/-- R70 step 4, R69: every line is written back and dropped; write the crossing list. -/
def State.releaseList (h : Handover) (s : State) : State :=
  let s := s.setHand h.bucket fun x => { x with phase := 2 }
  (h.crossing.zipIdx).foldl (fun t ((line, agent), i) =>
    let addr := h.listAddr + 8 * i
    t.writeUc addr 3 0 (BitVec.ofNat 512 ((line + agent * 2 ^ 45) * 2 ^ (8 * (addr % 64)))) false (.list h.bucket i)) s

/-- The release of a bucket goes on to its next phase when it can. -/
def State.releaseGo (b : Nat) (s : State) : State :=
  match s.hand.buckets.find? (fun (h : Handover) => h.bucket == b && !h.incoming && !h.relayOnly) with
  | some h =>
    if s.bucketBusy b then s
    else if h.phase == 0 then s.releaseStart b
    else if h.phase == 1 && !s.wbb.any (fun e => bucketOf e.line == b) then s.releaseList h
    else s
  | none => s

/-- Every release goes on; one whose bucket holds nothing passes both phases at once. -/
def State.releasesGo (s : State) : State :=
  s.hand.buckets.foldl (fun t h => (t.releaseGo h.bucket).releaseGo h.bucket) s

/-- R359, R424: every accepted request and operation has completed. -/
def State.quiet (s : State) : Bool :=
  s.waiting.isEmpty && s.prov.isEmpty && s.folds.isEmpty && s.hand.hold.isEmpty && s.span.relays.isEmpty &&
  s.walks.isEmpty && s.ranges.isEmpty && s.cue.beats.isEmpty && s.wins.all (fun w => w.col.isNone && w.arming.isNone) &&
  s.mrs.all (fun m => m.st == .discard) &&
  s.txns.all (fun t => match t.kind with
    | .evict _ | .rangeOp 7 _ | .rangeOp 8 _ => true
    | _ => false)

/-- What a drain in progress has left to do: the line operation, and the lines with a directory entry or data. -/
def State.drainLeft (s : State) : Nat × List Nat :=
  if s.power.cfgDrain then
    (7, s.dir.map (·.line) ++ ((s.arr.filter fun (c : CLine) => c.anyDirty && !c.resid).map (·.line)))
  else if s.power.sleepPh == .offDrain then
    (8, s.dir.map (·.line) ++ ((s.arr.filter fun (c : CLine) => !c.resid).map (·.line)))
  else if s.res.active && s.res.running == some 1 then
    (7, ((s.dir.filter fun (e : DirEnt) => e.part == s.res.part).map (·.line)) ++
      ((s.arr.filter fun (c : CLine) => c.anyDirty && !c.resid && c.part == s.res.part).map (·.line)))
  else (7, [])

/-- A drain goes on: each line that is left takes its operation. The drains for `CONFIG` and `OFF` begin once every
accepted request has completed (R359, R424). -/
def State.drainGo (s : State) : State :=
  if (s.power.cfgDrain || s.power.sleepPh == .offDrain) && !s.quiet then s
  else
    let (k, lines) := s.drainLeft
    let todo := lines.dedup.filter fun l => !s.txns.any fun t => t.line == l && t.kind == .rangeOp k 0
    let part (t : State) (l : Nat) : Nat :=
      (((t.lineOf l).map (·.part)) <|> ((t.dirAt l).map (·.part))).getD 0
    let s := todo.foldl (fun t l => t.addTxn (.rangeOp k 0) l (part t l) (t.lensAt (l * 128))) s
    todo.foldl (fun t l => t.pumpLine l) s

/-- R412: the line lies in a `MIRROR` lens of the active set. -/
def State.mirrored (s : State) (line : Nat) : Bool := (s.descOf (s.lensAt (line * 128))).mirror

/-- R412: an answer to a holder record that has not to wait: the record of a down agent is dropped, one whose line lies in no
`MIRROR` lens or has an owner is refused, and any other agent is recorded as a sharer whose `COMP_ACK` the line then waits for.
`none` while the line is busy or the directory has no room. The answer is charged to the agent's group (log entry 138). -/
def State.holdRec (line agent tag : Nat) (s : State) : Option State :=
  let s := s.runAs (some (s.groupOf agent 0)) (some agent)
  if s.isDown agent then some s
  else if !s.homed line || !s.mirrored line then some (s.spanSend (.hack tag true))
  else if s.busy line || s.installing line then none
  else
    let s := (s.readLookup line).reclaimLine line
    let part := (s.descOf (s.lensAt (line * 128))).part
    let q : Req := { port := 0, agent := agent, txid := tag, addr := line * 128, size := 7, part := part }
    let take (t : State) : Option State :=
      some ((t.ackTxn line part 0 tag 1 (.req .rdShared q (some tag))).spanSend (.hack tag false))
    match s.dirAt line with
    | some e => if e.owner.isSome then some (s.spanSend (.hack tag true)) else take (s.addSharer e agent)
    | none => if (s.dirWait line).isSome then none else take (s.createDir line part none [agent])

/-- R412: the holder records that wait, in their order. -/
def State.holdersGo (s : State) : State :=
  s.span.holders.foldl (fun t (line, agent, tag) =>
    match t.holdRec line agent tag with
    | some u => u
    | none => { t with span := { t.span with holders := t.span.holders ++ [(line, agent, tag)] } })
    { s with span := { s.span with holders := [] } }

/-! ### Window requests (R247, R249, R255) -/

/-- R247, R254: a reserved byte or field of the payload is set. -/
def winResv (op : ReqOp) (d : Sector) : Bool :=
  match op with
  | .winArrive => d.toNat >>> 32 != 0
  | .winFold => d.toNat >>> 128 != 0 || bits (getBytes d 0 8) 63 52 != 0
  | _ => d.toNat >>> 224 != 0 || bits (getBytes d 16 8) 63 53 != 0 || outDescBad (getBytes d 0 8) (getBytes d 8 8)

/-- R255: the windows that a fold may read at its order point, with their generations. -/
def State.foldSrcs (s : State) : List (Nat × Nat) :=
  (s.wins.zipIdx).filterMap fun (y, j) =>
    if (y.st == .sealed || y.st == .final) && y.arming.isNone then some (j, y.gen.toNat) else none

/-- R255: the checks of a fold after those of R249: the source it reads, or how it fails. -/
def State.foldCheck (s : State) (w : Nat) (srcs : List (Nat × Nat)) (d : Sector) : Except Bool Nat :=
  let x := s.win w
  match srcs.find? fun (j, _) => (s.win j).hdr == getBytes d 0 8 with
  | none => .error false
  | some (j, g) =>
    let y := s.win j
    if g != getBytes d 12 4 || j == w then .error false
    else if y.acc != x.acc || y.size != x.size || y.part != x.part then .error false
    else if x.base % planePow x.size != 0 || y.base % planePow x.size != 0 ||
        bucketOf (addrLine x.base) != bucketOf (addrLine y.base) then .error true
    else .ok j

/-- The flits of a read of a reserved line: `d` in the lower sector, zeros in the upper (R243, R270). -/
def reservedFlits (q : Req) (d : Sector) : List (Nat × Sector × Bool) :=
  ((List.range 2).filter q.covers).map fun i => (i, if i == 0 then d else 0, false)

/-- Answer a read of a reserved line. -/
def State.reservedRead (q : Req) (tag : Option Nat) (d : Sector) (s : State) : State :=
  ((s.dropSpec q.line).respondData q.port q.txid tag .done 0 false false (reservedFlits q d)).hotCount q.line false

/-- R243, R247 to R249, R254, R255: a window request whose payload has arrived, or a read of the header whose turn has come. What a
request finds is what stood at its order point, which its transaction has kept: the window's state and generation, whether the
window took contributions, and the windows that a fold may read. Hot pages count it unless it is aborted (R331). -/
def State.winReq (t : Txn) (op : ReqOp) (q : Req) (tag : Option Nat) (s : State) : State :=
  let d := q.payload
  let s := (s.runAs (some t.grp) t.agent).cfgRead (.header ((t.win <|> t.late).getD 0))
  let answer (st : Status) (u : State) : State := u.respond q.port q.txid tag st
  let count (u : State) : State := u.hotCount q.line false
  let late (w : Nat) : State := answer .late (count (s.countLate w t.id))
  if s.power.state == .recovery then answer .aborted s
  else if t.hdrRd then s.reservedRead q tag ((s.win (t.late.getD 0)).withSnap t.snap).header
  else if winResv op d then answer .aborted (s.logHdr op q tag)
  else match t.win <|> t.late with
  | none => answer .aborted s
  | some w =>
    match op with
    | .winArrive => if t.late.isSome || getBytes d 0 4 != t.wgen then late w else answer .done (count (s.arrive w t.id))
    | .winFold =>
      if t.late.isSome || getBytes d 8 4 != t.wgen then late w
      else match s.foldCheck w t.srcs d with
        | .ok j =>
          let s := count (s.arrive w t.id)
          { s with folds := s.folds ++ [{ src := j, dst := w, port := q.port, txid := q.txid, tag := tag, agent := q.agent, age := t.age }] }
        | .error mis =>
          answer .aborted (if mis then s.fuseMisplaced op.code (s.win w).part q.agent (logPort q tag) q.addr else s)
    | _ =>
      let c : ColArgs := { d0 := getBytes d 0 8, d1 := getBytes d 8 8, dst := bits (getBytes d 16 8) 51 0,
                           noOut := bit (getBytes d 16 8) 52, gen := getBytes d 24 4, req := some (q.port, q.txid, tag),
                           ord := t.id, agent := q.agent, age := t.age }
      match s.colCheck w t.wst t.wgen c with
      | .go =>
        if s.isSource w t.id then (count s).setWin w fun x => { x with after := [.collect c] ++ x.after }
        else (count s).colWalk w c
      | .status _ => (count s).collectWin w t.wst t.wgen c
      | _ => s.collectWin w t.wst t.wgen c

/-- R250, R255: a window request ordered before this fold may yet seal the window that the fold reads. -/
def State.foldAwaits (s : State) (t : Txn) (op : ReqOp) (q : Req) : Bool :=
  op == .winFold && (match s.wins.findIdx? fun (x : Window) => x.st != .idle && x.hdr == getBytes q.payload 0 8 with
    | some j => !t.srcs.any (·.1 == j) && s.txns.any fun y => y.isCtl && y.id < t.id && y.win == some j
    | none => false)

/-- R142, R249: window requests whose payloads are here take effect, those of one window in their order; one ordered behind a
collect that waits (R256) waits for it, and a read of the header for the contributions ordered before it (R242). -/
def State.ctlGo (s : State) : State :=
  s.txns.foldl (fun u x =>
    match u.txns.find? (·.id == x.id) with
    | none => u
    | some t =>
      match t.kind with
      | .req op q tag =>
        let w := t.win <|> t.late
        let first := w.isNone || !u.txns.any fun y => y.isCtl && y.id < t.id && (y.win <|> y.late) == w
        let collects := match w with
          | some i => (u.win i).after.any fun o => match o with | .collect c => c.ord ≤ t.id | _ => false
          | none => false
        let waits := (t.hdrRd && u.headerMoves (t.late.getD 0) t.id) || u.foldAwaits t op q
        if t.isCtl && op != .cueRing && q.dataIn op && first && !collects && !waits then (u.dropTxn t.id).winReq t op q tag else u
      | _ => u) s

/-- R359 step 3: while a drain for `CONFIG` runs, every provisional entry is voided, one that opens in it too. -/
def State.cfgVoid (s : State) : State := if s.power.cfgDrain then s.voidEnts fun _ => true else s

/-- The end of a meaning that may have moved a transaction on or let a window, a bucket or a drain come to rest; in `RECOVERY` nothing
goes on (R459). -/
def State.tidy (s : State) : State := if s.power.state == .recovery then s else s.cfgVoid.provsGo.holdersGo.pumpOps.ctlGo.winsGo.pumpOps.releasesGo.drainGo

/-- Accept a command on a window. -/
def State.winAccept (w : Nat) (o : WinOp) (s : State) : State :=
  (s.setWin w fun x => { x with after := x.after ++ [o] }).tidy

/-- R244, R245, R249, R493: `ARM_WINDOW`. An accepted `REARM` makes the window arming at once. -/
def State.armCmd (m : MbCmd) (s : State) : State :=
  let w := armWin m
  let x := s.win w
  let foreign := match m.window with | some p => p != x.part | none => false
  if x.arming.isSome then s.mbRefuse m.window .busy
  else match bits (m.arg 2) 7 6 with
    | 0 =>
      let a := s.armArgs m
      match s.armCheck w m.window a with
      | .ok => s.startArming w m.window a
      | e => s.mbRefuse m.window e
    | 1 =>
      let e := bits (m.arg 2) 31 8
      if x.st == .idle then s.mbRefuse m.window .fieldRange
      else if foreign then s.mbRefuse m.window .partitionAccess
      else if !(x.st == .final || x.st == .collected) then s.mbRefuse m.window .busy
      else
        let s := if s.releasing w then s else s.setWin w fun y => { y with arming := some (x.args e), armMb := m.window }
        State.winAccept w (.rearm m.window e s.nextId) { s with nextId := s.nextId + 1 }
    | 2 =>
      if x.st == .idle then s.mbRefuse m.window .fieldRange
      else if foreign then s.mbRefuse m.window .partitionAccess
      else State.winAccept w (.release m.window (x.finalising || (x.st == .sealed && !x.drained)) s.nextId)
        { s with nextId := s.nextId + 1 }
    | _ => s.mbRefuse m.window .fieldRange

/-- R377, R379: `SEAL` and `FINALIZE` from a mailbox. -/
def State.sealCmd (fin : Bool) (m : MbCmd) (s : State) : State :=
  let a := m.arg 0
  s.sealOp (.mailbox m.window) fin (bits a 5 0) m.window (if bit a 6 then some (bits a 38 7) else none)

/-- R249, R253, R379: `COLLECT` from a mailbox. -/
def State.collectCmd (m : MbCmd) (s : State) : State :=
  let w := bits (m.arg 3) 5 0
  let x := s.win w
  if x.arming.isSome then s.mbRefuse m.window .busy
  else if x.st == .idle then s.mbRefuse m.window .fieldRange
  else if (match m.window with | some p => p != x.part | none => false) then s.mbRefuse m.window .partitionAccess
  else
    let c : ColArgs := { d0 := m.arg 0, d1 := m.arg 1, dst := bits (m.arg 2) 51 0, noOut := bit (m.arg 2) 52,
                         gen := bits (m.arg 3) 37 6, mb := some m.window, ord := s.nextId }
    State.winAccept w (.collect c) { s with nextId := s.nextId + 1 }

/-! ### The walk of a fold (R230, R255) -/

/-- The fold that can run now into window `w`: its source has drained, and no read or contribution ordered before it on the
destination's plane is left (R252, R255). -/
def State.foldDue (s : State) (w : Nat) : Option FoldRun :=
  s.folds.find? fun f => f.dst == w && !s.unapplied f.src && !s.planeUsed w

/-- R255: fold the lines as far as the balance of the partition's own group covers their accesses (R289, R297). -/
def State.foldLines (f : FoldRun) : List Nat → State → FoldRun × State
  | [], s => (f, s)
  | l :: rest, s =>
    let x := s.win f.dst
    let y := s.win f.src
    let g := s.selfGroup x.part
    if !s.selfCovers g l then (f, s)
    else
      let src := (y.base + (l * 128 - x.base)) / 128
      let (b0, s) := (s.selfPay g l).foldSec f.dst src l 0
      let (b1, s) := s.foldSec f.dst src l 1
      s.foldLines { f with pos := f.pos + 1, bad := f.bad || b0 || b1 } rest

/-- R255: fold every line for the partition's own group (R289), pass the source's sticky flags on, and complete; a walk that its
group's balance stops goes on later. -/
def State.foldRun (f : FoldRun) (s : State) : State :=
  let x := s.win f.dst
  let y := s.win f.src
  let s := s.runAs (some (s.selfGroup x.part))
  let lines := s.planeLines x.base x.size
  let (g, s) := s.foldLines f (lines.drop f.pos)
  if g.pos < lines.length then
    State.tidy { s with folds := s.folds.map fun (h : FoldRun) => if h == f then g else h }
  else
    let s := s.setSticky f.dst s.nextId y.ovf y.nan
    let s := { s with folds := s.folds.erase f }
    let s := s.runAs (((s.resvOf f.port f.txid f.tag).map (·.charged)) <|> s.reg.cur) (some f.agent)
    (if f.timedOut then s else s.respond f.port f.txid f.tag (if g.bad then .poison else .done)).tidy

/-- R232: finalise the sum lines as far as the balance of the partition's own group covers their accesses (R289, R297). -/
def State.finLines (w g : Nat) : List Nat → State → Bool × State
  | [], s => (true, s)
  | l :: rest, s =>
    if !s.selfCovers g l then (false, s)
    else
      let s := ((s.selfPay g l).finSec w l 0).finSec w l 1
      State.finLines w g rest (s.setWin w fun x => { x with finPos := x.finPos + 1 })

/-- R232, R251: finalise every sum line, and answer whoever waits for `FINAL`. Only an FP32C window has lines to change; a walk that
its group's balance stops goes on later. -/
def State.finalDone (w : Nat) (s : State) : State :=
  let x := s.win w
  let g := s.selfGroup x.part
  let s := s.runAs (some g)
  let (ok, s) := if x.acc == 1 then s.finLines w g ((s.planeLines x.base x.size).drop x.finPos) else (true, s)
  if !ok then s.tidy
  else
    let s := s.setWin w fun x =>
      { x with st := .final, finalising := false, finReq := false, finMbs := [], finSlots := [], finPos := 0 }
    let s := x.finMbs.foldl (fun t m => t.sealDone (.mailbox m) w .done) s
    (x.finSlots.foldl (fun t i => t.sealDone (.action i) w .done) s).tidy

/-- R253 step 4: the walk has ended and every output write is acknowledged. -/
def State.colDue (s : State) (w : Nat) : Bool :=
  (s.win w).col.isSome && !s.txns.any (fun t => t.kind == .collectOp w) &&
  !s.memOut.any (·.use == .collect w) && !s.memWait.any (·.use == .collect w)

/-- R253 step 4: the completion of a collect, for the group that its walk is charged to. -/
def State.colDone (w : Nat) (s : State) : State :=
  let x := s.win w
  match x.col with
  | none => s
  | some c =>
    let s := s.runAs c.grp
    ((s.setWin w fun y => { y with col := none }).colStatus c (if x.colPoison then .poison else .done) x.colLines).tidy

/-! ### The commands -/

/-- A mailbox command row: opcode, and the bits of the arguments that the row fixes. -/
def mailboxRow (i : Instr) (op : Nat) (m : MbCmd) (run : MbCmd → State → State) (s : State) : Res :=
  finish ((s.fresh0).csrGate i (State.mbWrite op m run))

/-- `ARM_WINDOW` with `MODE` = 0 (R246). -/
def execArmWindowArm (m : MbCmd) (s : State) : Res :=
  mailboxRow (.armWindowArm m) 0x06 (m.force 2 7 6 0) State.armCmd s

/-- `ARM_WINDOW` with `MODE` = 1 (R246). -/
def execArmWindowRearm (m : MbCmd) (s : State) : Res :=
  mailboxRow (.armWindowRearm m) 0x06 (m.force 2 7 6 1) State.armCmd s

/-- `ARM_WINDOW` with `MODE` = 2 (R246). -/
def execArmWindowRelease (m : MbCmd) (s : State) : Res :=
  mailboxRow (.armWindowRelease m) 0x06 (m.force 2 7 6 2) State.armCmd s

/-- R246: the placing pass of an arming window has ended; a `REARM` that still waits (R256) has not begun it. -/
def execArmComplete (w : Nat) (s : State) : Res :=
  let waits := (s.win w).after.any fun o => match o with | .rearm .. => true | _ => false
  if s.fclkRuns && (s.win w).arming.isSome && !waits && !s.placing w then finish (s.fresh0.armDone w).tidy
  else s.notDue

/-- `SEAL` from a mailbox (R249). -/
def execSeal (m : MbCmd) (s : State) : Res := mailboxRow (.seal m) 0x07 m (State.sealCmd false) s

/-- `FINALIZE` from a mailbox (R251). -/
def execFinalize (m : MbCmd) (s : State) : Res := mailboxRow (.finalize m) 0x08 m (State.sealCmd true) s

/-- `COLLECT` from a mailbox (R253). -/
def execCollect (m : MbCmd) (s : State) : Res := mailboxRow (.collect m) 0x09 m State.collectCmd s

/-- R251: a sealed window whose contributions and folds have all been applied has drained. -/
def execWindowDrained (w : Nat) (s : State) : Res :=
  let x := s.win w
  if s.fclkRuns && x.st == .sealed && !x.drained && !s.unapplied w then
    finish (((s.fresh0.setWin w fun x => { x with drained := true }).beginFinal w).tidy)
  else s.notDue

/-- R251, R278: the last sum line has been finalised. A finalised element returns the value it returned before (R225), so no request
on the plane holds it up. -/
def execFinaliseComplete (w : Nat) (s : State) : Res :=
  if s.fclkRuns && (s.win w).finalising && (s.win w).finNeed ≤ s.lens.done then finish (s.fresh0.finalDone w)
  else s.notDue

/-- R255: a fold into the window has walked its lines. -/
def execFoldComplete (w : Nat) (s : State) : Res :=
  match s.foldDue w with
  | some f => if s.fclkRuns then finish (s.fresh0.foldRun f) else s.notDue
  | none => s.notDue

/-- R253: every output write of a collect has been acknowledged. -/
def execCollectComplete (w : Nat) (s : State) : Res :=
  if s.fclkRuns && s.colDue w then finish (s.fresh0.colDone w) else s.notDue

end Sys2Proof.Machine
end

