-- ==== Sys2Proof/Machine/Cue.lean ====
section
/-! DEFINITION. Cues: channels, beats, rings, posts, arming and disarming, lag and the watchdog (R34 to R37, R259 to
R275, R281 to R285, R446). The actions themselves are in Actions.lean. -/

namespace Sys2Proof.Machine

open Sys2Proof

/-! ### Counts and channels (R260, R261) -/

/-- R261: `a` is at or after `b`. -/
def atOrAfter (a b : BitVec 32) : Bool := (a - b).toNat < 2 ^ 31

/-- R261: `a` is after `b`. -/
def isAfter (a b : BitVec 32) : Bool := atOrAfter a b && a != b

/-- Channel `c`. -/
def State.chan (s : State) (c : Nat) : Chan := s.cue.chans.getD c {}

/-- Update channel `c`. -/
def State.setChan (c : Nat) (f : Chan → Chan) (s : State) : State :=
  { s with cue := { s.cue with chans := s.cue.chans.modify c f } }

/-- The channel whose bell line this is (R270). -/
def State.bellOf (s : State) (line : Nat) : Option Nat :=
  s.cue.chans.findIdx? fun c => c.cfg.en && c.cfg.bell == line

/-- R266: this slice is the channel's keeper. -/
def State.keeper (s : State) (c : Nat) : Bool := s.homed (s.chan c).cfg.bell

/-- Action type of a slot record. -/
def ActSlot.act (a : ActSlot) : Nat := bits (a.words.getD 0 0).toNat 16 13

/-- Partition of a slot record. -/
def ActSlot.part (a : ActSlot) : Nat := bits (a.words.getD 0 0).toNat 20 17

/-- Target of a slot record. -/
def ActSlot.target (a : ActSlot) : BitVec 32 := BitVec.ofNat 32 (bits (a.words.getD 1 0).toNat 31 0)

/-- A slot of the channel is in one of the states. -/
def State.anySlot (s : State) (c : Nat) (p : SlotState → Bool) : Bool :=
  s.cue.slots.any fun a => p a.st && a.chan == c

/-- R281: `SINCE` restarts. -/
def Chan.restart (x : Chan) : Chan := { x with since := 0, wdFired := false }

/-- R270: the channel status in the lower sector of the bell line. -/
def State.bellStatus (s : State) (c : Nat) : Sector :=
  BitVec.ofNat 512 ((s.chan c).applied.toNat + b2n (s.lagging c) * 2 ^ 32 + b2n (s.chan c).stall * 2 ^ 33)

/-! ### Applying beats (R261, R274, R275, R281) -/

/-- R274, R275: these slots become `DUE`, in ascending order; their entries are read (R448). -/
def State.makeDue (is : List Nat) (count : BitVec 32) (stalled : Bool) (s : State) : State :=
  let s := is.foldl (fun t i => t.entryRead (.slot i) 6 i) s
  let s := is.foldl (fun t i => t.setSlot i fun a => { a with st := .due, fire := count, stalled := stalled }) s
  { s with cue := { s.cue with due := s.cue.due ++ is } }

/-- R275: of the `DUE` queue all but the first `n` came in this FCLK: they are queued in ascending slot number. -/
def State.dueSorted (n : Nat) (s : State) : State :=
  let new := s.cue.due.drop n
  { s with cue := { s.cue with due := s.cue.due.take n ++ (List.range 512).filter fun i => new.contains i } }

/-- The `ARMED` slots of a channel that satisfy a condition, in ascending order. -/
def State.armedSlots (s : State) (c : Nat) (p : ActSlot → Bool) : List Nat :=
  (List.range 512).filter fun i => (s.slot i).st == .armed && (s.slot i).chan == c && p (s.slot i)

/-- R261, R267, R281: apply a count to a channel. A beat that left this slice is measured to its application here, and the ones that it
overtakes are applied no more (R483). -/
def State.applyCount (c : Nat) (v : BitVec 32) (s : State) : State :=
  let mine := s.cue.sent.contains (c, v)
  let s := { s with cue := { s.cue with sent := s.cue.sent.filter fun (x : Nat × BitVec 32) => x.1 != c || isAfter x.2 v } }
  if !isAfter v (s.chan c).applied then s
  else
    let s := if mine then s.measure 10 (some (s.chan c).cfg.owner) else s
    let s := State.sign 0x40 (2 ^ c) (2 ^ c) none
      (s.setChan c fun x => { x with applied := v, issued := if isAfter v x.issued then v else x.issued })
    match s.armedSlots c (fun a => atOrAfter v a.target) with
    | [] => s
    | is =>
      let s := s.setChan c fun x => { x.restart with pace := x.since, stall := false }
      (s.makeDue is v false).notIdle

/-- R36, R418: the always-on receiver keeps the newest count of a channel. -/
def State.keepCount (c : Nat) (v : BitVec 32) (s : State) : State :=
  s.setChan c fun x => match x.kept with
    | some k => if isAfter v k then { x with kept := some v } else x
    | none => { x with kept := some v }

/-- R36, R275, R418: apply the kept counts. DESIGN CHOICE (log entry 145): R36 and R418 say only that they are applied before requests are
served; the model applies those of all channels in one FCLK, so that their slots queue in ascending number across the channels. -/
def State.applyKept (s : State) : State :=
  ((List.range 16).foldl (fun t c =>
    match (t.chan c).kept with
    | some v => (t.setChan c fun x => { x with kept := none }).applyCount c v
    | none => t) s).dueSorted s.cue.due.length

/-- R260: a beat for an enabled channel of its owner. -/
def State.beatOk (s : State) (part c : Nat) : Bool := (s.chan c).cfg.en && (s.chan c).cfg.owner == part

/-- R36, R260, R418, R446, R447, R459: a beat on `CUEI` whose check bits are good. -/
def State.beat (part c : Nat) (v : BitVec 32) (s : State) : State :=
  let s := if s.fclkRuns then s.cfgRead (.chan c) else s
  let discard := s.count Ev.beatDiscard none
  if s.asleep then
    if !s.beatOk part c then discard
    else
      let s := s.keepCount c v
      match (s.chan c).kept with
      | some k =>
        if isAfter k (s.chan c).applied && !(s.armedSlots c (fun a => atOrAfter k a.target)).isEmpty then s.wakeUp else s
      | none => s
  else if s.power.state == .service && s.beatOk part c then
    (if s.power.relock then s.keepCount c v
     else
       let t := s.applyCount c v
       if t.cue.due.length == s.cue.due.length then t else t.wakeUp)
  else discard

/-! ### The beat queue (R267 to R269) -/

/-- R267: queue a beat: `SET` or `ADD`. -/
def State.queueBeat (c : Nat) (add : Bool) (v : BitVec 32) (src : Option (Nat × Nat × Option Nat))
    (mb : Option (Option Nat)) (s : State) : State :=
  let x := s.chan c
  let n := if add then x.issued + v else v
  let s := s.setChan c fun y => { y with issued := if add then n else if isAfter v y.issued then v else y.issued }
  { s with cue := { s.cue with beats := s.cue.beats ++ [{ part := x.cfg.owner, chan := c, count := n, src := src, mb := mb }] } }

/-- R268: the beat queue is full. -/
def State.beatsFull (s : State) : Bool := 32 ≤ s.cue.beats.length

/-- R266 check 5: the value of a ring or post is in range. -/
def valueOk (add : Bool) (v : Nat) : Bool := !add || (1 ≤ v && v < 2 ^ 31)

/-- R269: queue the posts that waited, as long as the queue has room. -/
def State.postsGo : Nat → State → State
  | 0, s => s
  | n + 1, s =>
    match s.cue.postWait with
    | [] => s
    | p :: rest =>
      if s.beatsFull then s
      else (State.queueBeat p.chan p.add p.value none (some p.mb) { s with cue := { s.cue with postWait := rest } }).postsGo n

/-- R267 to R269: the head of the queue leaves on `CUEO`, and its ring or post completes. DESIGN CHOICE (log entry 135): the room
goes to a post that waits before it goes to a ring that waits. -/
def State.emitBeat (b : BeatQ) (rest : List BeatQ) (s : State) : State :=
  let s : State := State.emit (.cueo b.part b.chan b.count)
    { s with cue := { s.cue with beats := rest, sent := s.cue.sent ++ [(b.chan, b.count)] } }
  let s := match b.src with
    | some (p, t, tag) => s.runLike ((s.asRequest p t tag).respond p t tag .done)
    | none => s
  let s := match b.mb with
    | some m => s.mbDone m .done [BitVec.ofNat 64 b.count.toNat]
    | none => s
  s.postsGo s.cue.postWait.length

/-- R269, R379: `CUE_POST`. -/
def State.postCmd (m : MbCmd) (s : State) : State :=
  let a := m.arg 0
  let c := bits a 3 0
  let add := bit a 4
  let v := bits a 63 32
  if !(s.chan c).cfg.en || !valueOk add v || (add && !s.keeper c) then s.mbRefuse m.window .fieldRange
  else if (match m.window with | some p => p != (s.chan c).cfg.owner | none => false) then
    s.mbRefuse m.window .partitionAccess
  else
    let r : PostReq := { mb := m.window, chan := c, add := add, value := BitVec.ofNat 32 v }
    let s := { s with cue := { s.cue with postWait := s.cue.postWait ++ [r] } }
    s.postsGo s.cue.postWait.length

/-- R266 checks 4 and 5, R267, R268, R331: a ring at its keeper whose payload has arrived. -/
def State.ring (q : Req) (tag : Option Nat) (c : Nat) (s : State) : State :=
  let d := q.payload
  let add := bit (getBytes d 4 1) 0
  if d.toNat >>> 33 != 0 || !valueOk add (getBytes d 0 4) then s.respond q.port q.txid tag .aborted
  else (s.hotCount q.line false).queueBeat c add (BitVec.ofNat 32 (getBytes d 0 4)) (some (q.port, q.txid, tag)) none

/-! ### Arming (R272 to R275, R349, R388) -/

/-- R272: the bits of each record word that an action type uses. -/
def slotUsed (act : Nat) : List Nat :=
  let tile := act == 0
  let range := act == 1 || act == 2 || act == 6
  let w0 := 2 ^ 40 - 1 - (if tile || range then 0 else 7 * 2 ^ 21)
  [w0, 2 ^ 32 - 1, if tile || range then 2 ^ 57 - 1 else 0, if tile then 2 ^ 30 - 1 else 0,
   if tile then 2 ^ 32 - 1 else 0, if range then 2 ^ 33 - 1 else 0,
   if act == 3 || act == 4 then 2 ^ 38 - 1 else 0, if act == 7 then 2 ^ 18 - 1 else 0]

/-- The eight words of a record as numbers. -/
def recWords (words : List Word) : List Nat := ((words ++ List.replicate 8 0).take 8).map fun (w : Word) => w.toNat

/-- R148: the shape of a tile. -/
def tileOk (va rowLines rowsM1 stride : Nat) : Bool :=
  rowLines != 0 && rowLines ≤ 8192 && va + rowsM1 * stride + rowLines * 128 ≤ 2 ^ 57

/-- The channel entry a check uses, and the slot range of a partition: those in force, or those of a section. -/
structure CueView where
  chans : List ChanCfg
  ranges : List (Nat × Nat)
  active : List Bool

/-- The view of the configuration in force. -/
def State.cueView (s : State) : CueView :=
  { chans := s.cue.chans.map (·.cfg), ranges := s.cue.ranges, active := (List.range 16).map fun p => (s.part p).active }

/-- R259: the slot lies in the partition's range. -/
def inRange (ranges : List (Nat × Nat)) (p slot : Nat) : Bool :=
  let r := ranges.getD p (0, 0)
  r.1 ≤ slot && slot < r.1 + r.2

/-- R273: the first code whose condition holds for a record, but for the slot's own state. -/
def CueView.check (v : CueView) (issuer : Option Nat) (words : List Word) : Err :=
  let w := recWords words
  let g (i : Nat) : Nat := w.getD i 0
  let slot := bits (g 0) 8 0
  let chan := v.chans.getD (bits (g 0) 12 9) {}
  let act := bits (g 0) 16 13
  let part := bits (g 0) 20 17
  let range := act == 1 || act == 2 || act == 6
  if (match issuer with | some p => p != part || !inRange v.ranges p slot | none => false) then .partitionAccess
  else if 8 ≤ act || !((w.zipIdx).all fun (x, i) => x &&& (slotUsed act).getD i 0 == x) then .reservedSet
  else if g 2 % 128 != 0 || g 4 % 128 != 0 then .align
  else if !inRange v.ranges part slot || !chan.en || chan.owner != part || !v.active.getD part false ||
      (act == 0 && !tileOk (g 2) (bits (g 3) 13 0) (bits (g 3) 29 14) (g 4)) ||
      (range && 2 ^ 57 < g 2 + (g 5 + 1) * 128) then .fieldRange
  else .ok

/-- R274, R280, R281: arm a checked record. -/
def State.armRec (words : List Word) (s : State) : State :=
  let w := (words ++ List.replicate 8 0).take 8
  let a : ActSlot := { words := w, st := .armed }
  let i := bits (w.getD 0 0).toNat 8 0
  let quiet := !s.anySlot a.chan (fun st => st == .armed || st == .due)
  let s := s.setSlot i fun _ => a
  let s := if quiet then s.setChan a.chan Chan.restart else s
  if atOrAfter (s.chan a.chan).applied a.target then
    (s.makeDue [i] (s.chan a.chan).applied false).count Ev.armPast (some a.part)
  else s

/-- R387, R388, R391: record the outcome of an arm or disarm in its block's `ARM_STAT`. -/
def State.armStat (window : Option Nat) (e : Err) (slot : Nat) (disarm : Bool) (s : State) : State :=
  match window with
  | none => { s with regs := { s.regs with armCode := e, armSlot := slot, disarm := disarm } }
  | some p => { s with pws := s.pws.modify p fun (w : PWin) => { w with armCode := e, armSlot := slot, disarm := disarm } }

/-- R388: latch the eight words. -/
def State.latchArm (window : Option Nat) (words : List Word) (s : State) : State :=
  let w := (words ++ List.replicate 8 0).take 8
  match window with
  | none => { s with regs := { s.regs with arm := w } }
  | some p => { s with pws := s.pws.modify p fun (x : PWin) => { x with arm := w } }

/-- R366, R391: an access reaches the arming registers it names. -/
def State.reaches (s : State) (src : Csrp) (window : Option Nat) : Bool :=
  src.reaches window && (match window with | some p => (s.part p).active | none => true)

/-- R273, R388: a write of `ARM_SLOT7` with the latched words. -/
def State.armSlot (src : Csrp) (window : Option Nat) (words : List Word) (s : State) : State :=
  if !s.reaches src window then s.csrp .partitionAccess 0
  else
    let s := s.latchArm window words
    let i := bits (words.getD 0 0).toNat 8 0
    let e := match s.cueView.check window words with
      | .ok => if (s.slot i).st == .free then Err.ok else .busy
      | e => e
    let s := if e == .ok then s.armRec words else s
    (s.armStat window e i false).csrp e 0

/-- R274: free a slot with an outcome. -/
def State.freeSlot (i : Nat) (out : Option SlotOut) (s : State) : State :=
  let s := s.setSlot i fun a => { a with st := .free, out := out, stalled := false }
  { s with cue := { s.cue with due := s.cue.due.filter (· != i) } }

/-- The outcome of a slot that ends with a code. -/
def ActSlot.outcome (a : ActSlot) (code : Nat) (isErr : Bool) (mark : Nat) : SlotOut :=
  { code := code, isErr := isErr, tag := bits (a.words.getD 0 0).toNat 39 24, fire := a.fire, stalled := a.stalled,
    mark := mark }

/-- R274, R388: a write of `DISARM_SLOT`. -/
def State.disarmSlot (src : Csrp) (window : Option Nat) (i : Nat) (s : State) : State :=
  if !s.reaches src window then s.csrp .partitionAccess 0
  else
    let s := if (s.slot i).st == .free then s else s.entryRead (.slot i) 6 i
    let a := s.slot i
    let e : Err :=
      if (match window with | some p => !inRange s.cue.ranges p i | none => false) then .partitionAccess
      else if a.st == .free then .fieldRange
      else if a.st == .running then .busy else .ok
    let s := if e == .ok then s.freeSlot i (some (a.outcome Status.aborted.code false 0)) else s
    (s.armStat window e i true).csrp e 0

/-! ### Lag and the watchdog (R281 to R283, R285) -/

/-- R282: `CUE_LAG` for every partition that owns a lagging channel. -/
def State.countLag (s : State) : State :=
  (List.range 16).foldl (fun t p =>
    if (List.range 16).any (fun c => (t.chan c).cfg.owner == p && t.lagging c) then t.count Ev.cueLag (some p) else t) s

/-- The lag counters run (R281). DESIGN CHOICE (log entry 146): the spec names `SLEEP` and not the `OFF` depth of a sleep, over which the
lag state is kept (R426); `SINCE` and the watchdog stand still there. -/
def State.lagRuns (s : State) : Bool := s.power.state == .service || s.power.state == .sleep

/-- R281, R282: one ACLK of each channel. -/
def State.lagTick (s : State) : State :=
  if s.lagRuns then
    State.countLag { s with cue := { s.cue with chans := s.cue.chans.map fun (x : Chan) =>
      { x with since := min (x.since + 1) (2 ^ 28 - 1) } } }
  else s

/-- The lag limit of a channel can be passed now. -/
def State.lagDue (s : State) (c : Nat) : Bool :=
  let x := s.chan c
  s.lagRuns && x.cfg.en && x.cfg.lagLimit != 0 && x.since ≤ x.cfg.lagLimit && s.anySlot c (· == .armed)

/-- The watchdog of a channel can fire now (R283). -/
def State.wdDue (s : State) (c : Nat) : Bool :=
  let x := s.chan c
  s.lagRuns && x.cfg.en && x.cfg.wdMode != 0 && !x.wdFired && s.anySlot c (· == .armed)

/-- R283, R285: the watchdog fires. -/
def State.wdFire (c : Nat) (s : State) : State :=
  let s := s.setChan c fun x => { x with since := max x.since x.cfg.wdLimit, wdFired := true, stall := true }
  let x := s.chan c
  let s := (s.count Ev.cueStall (some x.cfg.owner)).setStatus 8
  let s := s.log { source := 0x014, part := x.cfg.owner, addr := x.since, detail := c + x.applied.toNat * 16 }
  if x.cfg.wdMode == 2 then
    match s.armedSlots c (fun a => a.act == 3) with
    | [] => if s.asleep then s.wakeUp else s
    | is => (s.makeDue is x.applied true).wakeUp
  else s

/-! ### The commands -/

/-- A beat on `CUEI` (R34, R36, R260, R446). -/
def execCueBeat (part chan : Nat) (count : BitVec 32) (flips : Nat) (s : State) : Res :=
  let s := s.fresh0
  if s.gate == .drop then finish s
  else if flips == 0 then finish (s.beat part chan count)
  else if flips == 1 then
    finish ((s.log { source := 0x01C, part := part, port := 13, detail := chan }).beat part chan count)
  else finish (s.reportFree fun n => { source := 0x01D, port := 13, detail := n })

/-- The beat at the head of the beat queue leaves (R268). -/
def execBeatEmit (s : State) : Res :=
  match s.cue.beats with
  | b :: rest =>
    if s.power.state == .service && !s.power.relock then finish (s.fresh0.emitBeat b rest).tidy
    else s.notDue
  | [] => s.notDue

/-- `SINCE` passes `LAG_LIMIT` (R281). -/
def execCueLagLimit (c : Nat) (s : State) : Res :=
  if s.lagDue c then
    finish ((s.fresh0.setChan c fun x => { x with since := x.cfg.lagLimit + 1 }).countLag)
  else s.notDue

/-- `SINCE` reaches `WD_LIMIT` (R283). -/
def execCueWatchdog (c : Nat) (s : State) : Res :=
  if s.wdDue c then finish (s.fresh0.wdFire c) else s.notDue

/-- `CUE_POST` from a mailbox (R269). -/
def execCuePost (m : MbCmd) (s : State) : Res := mailboxRow (.cuePost m) 0x0E m State.postCmd s

/-- A write of `ARM_SLOT7` (R273, R388). -/
def execArmSlot (src : Csrp) (window : Option Nat) (words : List Word) (s : State) : Res :=
  finish (s.fresh0.csrGate (.armSlot src window words) (State.armSlot src window words))

/-- A write of `DISARM_SLOT` (R274). -/
def execDisarmSlot (src : Csrp) (window : Option Nat) (slot : Nat) (s : State) : Res :=
  finish (s.fresh0.csrGate (.disarmSlot src window slot) (State.disarmSlot src window slot))

end Sys2Proof.Machine
end

