-- ==== Sys2Proof/Machine/Translate.lean ====
section
/-! DEFINITION. Translation: descriptors and page tables, the TDC and its operations, faults, the fault ring and its
registers, and the registers of hot-page counting (R305 to R334). -/

namespace Sys2Proof.Machine

open Sys2Proof

/-! ### The TDC (R315 to R318, R323) -/

/-- Tag of a value: partition, kind and address. -/
abbrev XKey := Nat × Bool × Nat

/-- Tag of an entry. -/
def TdcEnt.key (e : TdcEnt) : XKey := (e.part, e.desc, e.addr)

/-- Tag of a fetch. -/
def TdcFetch.key (f : TdcFetch) : XKey := (f.part, f.desc, f.addr)

/-- Update the translation unit. -/
def State.setXlt (f : XltUnit → XltUnit) (s : State) : State := { s with xlt := f s.xlt }

/-- R316: x^16 + x^14 + x^13 + x^11 + 1 (log entry 30: the register shifts right). -/
def lfsrNext (l : BitVec 16) : BitVec 16 :=
  let b := l ^^^ (l >>> 2) ^^^ (l >>> 3) ^^^ (l >>> 5)
  (l >>> 1) ||| ((b &&& 1) <<< 15)

/-- The entry of a tag in the TDC. -/
def XltUnit.at (x : XltUnit) (k : XKey) : Option (Nat × TdcEnt) :=
  (x.tdc.zipIdx).findSome? fun (e, i) => match e with
    | some e => if e.key == k then some (i, e) else none
    | none => none

/-- Locked entries. -/
def XltUnit.locked (x : XltUnit) : Nat := (x.tdc.filter fun e => (e.map (·.lock)).getD false).length

/-- R316: the entry a fetch takes, and the LFSR after it. -/
def XltUnit.victim (x : XltUnit) : Nat × BitVec 16 :=
  match x.tdc.findIdx? (·.isNone) with
  | some i => (i, x.lfsr)
  | none =>
    let v := x.lfsr.toNat % 48
    let free (i : Nat) : Bool := !(((x.tdc.getD i none).map (·.lock)).getD false)
    ((((List.range 48).map fun k => (v + k) % 48).find? free).getD v, lfsrNext x.lfsr)

/-- R316, R323: put a value in the TDC: over the entry of its tag, which keeps its lock, or in a new entry. -/
def XltUnit.install (k : XKey) (v : Word) (lock : Bool) (x : XltUnit) : XltUnit :=
  match x.at k with
  | some (i, e) => { x with tdc := x.tdc.set i (some { e with value := v, lock := e.lock || lock, perr := false }) }
  | none =>
    let (i, l) := x.victim
    { x with tdc := x.tdc.set i (some { part := k.1, desc := k.2.1, addr := k.2.2, value := v, lock := lock }), lfsr := l }

/-- R317: put a value in the side buffer, over its oldest entry when it is full. -/
def XltUnit.putSide (k : XKey) (v : Word) (x : XltUnit) : XltUnit :=
  if (x.at k).isSome || x.side.any (fun e => e.key == k) then x
  else
    let l := if 4 ≤ x.side.length then x.side.drop 1 else x.side
    { x with side := l ++ [{ part := k.1, desc := k.2.1, addr := k.2.2, value := v }] }

/-- What a lookup of one step finds. -/
inductive XStep where
  | val (v : Word)
  | wait (k : XKey)
  | bad
deriving DecidableEq, Repr

/-- R317, R323: a side-buffer entry whose parity fails is dropped; its number follows those of the TDC. -/
def State.sideParity (k : XKey) (s : State) : State :=
  match s.xlt.side.findIdx? (fun e => e.key == k && e.perr) with
  | some i =>
    let s := s.setXlt fun x => { x with side := x.side.eraseIdx i }
    (s.count Ev.tdcParity (some k.1)).log { source := 0x011, part := k.1, detail := 48 + i }
  | none => s

/-- R323: drop an entry whose parity fails; a locked one keeps its place. -/
def State.tdcParity (i : Nat) (e : TdcEnt) (s : State) : State :=
  let s := s.setXlt fun x => { x with tdc := x.tdc.set i (if e.lock then some e else none) }
  (s.count Ev.tdcParity (some e.part)).log { source := 0x011, part := e.part, detail := i }

/-- R318: start a fetch of the sector that holds a value. -/
def State.tdcFetch (f : TdcFetch) (s : State) : State :=
  let s := s.setXlt fun x => { x with fetches := x.fetches ++ [f] }
  ((s.act 21 1).count Ev.tdcMiss (some f.part)).readUc f.addr f.part (.tdc f.cls)

/-- The fetch on the miss register of a walker. -/
def XltUnit.fetchOf (x : XltUnit) (cls : Nat) : Option TdcFetch := x.fetches.find? (·.cls == cls)

/-- R318: a value that no buffer holds: it is being fetched, its walker's register is busy, or it is fetched now. -/
def State.tdcMiss (cls : Nat) (k : XKey) (ahead level3 : Bool) (s : State) : XStep × State :=
  if s.xlt.fetches.any (fun f => f.key == k) then (.wait k, s.count Ev.tdcMerge (some k.1))
  else if (s.xlt.fetchOf cls).isSome then (.wait k, s)
  else (.wait k, s.tdcFetch { cls := cls, part := k.1, desc := k.2.1, addr := k.2.2, lookahead := ahead, level3 := level3 })

/-- R310, R317, R318, R323: one step of a translation through the walker of `cls`; `ahead` marks a lookahead, which is no use of an
entry of the side buffer, and `pois` is a value that came back poisoned for this very walk. -/
def State.tdcGet (cls : Nat) (pois : Option XKey) (k : XKey) (ahead level3 : Bool) (s : State) : XStep × State :=
  if pois == some k then (.bad, s)
  else
    let s := match s.xlt.at k with
      | some (i, e) => if e.perr && !s.xlt.fetches.any (fun f => f.key == k) then s.tdcParity i e else s
      | none => s.sideParity k
    match s.xlt.at k with
    | some (_, e) => if !e.perr then (.val e.value, s) else s.tdcMiss cls k ahead level3
    | none =>
      match s.xlt.side.find? (fun e => e.key == k) with
      | some e =>
        if ahead then (.val e.value, s)
        else (.val e.value, s.setXlt fun x => ({ x with side := x.side.erase e } : XltUnit).install k e.value false)
      | none => s.tdcMiss cls k ahead level3

/-- R317: a translation that was made ahead is used: its entries leave the side buffer for the TDC. -/
def State.promote (p : XPage) (s : State) : State :=
  s.setXlt fun x => p.keys.foldl (fun (x : XltUnit) k =>
    match x.side.find? (fun e => e.key == k) with
    | some e => ({ x with side := x.side.erase e } : XltUnit).install k e.value false
    | none => x) x

/-! ### Translation (R306 to R310) -/

/-- The steps that a translation has passed, with the values it found there (R314). -/
abbrev XSteps := List (XKey × Word)

/-- The tags of the steps. -/
def XSteps.keys (l : XSteps) : List XKey := l.map (·.1)

/-- The outcome of a translation: a page, a wait for a value behind the steps that are passed, or a fault with the values used. -/
inductive XRes where
  | ok (p : XPage)
  | wait (k : XKey) (got : XSteps)
  | fault (typ level : Nat) (entry : Word) (keys : List XKey)
deriving DecidableEq, Repr

/-- R309: the address of the next table. -/
def nextTable (e : Nat) : Nat := bits e 51 15 * 2 ^ 15

/-- R306, R310: the fault of a descriptor. -/
def descFault (cls d : Nat) : Bool := !bit d 0 || bits d 14 9 != 0 || bits d 63 52 != 0 || !bit d (1 + cls)

/-- R309, R310: the fault of a table pointer at level 1 or 2. -/
def pointerFault (e : Nat) : Bool := bits e 14 2 != 0 || bits e 63 52 != 0

/-- R309, R310: a 2 MiB leaf at level 3: its fault type, or 0. -/
def leaf3Fault (write : Bool) (e : Nat) : Nat :=
  if !bit e 0 then 2
  else if !bit e 1 || bits e 20 3 != 0 || bits e 63 52 != 0 then 3
  else if write && !bit e 2 then 4 else 0

/-- R308 to R310: a 1 GiB leaf at level 2, for page `k`: its fault type, or 0. -/
def leaf2Fault (write : Bool) (e k : Nat) : Nat :=
  if !bit e (56 + k) then 2
  else if bits e 29 3 != 0 || bits e 55 52 != 0 || 2 ^ 22 ≤ bits e 51 30 + k then 3
  else if write && !bit e 2 then 4 else 0

/-- R314: one step of a translation: a value that an earlier turn has found stands, any other is looked up. -/
def State.xstep (cls : Nat) (pois : Option XKey) (ahead : Bool) (got : XSteps) (k : XKey) (level3 : Bool) (s : State) : XStep × State :=
  match got.find? (·.1 == k) with
  | some (_, v) => (.val v, s)
  | none => s.tdcGet cls pois k ahead level3

/-- R308 to R310, R314: translate one virtual address for the operations of a partition and class, from the steps `got` that the
translation has passed already. -/
def State.xlat (cls part va : Nat) (pois : Option XKey) (write ahead : Bool) (got : XSteps) (s : State) : XRes × State :=
  let k0 : XKey := (part, true, (s.pws.getD part {}).xltDesc)
  match s.xstep cls pois ahead got k0 false with
  | (.wait k, s) => (.wait k [], s)
  | (.bad, s) => (.fault 5 0 0 [k0], s)
  | (.val d, s) =>
    let l0 : XSteps := [(k0, d)]
    if descFault cls d.toNat then (.fault 1 0 d l0.keys, s)
    else
    let k1 : XKey := (part, false, nextTable d.toNat + 8 * bits va 56 45)
    match s.xstep cls pois ahead got k1 false with
    | (.wait k, s) => (.wait k l0, s)
    | (.bad, s) => (.fault 5 1 0 (l0.keys ++ [k1]), s)
    | (.val e, s) =>
      let l1 : XSteps := l0 ++ [(k1, e)]
      if !bit e.toNat 0 then (.fault 2 1 e l1.keys, s)
      else if bit e.toNat 1 || pointerFault e.toNat then (.fault 3 1 e l1.keys, s)
      else
      let k2 : XKey := (part, false, nextTable e.toNat + 8 * bits va 44 33)
      match s.xstep cls pois ahead got k2 false with
      | (.wait k, s) => (.wait k l1, s)
      | (.bad, s) => (.fault 5 2 0 (l1.keys ++ [k2]), s)
      | (.val e, s) =>
        let l2 : XSteps := l1 ++ [(k2, e)]
        if !bit e.toNat 0 then (.fault 2 2 e l2.keys, s)
        else if bit e.toNat 1 then
          let k := bits va 32 30
          match leaf2Fault write e.toNat k with
          | 0 => (.ok { va := va / 2 ^ 30 * 2 ^ 30, bytes := 2 ^ 30, pa := (bits e.toNat 51 30 + k) * 2 ^ 30, keys := l2.keys }, s)
          | t => (.fault t 2 e l2.keys, s)
        else if pointerFault e.toNat then (.fault 3 2 e l2.keys, s)
        else
        let k3 : XKey := (part, false, nextTable e.toNat + 8 * bits va 32 21)
        match s.xstep cls pois ahead got k3 true with
        | (.wait k, s) => (.wait k l2, s)
        | (.bad, s) => (.fault 5 3 0 (l2.keys ++ [k3]), s)
        | (.val e, s) =>
          let l3 : XSteps := l2 ++ [(k3, e)]
          match leaf3Fault write e.toNat with
          | 0 => (.ok { va := va / 2 ^ 21 * 2 ^ 21, bytes := 2 ^ 21, pa := bits e.toNat 51 21 * 2 ^ 21, keys := l3.keys }, s)
          | t => (.fault t 3 e l3.keys, s)

/-! ### TDC changes (R321, R322) -/

/-- R321 step 3: the translation used an entry that `hit` names. -/
def XPage.uses (p : XPage) (hit : XKey → Bool) : Bool := p.keys.any hit

/-- R321 step 3: the steps of a translation in progress, which is dropped when one of them used an entry that `hit` names. -/
def XSteps.without (hit : XKey → Bool) (l : XSteps) : XSteps := if l.keys.any hit then [] else l

/-- R321 step 3: every walker drops the translations that used an entry that `hit` names, those in progress and those that failed among
them, and a poisoned value of one. -/
def State.dropXlat (hit : XKey → Bool) (s : State) : State :=
  { s with walks := s.walks.map fun (w : Walk) =>
      { w with cur := w.cur.filter fun (p : XPage) => !p.uses hit,
               pois := w.pois.filter fun k => !hit k,
               steps := XSteps.without hit w.steps, lookSteps := XSteps.without hit w.lookSteps,
               look := match w.look with
                 | .page p => if p.uses hit then .todo else .page p
                 | .failed f l => if l.any hit then .todo else .failed f l
                 | l => l } }

/-- R321 step 4: the access belongs to a walk whose translations used an entry that `hit` names, and it has not reached its
order point. -/
def State.staleAccess (s : State) (hit : XKey → Bool) (t : Txn) : Bool :=
  !t.started && s.walks.any fun (w : Walk) => w.used.any hit && (match t.kind with
    | .fillOp i => i == w.id
    | .rangeOp op i => op < 5 && i == w.id
    | _ => false)

/-- R321: a change for the entries that `hit` names begins in window `p`, and waits for the accesses of step 4. -/
def State.changeOpen (p : Nat) (hit : XKey → Bool) (s : State) : State :=
  let l := (s.txns.filter (s.staleAccess hit)).map fun (t : Txn) => (p, t.id)
  (s.setXlt fun x => { x with change := x.change.set p true, changeWait := x.changeWait ++ l }).dropXlat hit

/-- R321 steps 1 to 3 for the values that `hit` names: invalidate them, mark their fetches stale (`stale` by sector), and
drop the translations; the change is in progress in window `p`. -/
def State.tdcChange (p : Nat) (hit : XKey → Bool) (stale : TdcFetch → Bool) (s : State) : State :=
  let s := s.setXlt fun x =>
    { x with tdc := x.tdc.map fun (e : Option TdcEnt) => match e with
               | some e => if hit e.key then none else some e
               | none => none,
             side := x.side.filter fun (e : TdcEnt) => !hit e.key,
             fetches := x.fetches.map fun (f : TdcFetch) => if stale f then { f with stale := true } else f }
  s.changeOpen p hit

/-- Whether a fetch reads the sector of an address. -/
def TdcFetch.sector (f : TdcFetch) (addr : Nat) : Bool := f.addr / 64 == addr / 64

/-- R319: write a value through to memory and to every entry of that address and kind. -/
def State.tdcWriteAll (p : Nat) (desc : Bool) (addr : Nat) (v : Word) (s : State) : State :=
  let up (e : TdcEnt) : TdcEnt := if e.desc == desc && e.addr == addr then { e with value := v, perr := false } else e
  let s := s.setXlt fun x =>
    { x with tdc := x.tdc.map fun (e : Option TdcEnt) => e.map up, side := x.side.map up,
             fetches := x.fetches.map fun (f : TdcFetch) => if f.sector addr then { f with stale := true } else f }
  let off := addr % 64
  (s.changeOpen p fun (k : XKey) => k.2.1 == desc && k.2.2 == addr).writeUc addr 3 p (BitVec.ofNat 512 (v.toNat * 2 ^ (8 * off))) false (.tdcWrite p)

/-- R307, R329: every value of a partition is invalidated. -/
def State.tdcInvalPart (p : Nat) (s : State) : State := s.tdcChange p (fun k => k.1 == p) (fun f => f.part == p)

/-- The outcome of an operation in `TDC_STAT`. -/
def State.tdcStat (p : Nat) (busy done : Bool) (e : Err) (s : State) : State :=
  { s with pws := s.pws.modify p fun (w : PWin) => { w with tdcBusy := busy, tdcDone := done, tdcCode := e } }

/-- R319: bring a value into the TDC, and lock it when `lock` is set. -/
def State.tdcPreload (p : Nat) (lock : Bool) (k : XKey) (s : State) : State :=
  let s := s.tdcStat p true false .ok
  match s.tdcGet (8 + p) none k false false with
  | (.val v, s) => ((s.setXlt fun x => x.install k v lock).tdcStat p false true .ok)
  | (_, s) => s.setXlt fun x => { x with opBusy := x.opBusy.set p (some (if lock then 2 else 1, k.2.1, k.2.2)) }

/-- R319: perform an accepted operation. -/
def State.tdcRun (p code : Nat) (desc : Bool) (addr : Nat) (data : Word) (s : State) : State :=
  let k : XKey := (p, desc, addr)
  let busy (t : State) : State :=
    (t.tdcStat p true false .ok).setXlt fun x => { x with opBusy := x.opBusy.set p (some (code, desc, addr)) }
  match code with
  | 1 => s.tdcPreload p false k
  | 2 => s.tdcPreload p true k
  | 3 => (s.setXlt fun x => { x with tdc := x.tdc.map fun (e : Option TdcEnt) => e.map fun (e : TdcEnt) =>
      if e.key == k then { e with lock := false } else e }).tdcStat p false true .ok
  | 4 => busy (s.tdcWriteAll p desc addr data)
  | 5 => busy ((s.tdcWriteAll p desc addr 0).setXlt fun x =>
      ({ x with side := x.side.filter fun (e : TdcEnt) => e.key != k } : XltUnit).install k 0 false)
  | 6 => busy (s.tdcChange p (· == k) (fun f => f.part == p && f.desc == desc && f.sector addr))
  | _ => busy (s.tdcInvalPart p)

/-- R320: a lens of the partition holds the address. -/
def State.lensOfPart (s : State) (p addr : Nat) : Bool :=
  match s.lensAt addr with
  | some i => (s.descOf (some i)).part == p
  | none => false

/-- R319, R320, R464: a write of `TDC_OP`. DESIGN CHOICE (log entry 137): the code of an operation that is refused is answered on
the register port alone, and `TDC_STAT.CODE` (R391) keeps that of the last operation that ran. -/
def State.tdcOp (code : Nat) (t : TdcCmd) (s : State) : State :=
  let p := t.part
  let desc := t.kind == 1
  if !(Csrp.reaches { mgmt := t.mgmt, part := t.srcPart } (some p)) || !(s.part p).active then s.csrp .partitionAccess 0
  else
    let s := { s with pws := s.pws.modify p fun (w : PWin) => { w with tdcAddr := t.addr, tdcData := t.data } }
    let locks := s.xlt.locked + (s.xlt.opBusy.filter fun o => (o.map (·.1)) == some 2).length
    let held := ((s.xlt.at (p, desc, t.addr)).map (·.2.lock)).getD false
    if code == 0 || 8 ≤ code then s.csrp .reservedSet 0
    else if t.addr % 8 != 0 then s.csrp .align 0
    else if (s.pws.getD p {}).tdcBusy || (s.res.active && s.res.part == p) || (code == 2 && !held && 32 ≤ locks) then s.csrp .busy 0
    else if !t.mgmt && code != 7 && !s.lensOfPart p t.addr then s.csrp .partitionAccess 0
    else (s.csrp .ok 0).tdcRun p code desc t.addr t.data

/-- R321 step 4: every access issued under a translation that the change dropped has reached its order point. -/
def State.changeDue (s : State) (p : Nat) : Bool :=
  s.xlt.change.getD p false &&
  !s.txns.any (fun (t : Txn) => !t.started && s.xlt.changeWait.contains (p, t.id))

/-- R321: the change completes, and the operation that made it. -/
def State.changeDone (p : Nat) (s : State) : State :=
  let s := s.setXlt fun x =>
    { x with change := x.change.set p false, changeWait := x.changeWait.filter fun (w : Nat × Nat) => w.1 != p }
  match s.xlt.opBusy.getD p none with
  | some (code, _, _) =>
    if 4 ≤ code then (s.setXlt fun x => { x with opBusy := x.opBusy.set p none }).tdcStat p false true .ok else s
  | none => s

/-- R318: what the mailbox of a window waits for under a tag has come. -/
def State.opsFor (k : XKey) (s : State) : State :=
  match s.xlt.opBusy.getD k.1 none with
  | some (code, desc, addr) =>
    if code < 3 && desc == k.2.1 && addr == k.2.2 then
      let s := s.setXlt fun x =>
        { x with opBusy := x.opBusy.set k.1 none, tdc := x.tdc.map fun (e : Option TdcEnt) => e.map fun (e : TdcEnt) =>
            if e.key == k && code == 2 then { e with lock := true } else e }
      s.tdcStat k.1 false true .ok
    else s
  | none => s

/-- R314, R318: a wait under a tag ends with its fetch, and one for a busy register with that register's fetch. -/
def State.wakes (s : State) (f : TdcFetch) (cls : Nat) (k : XKey) : Bool :=
  k == f.key || (cls == f.cls && !s.xlt.fetches.any (fun g => g.key == k))

/-- The walks and lookaheads that waited for a fetch go on; each that waited for this value learns that it came back poisoned. -/
def State.wakeWalks (f : TdcFetch) (poison : Bool) (s : State) : State :=
  { s with walks := s.walks.map fun (w : Walk) =>
      let pois := poison && w.stop == .tdcWait && w.wait == some f.key
      let look := match w.look with
        | .wait k =>
          if poison && k == f.key then Look.failed (5, w.lookSteps.length, 0) (XSteps.keys w.lookSteps ++ [k])
          else if s.wakes f w.cls k then .todo else w.look
        | l => l
      let w := if w.stop == .tdcWait && (w.wait.map (s.wakes f w.cls)).getD true
        then { w with stop := .running, wait := none } else w
      { w with look := look, pois := if pois then some f.key else w.pois } }

/-- R319: a `PRELOAD` waits for the value. -/
def State.preloads (s : State) (k : XKey) : Bool :=
  match s.xlt.opBusy.getD k.1 none with
  | some (code, desc, addr) => code < 3 && desc == k.2.1 && addr == k.2.2
  | none => false

/-- R317 to R319, R322, R323, R469: the sector of a fetch returns. A lookahead's value goes to the side buffer, unless a `PRELOAD` waits
for it or a locked entry of the TDC is to take it. A stale one is fetched again, but for a partition under resilver, for which no
read goes out. -/
def State.fetchBack (f : TdcFetch) (d : Sector) (poison : Bool) (s : State) : State :=
  let s := s.setXlt fun x => { x with fetches := x.fetches.erase f }
  if f.stale then (if s.res.active && s.res.part == f.part then s.wakeWalks f false else s.tdcFetch { f with stale := false })
  else
    let word (a : Nat) : Word := BitVec.ofNat 64 (d.toNat >>> (8 * (a % 64)))
    let k := f.key
    let side := f.lookahead && !s.preloads k && (s.xlt.at k).isNone
    let s := if poison then s else s.setXlt fun x =>
      let x := if side then x.putSide k (word f.addr)
        else ({ x with side := x.side.filter fun e => e.key != k } : XltUnit).install k (word f.addr) false
      if f.level3 && !f.lookahead && (f.addr + 8) / 64 == f.addr / 64 then x.putSide (f.part, f.desc, f.addr + 8) (word (f.addr + 8))
      else x
    State.wakeWalks f poison (s.opsFor k)

/-! ### The fault ring (R325 to R329) -/

/-- R326: records in the ring. -/
def XltUnit.ringFill (x : XltUnit) : Nat := (x.fqProd + 65536 - x.fqCons) % 65536

/-- The head of the staging entries can be written. -/
def State.fqRoom (s : State) : Bool := s.xlt.fqEn && s.xlt.ringFill < 2 ^ s.xlt.fqLog && !s.xlt.staged.isEmpty

/-- R326, R327: write the oldest staged record to the ring. -/
def State.fqWrite (s : State) : State :=
  match s.xlt.staged with
  | [] => s
  | r :: rest =>
    let x := s.xlt
    let n := x.fqProd
    let addr := x.fqBase + 32 * (n % 2 ^ x.fqLog)
    let w (i : Nat) : Nat := (r.words.getD i 0).toNat
    let rec' := w 0 + w 1 * 2 ^ 64 + w 2 * 2 ^ 128 + (w 3 + b2n (bit n x.fqLog) * 2 ^ 63) * 2 ^ 192
    let s := { s with xlt := { x with staged := rest, fqProd := (n + 1) % 65536 } }
    s.writeUc addr 5 0 (BitVec.ofNat 512 (rec' * 2 ^ (8 * (addr % 64)))) false .plain

/-- R325: the record of a fault. -/
def faultRec (va typ level part cls : Nat) (slot : Option Nat) (opc pos seq : Nat) (entry : Word) (tag : Nat) : FaultRec :=
  { part := part,
    words := [BitVec.ofNat 64 (va / 128 * 128),
      BitVec.ofNat 64 (typ + level * 2 ^ 4 + part * 2 ^ 6 + cls * 2 ^ 10 + b2n slot.isSome * 2 ^ 13 + slot.getD 0 * 2 ^ 14 +
        opc * 2 ^ 23 + pos * 2 ^ 30 + seq % 65536 * 2 ^ 36),
      if typ == 5 then 0 else entry, BitVec.ofNat 64 tag] }

/-! ### Registers -/

/-- A register write that needs `MGMT` (R307, R366). -/
def mgmtWrite (i : Instr) (src : Csrp) (act : State → State) (s : State) : Res :=
  finish ((s.fresh0).csrGate i fun t => if src.mgmt then act t else t.csrp .partitionAccess 0)

/-- R326: the consumer index, ignored when it would overfill the ring. -/
def State.writeFqCons (v : Word) (s : State) : State :=
  let n := bits v.toNat 15 0
  let s := s.csrp .ok 0
  if (s.xlt.fqProd + 65536 - n) % 65536 ≤ 2 ^ s.xlt.fqLog then s.setXlt fun x => { x with fqCons := n } else s

/-- R381: `FQ_CTL` when `ctl` is set, else `FQ_BASE`. With `FQ_EN` at 1 the base and the size stay; `FQ_EN` itself takes its new
value (log entry 142). DESIGN CHOICE (log entry 150): R326 gives `FQ_LOG` the range 0 to 12 and `FQ_BASE` an alignment, and no answer to
a write outside them; the model takes the four bits of the one and the address of the other as they are written. -/
def State.writeFqRing (ctl : Bool) (v : Word) (s : State) : State :=
  let e : Err := if s.xlt.fqEn then .busy else .ok
  if !ctl then (if s.xlt.fqEn then s else s.setXlt fun x => { x with fqBase := bits v.toNat 51 0 }).csrp e 0
  else (s.setXlt fun x => { x with fqLog := if x.fqEn then x.fqLog else bits v.toNat 3 0, fqEn := bit v.toNat 4 }).csrp e 0

/-- R307: `XLT_DESC` of partition window `p`; bits [2:0] are reserved. -/
def State.writeXltDesc (p : Nat) (v : Word) (s : State) : State :=
  if !(s.part p).active then s.csrp .partitionAccess 0
  else
    let s := { s with pws := s.pws.modify p fun (w : PWin) => { w with xltDesc := bits v.toNat 51 3 * 8 } }
    (s.tdcInvalPart p).csrp .ok 0

/-- R330, R389: `HOT_CTL` when `ctl` is set, else `HOT_BASE`. -/
def State.writeHot (ctl : Bool) (v : Word) (s : State) : State :=
  let h := s.hot
  let thresh := bits v.toNat 17 2
  let h' : HotUnit :=
    if ctl then { h with en := bit v.toNat 0, mode := bits v.toNat 1 1, thresh := if thresh == 0 then h.thresh else thresh }
    else { h with base := bits v.toNat 15 0 }
  let s := { s with hot := h' }
  let s := if h'.base != h.base || h'.mode != h.mode then s.hotClear else s
  s.csrp .ok 0

/-! ### The commands -/

/-- A write of `TDC_OP` (R319, R320). -/
def tdcRow (i : Instr) (code : Nat) (t : TdcCmd) (s : State) : Res :=
  finish (s.fresh0.csrGate i fun s => s.tdcOp code t)

/-- `PRELOAD` (R319). -/
def execTdcPreload (t : TdcCmd) (s : State) : Res := tdcRow (.tdcPreload t) 1 t s
/-- `PRELOAD_LOCK` (R319). -/
def execTdcPreloadLock (t : TdcCmd) (s : State) : Res := tdcRow (.tdcPreloadLock t) 2 t s
/-- `UNLOCK` (R319). -/
def execTdcUnlock (t : TdcCmd) (s : State) : Res := tdcRow (.tdcUnlock t) 3 t s
/-- `WRITE` (R319). -/
def execTdcWrite (t : TdcCmd) (s : State) : Res := tdcRow (.tdcWrite t) 4 t s
/-- `ZERO_ENTRY` (R319). -/
def execTdcZeroEntry (t : TdcCmd) (s : State) : Res := tdcRow (.tdcZeroEntry t) 5 t s
/-- `INVAL_ADDR` (R319). -/
def execTdcInvalAddr (t : TdcCmd) (s : State) : Res := tdcRow (.tdcInvalAddr t) 6 t s
/-- `INVAL_PART` (R319). -/
def execTdcInvalPart (t : TdcCmd) (s : State) : Res := tdcRow (.tdcInvalPart t) 7 t s

/-- A write of `XLT_DESC` (R307). -/
def execXltDescWrite (src : Csrp) (part : Nat) (value : Word) (s : State) : Res :=
  mgmtWrite (.xltDescWrite src part value) src (State.writeXltDesc part value) s

/-- A write of `FQ_CONS` (R326). -/
def execFqConsWrite (src : Csrp) (value : Word) (s : State) : Res :=
  mgmtWrite (.fqConsWrite src value) src (State.writeFqCons value) s

/-- A write of `FQ_BASE` or `FQ_CTL` (R381). -/
def execFqRingConfigWrite (src : Csrp) (ctl : Bool) (value : Word) (s : State) : Res :=
  mgmtWrite (.fqRingConfigWrite src ctl value) src (State.writeFqRing ctl value) s

/-- A write of `HOT_BASE` or `HOT_CTL` (R330). -/
def execHotConfigWrite (src : Csrp) (ctl : Bool) (value : Word) (s : State) : Res :=
  mgmtWrite (.hotConfigWrite src ctl value) src (State.writeHot ctl value) s

/-- R333, R417: the next epoch of hot-page counting. It needs a nonzero `HOT_EPOCH` and the slice's clock. -/
def execHotEpoch (s : State) : Res :=
  if s.hot.epoch == 0 || !s.fclkRuns || s.power.state == .init then s.notDue
  else finish (s.fresh0.hotEpochStep)

end Sys2Proof.Machine
end

