-- ==== Sys2Proof/Machine/Walk.lean ====
section
/-! DEFINITION. Walks over virtual lines: `TILE_FILL`, `PIN_LOAD` and the range actions, with their walkers, faults and
completions (R147 to R152, R312, R313, R324 to R328). -/

namespace Sys2Proof.Machine

open Sys2Proof

/-! ### Lines of a walk (R149, R313) -/

/-- Lines of a walk. -/
def Walk.total (w : Walk) : Nat := w.rowLines * w.rows

/-- Virtual address of line `n` in walk order. -/
def Walk.vaAt (w : Walk) (n : Nat) : Nat := w.va + n / w.rowLines * w.stride + n % w.rowLines * 128

/-- R324: the progress mark. -/
def Walk.mark (w : Walk) : Nat := w.vaAt w.pos

/-- A translation covers a virtual address. -/
def XPage.covers (p : XPage) (va : Nat) : Bool := p.va ≤ va && va < p.va + p.bytes

/-- R313: the virtual address of the first later line in walk order outside the page. -/
def Walk.nextOutside (w : Walk) (p : XPage) : Option Nat :=
  let row := w.pos / w.rowLines
  (List.range (w.rows - row)).findSome? fun i =>
    let r0 := w.va + (row + i) * w.stride
    let first := if i == 0 then w.mark else r0
    if !p.covers first then some first
    else if p.va + p.bytes < r0 + w.rowLines * 128 then some (p.va + p.bytes) else none

/-- The walk loads lines; else it is a range action. -/
def Walk.fillsLines (w : Walk) : Bool := w.act == 0 || w.act == 16

/-- The mailbox opcode of the walk (R325, R377). -/
def Walk.opcode (w : Walk) : Nat :=
  match w.act with
  | 0 => 0x05 | 1 => 0x01 | 2 => 0x03 | 6 => 0x0B | _ => 0x0A

/-- The range operation that a range action performs on each line (R174, R272). -/
def Walk.rangeCode (w : Walk) : Nat :=
  match w.act with
  | 1 => RangeKind.flush.code | 2 => RangeKind.discard.code | _ => RangeKind.unpin.code

/-- R278: every swap accepted before the walk has been performed. -/
def State.walkFree (s : State) (w : Walk) : Bool := w.need ≤ s.lens.done

/-- The walk with an identity. -/
def State.walkOf (s : State) (id : Nat) : Option Walk := s.walks.find? (·.id == id)

/-- The walk goes on to its next line. -/
def State.walkNext (w : Walk) (s : State) : State := s.setWalk w.id fun (x : Walk) => { x with pos := w.pos + 1 }

/-- The walk stands still. -/
def State.walkStop (w : Walk) (st : WalkStop) (s : State) : State := s.setWalk w.id fun (x : Walk) => { x with stop := st }

/-! ### Lines (R149 to R151, R414) -/

/-- R133: fills of walks in progress. -/
def State.ownFills (s : State) : Nat :=
  (s.mrs.filter fun m => match m.owner with | .walk _ => true | .fabric => false).length +
  (s.txns.filter fun t => match t.kind with | .fillOp _ => true | _ => false).length

/-- Register or fill of a walk that holds the line (R150). -/
def State.filling (s : State) (line : Nat) : Bool :=
  s.mrs.any (fun m => m.line == line && m.st != .discard) ||
  s.txns.any (fun t => t.line == line && (match t.kind with | .fillOp _ => true | _ => false))

/-- R85, R150: the tags that the test of a line reads, where the walk comes to it. -/
def State.testTags (line : Nat) (s : State) : State :=
  if s.inScratch (line * 128) || !(s.homed line || s.relayed line) then s else s.readTags (setOf line)

/-- R150, R151: one line of a `TILE_FILL` or `PIN_LOAD`. Fills are issued in walk order: one waits, and the walk with it, for a
register, for a line that is busy or has requests before it, for the port that still has to take the walk's last fill (R299), and
for the balance of the partition's own group (R297). -/
def State.fillStep (w : Walk) (line : Nat) (s : State) : State :=
  let addr := line * 128
  let lens := s.lensAt addr
  let d := s.descOf lens
  let held := s.lineOf line
  let heldPart := (held.map (·.part)).getD w.part
  let owned := ((s.dirAt line).bind (·.owner)).isSome
  let g := s.selfGroup w.part
  if s.inScratch addr || !(s.homed line || (s.relayed line && d.mirror)) then s.walkNext w
  else if d.append then s.setWalk w.id fun (x : Walk) => { x with sawAppend := true, stop := .ended }
  else if (lens.isSome && d.part != w.part) || heldPart != w.part then
    (((s.act 17 1).setWalk w.id fun (x : Walk) => { x with denied := true }).walkNext w).log
      { source := 0x005, part := w.part, addr := addr, detail := lens.getD 0 + heldPart * 256 }
  else if held.isSome || s.filling line then ((s.act 17 1).walkNext w).count Ev.tileSkip (some w.part)
  else if s.atQuota lens then (s.walkNext w).count Ev.quotaBypass (some w.part)
  else if 128 ≤ s.ownFills || 512 ≤ s.regsUsed + (s.txns.filter fun t => match t.kind with | .fillOp _ => true | _ => false).length ||
      s.busy line || (owned && 512 ≤ s.trackers) || s.txns.any (fun t => t.line == line && !t.served && !t.isCtl) then
    s.walkStop w .mrWait
  else if s.mrs.any (fun m => m.owner == .walk w.id && s.memWait.any (·.use == .fillLine m.line)) then s.walkStop w .portWait
  else if !s.selfCovers g line then s.walkStop w .grantWait
  else
    let s := (s.selfPay g line).walkNext w
    let s := (s.count Ev.walkFill (some w.part)).setWalk w.id fun (x : Walk) =>
      { x with fills := x.fills + 1, outFills := x.outFills + 1 }
    ((s.runAs (some g)).addTxn (.fillOp w.id) line w.part lens).pumpLine line

/-- R256: the window is in `ARMED` to `FINAL` and its plane or header line meets a byte range. -/
def Window.guards (x : Window) (base bytes : Nat) : Bool :=
  (x.st == .armed || x.st == .opened || x.st == .sealed || x.st == .final) &&
  (rangesMeet x.base (x.size * 2 ^ 21) base bytes || rangesMeet x.hdr 128 base bytes)

/-- R118, R414: drop a replica. -/
def State.dropReplica (line : Nat) (s : State) : State :=
  match s.lineOf line with
  | some c => if c.rep then s.dropLine c else s
  | none => s

/-- Add a line to the runs of lines a range action has reached. -/
def addRun (line : Nat) : List (Nat × Nat) → List (Nat × Nat)
  | [] => [(line, 1)]
  | (b, n) :: rest => if b + n == line then (b, n + 1) :: rest else (line, 1) :: (b, n) :: rest

/-- R151, R256, R277: one line of a range action. A discard or an unpin that meets a window's plane or header line is refused with
nothing changed: the action looks at all its lines before it acts on the first (`probe`; log entry 51). -/
def State.rangeStep (w : Walk) (line : Nat) (s : State) : State :=
  if w.probe then
    if s.wins.any (fun x => x.guards (line * 128) 128) then
      s.setWalk w.id fun (x : Walk) => { x with endErr := some .busy, stop := .ended, probe := false }
    else s.walkNext w
  else
    let s := s.setWalk w.id fun (x : Walk) => { x with pos := w.pos + 1, ext := addRun line x.ext }
    if s.homed line then
      ((s.runAs (some (s.selfGroup w.part))).addTxn (.rangeOp w.rangeCode w.id) line w.part (s.lensAt (line * 128))).pumpLine line
    else if w.act != 1 then s.dropReplica line else s

/-! ### Pages (R312, R313, R324, R328) -/

/-- R151: the walk has line `va` of its partition still to reach. -/
def Walk.ahead (w : Walk) (part va : Nat) : Bool :=
  w.part == part && w.stop != .ended && (List.range w.rows).any fun r =>
    let r0 := w.va + r * w.stride
    r0 ≤ va && va < r0 + w.rowLines * 128 && w.pos ≤ r * w.rowLines + (va - r0) / 128

/-- R151: an operation accepted before the walk has this line still to reach: a range command that waits, or a walk, when
one of the two is a range action. -/
def State.mustYield (s : State) (w : Walk) (line : Nat) : Bool :=
  s.ranges.any (fun (r : RangeRun) => r.held && r.id < w.id && r.lo ≤ line && line < r.hi) ||
  s.walks.any (fun (x : Walk) => x.id < w.id && !(x.fillsLines && w.fillsLines) && x.ahead w.part w.mark)

/-- The lines of the walk have all been looked at, or a translation fails there: it acts on them from the first. -/
def State.probed (w : Walk) (s : State) : State :=
  s.setWalk w.id fun (x : Walk) => { x with probe := false, pos := 0, cur := none, look := .todo, steps := [], lookSteps := [] }

/-- The lines of the current page. -/
def State.walkLines (id : Nat) : Nat → State → State
  | 0, s => s
  | n + 1, s =>
    match s.walkOf id with
    | none => s
    | some w =>
      if w.stop != .running then s
      else if w.total ≤ w.pos then (if w.probe then s.probed w else s.walkStop w .ended)
      else match w.cur with
        | none => s
        | some p =>
          if !p.covers w.mark then s
          else
            let line := addrLine (p.pa + (w.mark - p.va))
            if !w.probe && s.mustYield w line then s.walkStop w .orderWait
            else if !w.fillsLines then (s.rangeStep w line).walkLines id n
            else
              let s := s.testTags line
              if s.power.state == .recovery then s else (s.fillStep w line).walkLines id n

/-- R325: stage the record of a fault. DESIGN CHOICE (log entry 151): the spec does not say whether a fault that stages no record
(`FQ_DISABLED`, `FQ_OVERFLOW`) takes a sequence number; in the model only a staged record does. -/
def State.stage (w : Walk) (f : Nat × Nat × Word) (s : State) : State :=
  let slot : Option Nat := match w.src with | .action i => some i | .mailbox _ => none
  let tag := match slot with | some i => bits ((s.slot i).words.getD 0 0).toNat 39 24 | none => 0
  let r := faultRec w.mark f.1 f.2.1 w.part w.cls slot w.opcode s.position s.xlt.faultSeq f.2.2 tag
  let s := s.setXlt fun x => { x with staged := x.staged ++ [r], faultSeq := (x.faultSeq + 1) % 65536 }
  let s := s.setWalk w.id fun (x : Walk) => { x with stop := .ended, faulted := true, flt := none }
  (s.setStatus 1).pwStatus w.part 8

/-- R324, R327, R328: a fault at the walk's line. -/
def State.walkFault (w : Walk) (f : Nat × Nat × Word) (s : State) : State :=
  if w.probe then s.probed w
  else
    let s := s.count Ev.xltFault (some w.part)
    if !s.xlt.fqEn then
      (s.setWalk w.id fun (x : Walk) => { x with stop := .ended, faulted := true }).count Ev.fqDisabled (some w.part)
    else if s.xlt.staged.length < 16 then s.stage w f
    else s.setWalk w.id fun (x : Walk) => { x with stop := .stalled, flt := some f }

/-- R313, R314: ask for the lookahead translation, or go on with it, while the walk is inside its current page. -/
def State.lookAhead (id : Nat) (s : State) : State :=
  match s.walkOf id with
  | none => s
  | some w =>
    match w.look, w.cur with
    | .todo, some p =>
      (match w.nextOutside p with
       | none => s
       | some va =>
         if w.stop != .running || !p.covers w.mark then s
         else
           let (r, s) := s.xlat w.cls w.part va none (w.act == 2) true w.lookSteps
           s.setWalk id fun (x : Walk) =>
             match r with
             | .ok p => { x with look := .page p, lookSteps := [] }
             | .wait k got => { x with look := .wait k, lookSteps := got }
             | .fault t l e keys => { x with look := .failed (t, l, e) keys, lookSteps := [] })
    | _, _ => s

/-- R313, R321: a translation becomes the walk's current one. -/
def Walk.takes (p : XPage) (x : Walk) : Walk :=
  { x with cur := some p, look := .todo, steps := [], lookSteps := [], used := x.used ++ p.keys.filter fun k => !x.used.contains k }

/-- R308 to R311, R314: make the current translation of the walk's line, or go on with it. -/
def State.walkXlat (w : Walk) (s : State) : State :=
  let got := if w.steps.isEmpty && w.cur.isSome then w.lookSteps else w.steps
  let (r, s) := s.xlat w.cls w.part w.mark w.pois (w.act == 2) false got
  let s := s.setWalk w.id fun (x : Walk) => { x with pois := none }
  match r with
  | .ok p => s.setWalk w.id (Walk.takes p)
  | .wait k got => s.setWalk w.id fun (x : Walk) => { x with stop := .tdcWait, wait := some k, steps := got }
  | .fault t l e _ => s.walkFault w (t, l, e)

/-- The current page of the walk's line: kept, taken from the lookahead, or translated. The walk leaves a page for the one that its
lookahead translates: it goes on with that translation, or meets its failure (R313, R324). -/
def State.walkCur (w : Walk) (s : State) : State :=
  if (w.cur.map (·.covers w.mark)).getD false then s
  else
    match w.look with
    | .page p =>
      if p.covers w.mark then (s.promote p).setWalk w.id (Walk.takes p)
      else (s.setWalk w.id fun (x : Walk) => { x with look := .todo }).walkXlat w
    | .failed f _ => if w.cur.isSome then s.walkFault w f else s.walkXlat w
    | .wait k =>
      if w.cur.isSome then s.setWalk w.id fun (x : Walk) => { x with stop := .tdcWait, wait := some k, steps := x.lookSteps, look := .todo }
      else s.walkXlat w
    | .todo => s.walkXlat w

/-- One turn of a walk: at most one page (R313). -/
def State.walkTurn (id : Nat) (s : State) : State :=
  match s.walkOf id with
  | none => s
  | some w =>
    if w.stop != .running then s
    else if w.total ≤ w.pos then (if w.probe then s.probed w else s.walkStop w .ended)
    else ((s.walkCur w).lookAhead id).walkLines id (w.total - w.pos + 1)

/-- R312: the walker of a class is held by a translation that waits or a stalled walk. -/
def State.walkerHeld (s : State) (cls : Nat) : Bool :=
  s.walks.any fun w => w.cls == cls && (w.stop == .tdcWait || w.stop == .stalled)

/-- The walk can take a turn. -/
def State.canWalk (s : State) (w : Walk) : Bool := w.stop == .running && s.walkFree w && !s.walkerHeld w.cls

/-- R313: the walk whose turn it is in a walker's rotation: the next in acceptance order after the one that had the last turn. -/
def State.nextTurn (s : State) (cls : Nat) : Option Walk :=
  let l := s.walks.filter fun w => w.cls == cls && s.canWalk w
  (l.find? fun w => s.xlt.turn.getD cls 0 < w.id) <|> l.head?

/-- R313: one turn of a walker; a turn that a translation holds up goes on when the translation is here. DESIGN CHOICE (log entry 152):
R313 does not say whether a walk that stops inside a page for a register, a port, a balance or an earlier operation keeps the turn; in the
model it passes to the next operation of the class. -/
def State.walkerTurn (cls : Nat) (s : State) : State :=
  match s.nextTurn cls with
  | none => s
  | some w =>
    let s := s.walkTurn w.id
    if (s.walkOf w.id).any (·.stop == .tdcWait) then s
    else s.setXlt fun x => { x with turn := x.turn.set cls w.id }

/-- Rounds of turns of the eight walkers, until none can go on. -/
def State.walkRounds : Nat → State → State
  | 0, s => s
  | n + 1, s =>
    if s.walks.any s.canWalk then ((List.range 8).foldl (fun (t : State) c => t.walkerTurn c) s).walkRounds n else s

/-- R414, R174: begin a range command: every homed line becomes an operation of its line, and replicas are dropped. -/
def State.beginRange (r : RangeRun) (s : State) : State :=
  let s := { s with ranges := s.ranges.map fun (x : RangeRun) => if x.id == r.id then { x with held := false } else x }
  (List.range (r.hi - r.lo)).foldl (fun t i =>
    let line := r.lo + i
    let lens := t.lensAt (line * 128)
    if t.homed line then
      let part := match t.lineOf line, lens with
        | some c, _ => c.part
        | none, some _ => (t.descOf lens).part
        | none, none => r.window.getD 0
      (t.addTxn (.rangeOp r.kind.code r.id) line part lens).pumpLine line
    else if r.kind == .flush then t else t.dropReplica line) s

/-- Walks that waited for a register, a port, a balance or an earlier operation try again. -/
def State.wakeStopped (s : State) : State :=
  { s with walks := s.walks.map fun (w : Walk) =>
      if w.stop == .mrWait || w.stop == .portWait || w.stop == .orderWait || w.stop == .grantWait
      then { w with stop := WalkStop.running } else w }

/-- R151: the oldest waiting range command begins once no walk accepted before it has lines left. -/
def State.rangesGo (s : State) : State :=
  match s.ranges.find? (fun (r : RangeRun) => r.held) with
  | some r => if s.walks.any (fun (w : Walk) => w.id < r.id && w.stop != .ended) then s else s.beginRange r
  | none => s

/-- Walks and range commands go on in turn. -/
def State.workRounds : Nat → State → State
  | 0, s => s
  | n + 1, s =>
    let s := s.wakeStopped
    ((s.walkRounds ((s.walks.map fun (w : Walk) => 2 * w.total - w.pos + 4).sum)).rangesGo).workRounds n

/-- Walks and range commands go as far as they can. -/
def State.walksGo (s : State) : State :=
  if (s.walks.isEmpty && s.ranges.isEmpty) || s.power.state != .service then s
  else s.workRounds (s.ranges.length + s.walks.length + 1)

/-- R328: staging entries are free: the oldest stalled walks stage their records, as many as there is room for. -/
def State.unstall (s : State) : State :=
  (s.walks.foldl (fun (t : State) (w : Walk) =>
    if w.stop == .stalled && t.xlt.staged.length < 16 then t.stage w (w.flt.getD (0, 0, 0)) else t) s).walksGo

/-! ### Beginning and end -/

/-- Accept a walk. -/
def State.beginWalk (w : Walk) (s : State) : State :=
  State.walksGo { s with walks := s.walks ++ [{ w with id := s.nextId }], nextId := s.nextId + 1 }

/-- The write-backs of these runs of lines have been acknowledged, and every line's operation has ended. -/
def State.rangeQuiet (s : State) (id : Nat) (inRun : Nat → Bool) : Bool :=
  !s.txns.any (fun t => match t.kind with | .rangeOp op i => op < 5 && i == id | _ => false) && !s.wbb.any (fun e => inRun e.line)

/-- A line lies in one of the runs. -/
def inRuns (l : List (Nat × Nat)) (line : Nat) : Bool := l.any fun (b, n) => b ≤ line && line < b + n

/-- The runs cover the lines from `lo` to below `hi`. -/
def runsCover (l : List (Nat × Nat)) (lo hi : Nat) : Nat → Bool
  | 0 => hi ≤ lo
  | n + 1 =>
    if hi ≤ lo then true
    else match l.find? fun (b, k) => b ≤ lo && lo < b + k with
      | some (b, k) => runsCover l (b + k) hi n
      | none => false

/-- R152, R277: the walk can complete: every fill is installed, or every line's operation is done. -/
def State.walkDue (s : State) (w : Walk) : Bool :=
  w.stop == .ended && (if w.fillsLines then w.outFills == 0 else s.rangeQuiet w.id (inRuns w.ext))

/-- R111: append rings whose whole window the runs cover start again. -/
def State.resetRuns (l : List (Nat × Nat)) (s : State) : State :=
  s.lens.slots.foldl (fun t x => match x.desc with
    | some d => if d.append && runsCover l (d.base * 2 ^ 14) ((d.base + d.size) * 2 ^ 14) (l.length + 1)
        then t.resetRings (d.base * 2 ^ 21) (d.size * 2 ^ 21) else t
    | none => t) s

/-- R152, R277, R379: the outcome of a walk. -/
def State.walkEndRes (w : Walk) (s : State) : State :=
  let fills (m : Nat) : List Word := if w.fillsLines then [BitVec.ofNat 64 m, BitVec.ofNat 64 w.fills] else []
  let s := { s with walks := s.walks.filter fun (x : Walk) => x.id != w.id }
  let s := if w.act == 2 then s.resetRuns w.ext else s
  if w.faulted then s.srcDone w.src .partialSt (fills w.mark) w.mark
  else if w.overflow then s.srcDone w.src .fqOverflow (fills w.mark) w.mark
  else match w.endErr with
    | some e => s.srcRefuse w.src e
    | none =>
      if w.sawAppend then s.srcDone w.src .aborted (fills 0) 0
      else if w.denied then s.srcDone w.src .accessDenied (fills 0) 0
      else if w.sawPoison then s.srcDone w.src .poison (fills 0) 0
      else s.srcDone w.src .done (fills 0) 0

/-! ### The commands -/

/-- R147, R148, R379: `TILE_FILL` from a mailbox. -/
def State.tileCmd (m : MbCmd) (s : State) : State :=
  let va := bits (m.arg 0) 56 0
  let rl := bits (m.arg 1) 13 0
  let rm := bits (m.arg 1) 29 14
  let part := bits (m.arg 1) 36 33
  let stride := bits (m.arg 2) 31 0
  if va % 128 != 0 || stride % 128 != 0 then s.mbRefuse m.window .align
  else if rl == 0 || 8192 < rl || !(s.part part).active || 2 ^ 57 < va + rm * stride + rl * 128 then
    s.mbRefuse m.window .fieldRange
  else if (m.window.map (· != part)).getD false then s.mbRefuse m.window .partitionAccess
  else s.beginWalk { id := 0, src := .mailbox m.window, act := 0, va := va, rowLines := rl, rows := rm + 1,
                     stride := stride, part := part, cls := bits (m.arg 1) 32 30 }

/-- R378, R379: `PIN_LOAD`. -/
def State.pinCmd (m : MbCmd) (s : State) : State :=
  let va := bits (m.arg 0) 56 0
  let n := bits (m.arg 1) 32 0 + 1
  let part := bits (m.arg 1) 39 36
  if va % 128 != 0 then s.mbRefuse m.window .align
  else if !(s.part part).active || 2 ^ 57 < va + n * 128 then s.mbRefuse m.window .fieldRange
  else if (m.window.map (· != part)).getD false then s.mbRefuse m.window .partitionAccess
  else s.beginWalk { id := 0, src := .mailbox m.window, act := 16, va := va, rowLines := n, rows := 1, stride := 0,
                     part := part, cls := bits (m.arg 1) 35 33 }

/-- `TILE_FILL` (R149). -/
def execTileFill (m : MbCmd) (s : State) : Res := mailboxRow (.tileFill m) 0x05 m State.tileCmd s

/-- `PIN_LOAD` (R378). -/
def execPinLoad (m : MbCmd) (s : State) : Res := mailboxRow (.pinLoad m) 0x0A m State.pinCmd s

/-- The walk of a mailbox. -/
def State.mbWalk (s : State) (window : Option Nat) : Option Walk := s.walks.find? fun w => w.src == .mailbox window

/-- R152: the walk of a mailbox completes. -/
def execWalkComplete (window : Option Nat) (s : State) : Res :=
  match s.mbWalk window with
  | some w => if s.fclkRuns && s.walkDue w then finish (s.fresh0.walkEndRes w).tidy else s.notDue
  | none => s.notDue

/-- The head of the fault ring's staging entries goes to memory, and a stall that waits for its entry ends (R327, R328). -/
def execFaultRingWrite (s : State) : Res :=
  if s.fclkRuns && s.fqRoom then finish (s.fresh0.fqWrite.unstall) else s.notDue

/-- R328: `FQ_HOLD` passes for the stalled walk of a class. -/
def execFqOvf (cls : Nat) (s : State) : Res :=
  match s.walks.find? (fun w => w.stop == .stalled && w.cls == cls) with
  | some w =>
    if !s.fclkRuns then s.notDue
    else
      let s := s.fresh0.setWalk w.id fun (x : Walk) => { x with stop := .ended, overflow := true, flt := none }
      finish (((s.count Ev.fqOvf (some w.part)).log { source := 0x013, part := w.part, detail := w.mark }).walksGo)
  | none => s.notDue

/-- R321: a TDC change completes. -/
def execTdcChangeComplete (part : Nat) (s : State) : Res :=
  if s.fclkRuns && s.changeDue part && !s.memOut.any (fun r => r.use == .tdcWrite part) && !s.memWait.any (fun r => r.use == .tdcWrite part)
  then finish (s.fresh0.changeDone part) else s.notDue

end Sys2Proof.Machine
end

