-- ==== Sys2Proof/Machine/Actions.lean ====
section
/-! DEFINITION. Cue actions at the head of the `DUE` queue, and their completion (R276 to R280). -/

namespace Sys2Proof.Machine

open Sys2Proof

/-- Word `i` of a slot's record. -/
def ActSlot.word (a : ActSlot) (i : Nat) : Nat := (a.words.getD i 0).toNat

/-- R276: the walking actions. -/
def walking (act : Nat) : Bool := act == 0 || act == 1 || act == 2 || act == 6

/-- Walking actions that run. -/
def State.walkingNow (s : State) : Nat := (s.cue.slots.filter fun a => a.st == .running && walking a.act).length

/-- R276: the slot at the head of the `DUE` queue, when it holds this action and the slice can accept it. -/
def State.actionDue (s : State) (act : Nat) : Option Nat :=
  match s.cue.due with
  | [] => none
  | i :: _ =>
    if s.power.state == .service && !s.power.relock && (s.slot i).act == act && !(walking act && 8 ≤ s.walkingNow) then some i
    else none

/-- R274, R276: the slot at the head is accepted. -/
def State.accept (i : Nat) (s : State) : State :=
  State.setSlot i (fun a => { a with st := .running, out := none })
    { s with cue := { s.cue with due := s.cue.due.filter (· != i) } }

/-- R277: the walk of a walking action. -/
def State.actionWalk (i : Nat) (s : State) : State :=
  let a := s.slot i
  let tile := a.act == 0
  let w : Walk :=
    { id := 0, src := .action i, act := a.act, va := bits (a.word 2) 56 0,
      rowLines := if tile then bits (a.word 3) 13 0 else bits (a.word 5) 32 0 + 1,
      rows := if tile then bits (a.word 3) 29 14 + 1 else 1,
      stride := if tile then bits (a.word 4) 31 0 else 0,
      part := a.part, cls := bits (a.word 0) 23 21, need := s.lensAccepted, probe := a.act == 2 || a.act == 6 }
  (s.beginWalk w).tidy

/-- R277: perform an accepted action. -/
def State.actionRun (i : Nat) (s : State) : State :=
  let a := s.slot i
  match a.act with
  | 3 => s.sealOp (.action i) false (bits (a.word 6) 5 0) (some a.part) (some (bits (a.word 6) 37 6))
  | 4 => s.sealOp (.action i) true (bits (a.word 6) 5 0) (some a.part) (some (bits (a.word 6) 37 6))
  | 5 => (s.acceptLens (.swap (.action i))).walksGo
  | 7 => (s.acceptLens (.setPers i (bits (a.word 7) 7 0) (bits (a.word 7) 15 8) (bits (a.word 7) 17 16))).walksGo
  | _ => s.actionWalk i

/-- One action row; the slot's entry and its record are read, and a damaged one is fatal (R447, R448). -/
def actionRow (act : Nat) (s : State) : Res :=
  match s.actionDue act with
  | some i =>
    let s := (s.fresh0.entryRead (.slot i) 6 i).cfgRead (.slot i)
    finish (if s.power.state == .service then (s.accept i).actionRun i else s)
  | none => s.notDue

/-- `TILE_FILL` (R277). -/
def execActionTileFill (s : State) : Res := actionRow 0 s
/-- `FLUSH_RANGE` (R277). -/
def execActionFlushRange (s : State) : Res := actionRow 1 s
/-- `DISCARD_RANGE` (R277). -/
def execActionDiscardRange (s : State) : Res := actionRow 2 s
/-- `UNPIN` (R277). -/
def execActionUnpin (s : State) : Res := actionRow 6 s
/-- `SEAL` (R277). -/
def execActionSeal (s : State) : Res := actionRow 3 s
/-- `FINALIZE` (R277). -/
def execActionFinalize (s : State) : Res := actionRow 4 s
/-- `LENS_SWAP` (R123, R277). -/
def execActionLensSwap (s : State) : Res := actionRow 5 s
/-- `SET_PERS` (R125, R277). -/
def execActionSetPers (s : State) : Res := actionRow 7 s

/-- The walk of a slot. -/
def State.slotWalk (s : State) (i : Nat) : Option Walk := s.walks.find? fun w => w.src == .action i

/-- R277: a running action has its outcome, or its walk can give it. -/
def State.actionEndDue (s : State) (i : Nat) : Bool :=
  s.fclkRuns && (s.slot i).st == .running &&
  (match s.slotWalk i with
   | some w => s.walkDue w
   | none => (s.slot i).out.isSome)

/-- R274, R280: the slot is freed with its outcome; one other than `DONE` is counted and shown. -/
def State.actionEnd (i : Nat) (s : State) : State :=
  let s := match s.slotWalk i with
    | some w => s.walkEndRes w
    | none => s
  let a := s.slot i
  let s := s.freeSlot i a.out
  match a.out with
  | some o =>
    let s := s.measure 11 (some a.part)
    if o.isErr || o.code != 0 then (s.count Ev.actFail (some a.part)).pwStatus a.part 2 else s
  | none => s

/-- R280: a running action completes. -/
def execActionComplete (slot : Nat) (s : State) : Res :=
  if s.actionEndDue slot then
    let s := s.fresh0.entryRead (.slot slot) 6 slot
    finish (if s.power.state == .recovery then s else (s.actionEnd slot).walksGo.tidy)
  else s.notDue

end Sys2Proof.Machine
end

