-- ==== Sys2Proof/Machine/Flits.lean ====
section
/-! DEFINITION. How flits, sidebands, records and stored entries lie in their bits (R14, R26, R31, R34, R38, R80, R83, R158, R160,
R162, R166, R396, R406). The check bits are a free value (log entry 27): the spec gives no code matrix. -/

namespace Sys2Proof.Machine

open Sys2Proof

/-- Fields and the bit at which each begins. -/
def packAt (l : List (Nat × Nat)) : Nat := (l.map fun (n, lo) => n * 2 ^ lo).sum

/-- A word of `k` bits with its check bits above them. -/
def checked (k n : Nat) : Nat := n + (Config.checkBits k n).toNat * 2 ^ k

/-! ### Requests (R14, R15) -/

/-- Bits [119:0] of a `REQ` flit. -/
def reqBody (op : ReqOp) (q : Req) : Nat :=
  packAt [(op.code, 0), (q.addr, 8), (q.agent, 60), (q.tint, 70), (q.part, 74), (q.scope, 78), (q.size, 81),
    (b2n q.lastUse, 84), (b2n q.fenced, 85), (b2n q.provisional, 86), (q.txid, 87), (q.reserved, 99)]

/-- R14: a `REQ` flit. -/
def reqBits (op : ReqOp) (q : Req) : BitVec 128 := BitVec.ofNat 128 (checked 120 (reqBody op q))

/-- R14: the request that a flit on a port spells. -/
def reqOf (port : Nat) (w : BitVec 128) : ReqOp × Req :=
  let n := w.toNat
  (ReqOp.ofCode (bits n 7 0),
   { port := port, addr := bits n 59 8, agent := bits n 69 60, tint := bits n 73 70, part := bits n 77 74,
     scope := bits n 80 78, size := bits n 83 81, lastUse := bit n 84, fenced := bit n 85, provisional := bit n 86,
     txid := bits n 98 87, reserved := bits n 119 99 })

/-! ### Snoops and their answers (R160, R162) -/

/-- R160: an `SNP` flit. -/
def snpBits (op line id : Nat) : BitVec 96 := BitVec.ofNat 96 (checked 88 (packAt [(op, 0), (line * 128, 8), (id, 60)]))

/-- R162: an `SNR` flit. -/
def snrBits (r : Snr) : BitVec 32 :=
  BitVec.ofNat 32 (checked 24 (packAt [(r.code, 0), (b2n r.data, 3), (b2n r.pd, 4), (r.notice, 5), (r.id, 7)]))

/-- R162: what an `SNR` flit on a port says. -/
def snrOf (port : Nat) (w : BitVec 32) : Snr :=
  let n := w.toNat
  { port := port, id := bits n 18 7, code := bits n 2 0, data := bit n 3, pd := bit n 4, notice := bits n 6 5 }

/-! ### Data (R26, R31, R164) -/

/-- R26: the sideband of a `DAT` flit. -/
def datSide (txid sector : Nat) (poison partialAttr last : Bool) : BitVec 32 :=
  BitVec.ofNat 32 (checked 24 (packAt [(txid, 0), (sector, 12), (b2n poison, 13), (b2n partialAttr, 14), (b2n last, 15)]))

/-- R26, R164: the `TXID` or snoop ID of a `DAT` in flit, and the flit. -/
def datOf (side : BitVec 32) (d : Sector) : Nat × DatFlit :=
  let n := side.toNat
  (bits n 11 0, { sector := bits n 12 12, data := d, poison := bit n 13, last := bit n 15, reserved := bits n 23 16 })

/-- R31: a memory request's header. -/
def memBits (mopc addr mtag size part : Nat) (spec : Bool) : BitVec 128 :=
  BitVec.ofNat 128 (checked 120 (packAt [(mopc, 0), (addr, 8), (mtag, 60), (size, 72), (part, 75), (b2n spec, 79)]))

/-- R31: the sideband of a memory port's data flit. -/
def memSide (mtag sector : Nat) (poison wack last : Bool) : BitVec 32 :=
  BitVec.ofNat 32 (checked 24 (packAt [(mtag, 0), (sector, 12), (b2n poison, 13), (b2n wack, 14), (b2n last, 15)]))

/-- R31: a read-data flit; none for a write acknowledgement. -/
def memOf (port : Nat) (side : BitVec 32) (d : Sector) : Option MemFlit :=
  let n := side.toNat
  if bit n 14 then none
  else some { port := port, mtag := bits n 11 0, sector := bits n 12 12, data := d, poison := bit n 13, last := bit n 15,
              reserved := bits n 23 16 }

/-! ### Completions, beats and allowances (R34, R38, R158) -/

/-- R158: an `RSP` flit. -/
def rspBits (st : Status) (txid grant : Nat) (isOpen ackReq : Bool) : BitVec 32 :=
  BitVec.ofNat 32 (checked 24 (packAt [(st.code, 0), (txid, 4), (grant, 16), (b2n isOpen, 18), (b2n ackReq, 19)]))

/-- R34: a beat flit. -/
def beatBits (part chan : Nat) (count : BitVec 32) : BitVec 48 :=
  BitVec.ofNat 48 (checked 40 (packAt [(part, 0), (chan, 4), (count.toNat, 8)]))

/-- R34: the partition, channel and count of a beat flit. -/
def beatOf (w : BitVec 48) : Nat × Nat × BitVec 32 := (bits w.toNat 3 0, bits w.toNat 7 4, BitVec.ofNat 32 (bits w.toNat 39 8))

/-- Parity of a number's bits below `k`. -/
def parity (n k : Nat) : Nat := ((List.range k).map fun i => b2n (bit n i)).sum % 2

/-- R38: an allowance flit. DESIGN CHOICE (log entry 58): of `CHK` the low six bits are the sequence, and the top one is the even
parity of all below it. -/
def regoBits (group res tokens seq : Nat) : BitVec 24 :=
  let n := packAt [(group, 0), (res, 6), (tokens, 9), (seq, 17)]
  BitVec.ofNat 24 (n + parity n 23 * 2 ^ 23)

/-! ### Stored entries (R80, R83, R166) -/

/-- R80: a tag entry; the tag of a line is `A[51:23]`. -/
def CLine.tagBits (c : CLine) : BitVec 64 :=
  BitVec.ofNat 64 (checked 56 (packAt [(bits c.line 44 16, 0), (b2n c.lo.v, 29), (b2n c.hi.v, 30), (b2n c.lo.d, 31), (b2n c.hi.d, 32),
    (b2n c.lo.z, 33), (b2n c.hi.z, 34), (c.rrv, 35), (b2n c.dead, 37), (c.part, 38), (c.lens.getD 0, 42), (b2n c.lens.isSome, 50),
    (b2n c.rep, 51)]))

/-- R83: the eight codewords of a sector. -/
def codewords (d : Sector) : List (BitVec 72) :=
  (List.range 8).map fun i => BitVec.ofNat 72 (checked 64 ((d.toNat >>> (64 * i)) % 2 ^ 64))

/-- R166: the pointers of an entry, its owner first. -/
def DirEnt.ptrs (e : DirEnt) : List Nat := e.owner.toList ++ (if e.coarse then [] else e.sharers)

/-- R166: the 192 data bits of a directory entry. -/
def DirEnt.bits (e : DirEnt) : BitVec 192 :=
  let st := if e.owner.isNone then 1 else if e.excl then 2 else 3
  let low := packAt [(Sys2Proof.bits e.line 44 16, 0), (st, 29), (b2n e.coarse, 31), (if e.coarse then 0 else e.ptrs.length, 32), (e.part, 35)]
  BitVec.ofNat 192 (low + packAt ((e.ptrs.zipIdx).map fun (a, i) => (a, 39 + 10 * i)) +
    (if e.coarse then e.vec.toNat * 2 ^ 49 else 0))

/-- R166: its three codewords. -/
def DirEnt.codewords (e : DirEnt) : List (BitVec 72) :=
  (List.range 3).map fun i => BitVec.ofNat 72 (checked 64 ((e.bits.toNat >>> (64 * i)) % 2 ^ 64))

/-! ### Records (R406) -/

/-- Bits [15:12] of the sideband of a record's data flit, the last one marked. -/
def sideNibble (l : List DatFlit) (partialAttr : Bool) (i : Nat) : Nat :=
  match l[i]? with
  | some f => f.sector + 2 * b2n f.poison + 4 * b2n partialAttr + 8 * b2n (i + 1 == l.length)
  | none => 0

/-- R406: the type of a record. -/
def SpanRec.typ : SpanRec → Nat
  | .req .. => 1 | .rsp .. => 2 | .snp .. => 3 | .snr .. => 4 | .hrec .. => 5 | .hack .. => 6 | .fill .. => 7 | .ver .. => 8
  | .retire .. => 9

/-- R406: the data flits a record owns. -/
def SpanRec.dats : SpanRec → List DatFlit
  | .req _ q => q.dat
  | .rsp _ _ _ _ d _ => d
  | .snr _ _ _ _ d => d
  | .fill _ _ d => d
  | _ => []

/-- R406: the body of a record. -/
def SpanRec.body : SpanRec → Nat
  | .req op q => reqBody op { q with reserved := 0 } +
      packAt [(b2n ((q.dat[0]?.map (·.poison)).getD false), 99), (b2n ((q.dat[1]?.map (·.poison)).getD false), 100)]
  | .rsp tag st grant o d p => packAt [(st, 0), (tag, 4), (grant, 16), (b2n o, 18), (b2n (grant != 0), 19), (sideNibble d p 0, 24),
      (sideNibble d p 1, 28)]
  | .snp op line id agent => packAt [(op, 0), (line * 128, 8), (id, 60), (agent, 88)]
  | .snr code id notice pd d => packAt [(code, 0), (b2n (!d.isEmpty), 3), (b2n pd, 4), (notice, 5), (id, 7), (sideNibble d false 0, 24),
      (sideNibble d false 1, 28)]
  | .hrec line agent tag => packAt [(line, 0), (agent, 45), (tag, 55)]
  | .hack tag refused => packAt [(tag, 0), (b2n refused, 8)]
  | .fill line slot d => packAt [(line, 0), (slot, 45), (sideNibble d false 0, 53), (sideNibble d false 1, 57)]
  | .ver slot base size hash => packAt [(slot, 0), (base, 8), (size, 39), (hash, 59)]
  | .retire lane seq => packAt [(lane, 0), (seq, 5)]

/-- R406: a record of 16 bytes. -/
def SpanRec.bits (r : SpanRec) : BitVec 128 :=
  BitVec.ofNat 128 (packAt [(SpanRec.body r, 0), ((SpanRec.dats r).length, 120), (SpanRec.typ r, 124)])

/-- R406: the data flits that a record of these bits owns. -/
def recNeed (n : Nat) : Nat := Sys2Proof.bits n 121 120

/-- R26, R406: a data flit of a record, with bits [15:12] of its sideband. -/
def nibbleFlit (n : Nat) (d : Sector) : DatFlit :=
  { sector := Sys2Proof.bits n 0 0, data := d, poison := bit n 1, last := bit n 3 }

/-- R406: the record that 128 bits spell, with its data flits. The `TYPE`s 0 and 10 to 15 spell none (log entry 139). A single
data flit of a request belongs to the sector of its address. -/
def SpanRec.ofBits (n : Nat) (dat : List Sector) : Option SpanRec :=
  let f (hi lo : Nat) : Nat := Sys2Proof.bits n hi lo
  let fl (lo : Nat) : List DatFlit := (dat.zipIdx).map fun (d, i) => nibbleFlit (f (lo + 4 * i + 3) (lo + 4 * i)) d
  match f 127 124 with
  | 1 =>
    let (op, q) := reqOf 0 (BitVec.ofNat 128 (n % 2 ^ 99))
    some (.req op { q with dat := (dat.zipIdx).map fun (d, i) =>
      { sector := if dat.length == 1 then Sys2Proof.bits q.addr 6 6 else i, data := d, poison := bit n (99 + i),
        last := i + 1 == dat.length } })
  | 2 => some (.rsp (f 15 4) (f 3 0) (f 17 16) (bit n 18) (fl 24) (bit n 26))
  | 3 => some (.snp (f 7 0) (f 59 15) (f 71 60) (f 97 88))
  | 4 => some (.snr (f 2 0) (f 18 7) (f 6 5) (bit n 4) (fl 24))
  | 5 => some (.hrec (f 44 0) (f 54 45) (f 62 55))
  | 6 => some (.hack (f 7 0) (bit n 8))
  | 7 => some (.fill (f 44 0) (f 52 45) (fl 53))
  | 8 => some (.ver (f 7 0) (f 38 8) (f 58 39) (f 90 59))
  | 9 => some (.retire (f 4 0) (f 20 5))
  | _ => none

/-! ### What leaves the ports -/

/-- The bits of a flit's header or sideband, where a rule lays it out. -/
def Out.bits : Out → Option Nat
  | .rsp _ txid st grant o a => some (rspBits st txid grant o a).toNat
  | .dat _ txid sec _ p pa l => some (datSide txid sec p pa l).toNat
  | .snp _ op line id _ => some (snpBits op line id).toNat
  | .mem _ mopc addr mtag size part spec => some (memBits mopc addr mtag size part spec).toNat
  | .memData _ mtag sec _ p l => some (memSide mtag sec p false l).toNat
  | .cueo part chan count => some (beatBits part chan count).toNat
  | .rego g res tokens seq => some (regoBits g res tokens seq).toNat
  | .span _ (some r) => some (SpanRec.bits r).toNat
  | _ => none

end Sys2Proof.Machine
end

