-- ==== Sys2Proof/Machine/Fabric.lean ====
section
/-! DEFINITION. The fabric ports: requests from their header checks to their order point, notices, provisional reads,
relays at the entry slice, request data, acknowledgements, credits and the watchdog (R14 to R26, R60 to R64, R127 to
R145, R154 to R173, R407, R410, R455 to R459). -/

namespace Sys2Proof.Machine

open Sys2Proof

/-! ### Charges (R288, R295) -/

/-- R295: what a request reserves of `FABRIC_IN`, `FABRIC_OUT`, `MEM` and `LANES` where both are at this slice. -/
def reqCharge (op : ReqOp) (q : Req) : Nat × Nat × Nat × Nat :=
  let n := op.flits q.size
  let inn := max 1 n
  match op with
  | .rdShared | .rdOnce => (inn, if q.size == 7 then 2 else 1, 2, 0)
  | .rdUnique | .upgrade => (inn, 2, 2, 0)
  | .wrFull | .append => (inn, 0, n, 0)
  | .wrPartial => (inn, 0, 2, 0)
  | .accumulate => (inn, 0, 2, 2)
  | .rdFused => (inn, 2, 4, 3)
  | _ => if op.isAt then (inn, b2n (q.dataIn op && (atOperand op q.payload).fetch), 2, 1) else (inn, 0, 0, 0)

/-- R295: the charge at this slice in the order of `RES`: the whole one, the entry's part of a relayed request, or the
home's part of one that came over `SPAN`. -/
def State.chargeHere (s : State) (op : ReqOp) (q : Req) (tag : Option Nat) : List Nat :=
  let (inn, out, mem, lanes) := reqCharge op q
  if tag.isSome then [0, 0, mem, out, lanes]
  else if s.relayed q.line then [inn, out, 0, inn, 0] else [inn, out, mem, 0, lanes]

/-- A request as it is accepted: matched against the active set, once, with the group that its use is charged to (R96, R286 to
R288). -/
def State.accepted (s : State) (op : ReqOp) (q : Req) (tag : Option Nat) : WaitReq :=
  let lens := s.lensAt q.addr
  { op := op, q := q, cause := .busyLine, tag := tag, lens := lens, grp := s.groupOf q.agent (tintOf (s.descOf lens) q.tint),
    age := s.power.heldAge }

/-- R410, R413: a read at its entry slice that the replica serves. -/
def State.replicaRead (s : State) (op : ReqOp) (lens : Option Nat) : Bool :=
  (s.descOf lens).mirror && op.isRead && !(lens.map s.unverified).getD false

/-- R483: the histogram sources that measure a request up to its `RSP`: 3 a write-type request, 4 an atomic, 5 a relayed request at
the entry slice, which a read that the replica serves is not. A request that came over `SPAN` has its `RSP` at the entry. -/
def State.histSources (s : State) (w : WaitReq) : List Nat :=
  if w.tag.isSome then []
  else if s.relayed w.q.line then (if s.replicaRead w.op w.lens then [] else [5])
  else (if w.op.isWrite && !w.op.isNotice then [3] else []) ++ (if w.op.isAtomic then [4] else [])

/-- R288, R295 to R297: take a request's reservation from the mirrored balance of its paying group, and its arrival into
account for the charged group. Notices, `CONFIRM` and `CANCEL` reserve nothing. -/
def State.charge (w : WaitReq) (s : State) : State :=
  let q := w.q
  let pay := s.groupOf q.agent q.tint
  let units := s.chargeHere w.op q w.tag
  let s := s.runAs (some w.grp) (some q.agent)
  let s := if w.tag.isNone then s.use 0 (32 * max 1 (w.op.flits q.size)) else s
  if w.op.isNotice || w.op == .confirm || w.op == .cancel then s
  else
    let r : Resv :=
      { port := q.port, txid := q.txid, tag := w.tag, agent := q.agent, part := q.part, pay := pay, charged := w.grp,
        units := units, srcs := s.histSources w }
    let s := { s with reg := { s.reg with resv := s.reg.resv ++ [r] } }
    (units.zipIdx).foldl (fun t (n, i) => t.setBal pay i fun b => { b with mirr := b.mirr - 32 * n }) s

/-- A request that is dropped without a response leaves no reservation. -/
def State.unreserve (q : Req) (tag : Option Nat) (s : State) : State :=
  match s.resvOf q.port q.txid tag with
  | some v => { s with reg := { s.reg with resv := s.reg.resv.erase v } }
  | none => s

/-! ### Refusals -/

/-- Complete a request with a status and nothing else. -/
def State.refuse (q : Req) (tag : Option Nat) (st : Status) (s : State) : State :=
  (s.dropSpec q.line).respond q.port q.txid tag st

/-- R61, R63. -/
def State.misroute (q : Req) (tag : Option Nat) (s : State) : State :=
  let s := (s.count Ev.misroute (some q.part)).log
    { source := 0x004, part := q.part, agent := q.agent, port := logPort q tag, addr := q.addr, detail := bucketOf q.line }
  s.respond q.port q.txid tag .misroute

/-- R97, R266: refuse with `ACCESS_DENIED` and its record. -/
def State.deny (q : Req) (tag : Option Nat) (detail : Nat) (s : State) : State :=
  (s.log { source := 0x005, part := q.part, agent := q.agent, port := logPort q tag, addr := q.addr,
           detail := detail }).refuse q tag .accessDenied

/-- Perform a failed check of R97. -/
def State.fail97 (q : Req) (tag : Option Nat) (st : Status) (detail : Nat) (s : State) : State :=
  if st == .accessDenied then s.deny q tag detail else s.refuse q tag st

/-- R145: a `CONFIRM` or `CANCEL` that names no open entry. -/
def State.noEntry (op : ReqOp) (q : Req) (tag : Option Nat) (s : State) : State :=
  (s.log { source := 0x006, part := q.part, agent := q.agent, port := logPort q tag, addr := q.addr,
           detail := op.code }).respond q.port q.txid tag .aborted

/-- R21: an earlier request of the same agent, port and line waits. -/
def State.behind (s : State) (q : Req) (tag : Option Nat) : Option WaitCause :=
  (s.waiting.find? fun w => w.q.agent == q.agent && w.q.line == q.line &&
    (if tag.isSome then w.tag.isSome else w.tag.isNone && w.q.port == q.port)).map (·.cause)

/-! ### Notices (R170 to R173, R177 to R179, R72) -/

/-- The notice as a transaction or a snoop keeps it. -/
def heldNotice (op : ReqOp) (q : Req) (tag : Option Nat) : NoticeHeld :=
  { op := op, port := q.port, txid := q.txid, tag := tag, lo := (q.flit 0).map fun (f : DatFlit) => (f.data, f.poison),
    hi := (q.flit 1).map fun (f : DatFlit) => (f.data, f.poison) }

/-- R170 case 1: the snoop has been sent and awaits its answer, or its answer has announced the notice (R178, R179). -/
def SnoopRec.awaits (k : SnoopRec) : Bool :=
  k.sent && k.notice.isNone && (k.inflight.isSome || k.ans.isNone)

/-- Install a notice's data, now or when its last flit arrives; every later access to the line waits for it. A line that is present
is hit (R86). -/
def State.noticeData (w : WaitReq) (s : State) : State :=
  State.pumpLine w.q.line (s.putFirst
    { id := s.nextId, kind := .req w.op w.q w.tag, line := w.q.line, part := w.q.part, lens := w.lens, started := true,
      hit := (s.lineOf w.q.line).isSome, grp := w.grp, agent := some w.q.agent })

/-- R171: the entry after a notice from an agent in the role it needs, and the completion. An `EVICT_CLEAN` from the owner of a
`DO` entry poisons the line as R182 states for an owner in `DO`: counted as `RECLAIM_POISON` too (log entry 47). -/
def State.applyNotice (w : WaitReq) (e : DirEnt) (s : State) : State :=
  let q := w.q
  match w.op with
  | .evictClean =>
    if e.owner == some q.agent && !e.excl then
      let s := s.protoErr w.op.code q.line q.agent (logPort q w.tag) q.part
      (((s.putLess (e.remove q.agent)).poisonSoon q.line e.part w.lens).count Ev.reclaimPoison (some e.part)).respond
        q.port q.txid w.tag .done
    else
      let e' := if e.coarse && e.owner != some q.agent then e else e.remove q.agent
      (s.putLess e').respond q.port q.txid w.tag .done
  | .writeclean => ((s.voidProv q.line).putNorm (if e.excl then e else e.demote)).noticeData w
  | _ => ((s.voidProv q.line).putLess (e.remove q.agent)).noticeData w

/-- R72: a notice that matches an entry of a committed crossing list. -/
def State.listedNotice (w : WaitReq) (s : State) : State :=
  let s := { s with hand := { s.hand with listed := s.hand.listed.filter fun (x : Nat × Nat × Nat) =>
    !(x.1 == w.q.line && x.2.1 == w.q.agent) } }
  if w.op == .evictClean then s.respond w.q.port w.q.txid w.tag .done else s.noticeData w

/-- R86: a `WRITEBACK` or `WRITECLEAN` that a snoop takes over hits its line when that is present. -/
def State.noticeHit (w : WaitReq) (s : State) : State :=
  if w.op == .evictClean then s else match s.lineOf w.q.line with | some c => s.touch c | none => s

/-- R170, R176: a notice of a line whose entry is in the eviction buffer, from an agent to which the eviction's snoop has not gone
yet, acts on the entry there. An agent that gives its holding up needs no snoop any more. -/
def State.evictNotice (t : Txn) (e : DirEnt) (w : WaitReq) (s : State) : State :=
  let a := w.q.agent
  let line := w.q.line
  let bad (u : State) : State := u.protoErr w.op.code line a (logPort w.q w.tag) w.q.part
  let given (n : Nat) (h : Option NoticeHeld) (u : State) : State :=
    ((u.noticeHit w).setTxn t.id fun x => { x with snoops := x.snoops.map fun (k : SnoopRec) =>
      if k.agent == a && !k.sent then { k with inflight := some n, notice := h } else k }).pumpLine line
  match w.op with
  | .evictClean =>
    let s := if e.owner == some a && !e.excl
      then ((bad s).poisonSoon line e.part w.lens).count Ev.reclaimPoison (some e.part) else s
    (given 2 none s).respond w.q.port w.q.txid w.tag .done
  | .writeclean =>
    if e.owner != some a then (bad s).respond w.q.port w.q.txid w.tag .aborted
    else (s.setTxn t.id fun x => { x with kind := .evict (if e.excl then e else e.demote) }).noticeData w
  | _ =>
    if e.owner != some a then (bad s).respond w.q.port w.q.txid w.tag .aborted
    else given 0 (some (heldNotice w.op w.q w.tag)) s

/-- The transaction that a notice belongs to (R170, R179): the notice is what its snoop awaits, or an `EVICT_CLEAN` that its
answer has announced. -/
def State.noticeTxn (s : State) (w : WaitReq) : Option (Txn × SnoopRec) :=
  s.txns.findSome? fun t =>
    if t.line != w.q.line then none
    else (t.snoops.find? fun k => k.agent == w.q.agent && k.awaits && (!k.taken || w.op == .evictClean)).map (t, ·)

/-- An eviction whose snoop of the notice's agent has not been sent. -/
def State.noticeEvict (s : State) (w : WaitReq) : Option (Txn × DirEnt) :=
  s.txns.findSome? fun t => match t.kind with
    | .evict e => if t.line == w.q.line && t.snoops.any (fun k => k.agent == w.q.agent && !k.sent && k.inflight.isNone)
        then some (t, e) else none
    | _ => none

/-- R170: a notice at its order point. -/
def State.notice (w : WaitReq) (s : State) : State :=
  let q := w.q
  let line := q.line
  let answer (st : Status) (u : State) : State := u.respond q.port q.txid w.tag st
  if s.hand.listed.any (fun x => x.1 == line && x.2.1 == q.agent) then s.listedNotice w
  else match s.noticeTxn w with
  | some (t, k) =>
    if k.taken then answer .done s
    else
      ((s.noticeHit w).setTxn t.id fun x => { x with snoops := x.snoops.map fun (y : SnoopRec) =>
        if y == k then { y with notice := some (heldNotice w.op q w.tag) } else y }).pumpLine line
  | none =>
    match s.noticeEvict w with
    | some (t, e) => s.evictNotice t e w
    | none =>
      match s.dirAt line with
      | some e =>
        if (if w.op == .evictClean then e.records q.agent else e.owner == some q.agent) then s.applyNotice w e
        else if w.op == .evictClean then answer .done s
        else answer .aborted (s.protoErr w.op.code line q.agent (logPort q w.tag) q.part)
      | none =>
        if w.op == .evictClean then answer .done s
        else answer .aborted (s.protoErr w.op.code line q.agent (logPort q w.tag) q.part)

/-! ### `CONFIRM` and `CANCEL` (R140, R143, R145) -/

/-- R448: a provisional entry is read. -/
def State.provRead (port txid : Nat) (s : State) : State :=
  match s.bad.find? (· == .prov port txid) with
  | some d => s.badEntry d 3 none
  | none => s

/-- The entry a `CONFIRM` or `CANCEL` names by `TXID` and address. -/
def State.named (s : State) (q : Req) (tag : Option Nat) : Option ProvEnt :=
  (s.provOf q.port q.txid tag).bind fun e => if e.line == q.line then some e else none

/-- R143, R407: `CONFIRM`. One whose effect needs a relay entry that is not free waits for it. -/
def State.confirm (w : WaitReq) (s : State) : State :=
  let q := w.q
  match s.named q w.tag with
  | none => s.noEntry .confirm q w.tag
  | some e =>
    if e.st == .pending then s.setProv e.port e.txid e.tag fun x => { x with confirmHeld := true }
    else if s.confirmStuck e then (s.setProv e.port e.txid e.tag fun x => { x with confirmHeld := true }).noteWait .relay e.part
    else s.confirmNow e

/-- R143: `CANCEL`; a `PENDING` read sends no data. -/
def State.cancel (q : Req) (tag : Option Nat) (s : State) : State :=
  match s.named q tag with
  | none => s.noEntry .cancel q tag
  | some e =>
    let s := (s.count Ev.provCancel (some e.part)).closeProv e.port e.txid e.tag
    let mine (t : Txn) : Bool := t.prov && (match t.kind with
      | .req _ p g => p.txid == q.txid && g == tag && (tag.isSome || p.port == q.port)
      | _ => false)
    let s := { s with txns := s.txns.filter fun (t : Txn) => !mine t,
                      waiting := s.waiting.filter fun (w : WaitReq) =>
                        !(w.q.provisional && w.q.txid == q.txid && w.tag == tag && (tag.isSome || w.q.port == q.port)) }
    (s.pumpLine e.line).respond q.port q.txid tag .done

/-! ### Requests that act on a header, a bell or a sum plane -/

/-- R142, R247, R249: a window request takes its order point: its transaction keeps what it finds there, and acts once its
payload is here. `w` is the window whose header it names. A fold behind a `RELEASE` that waits is a contribution to no window
(R256). -/
def State.ctlReq (w : WaitReq) (win : Option Nat) (s : State) : State :=
  let ok := win.bind fun i =>
    let x := s.win i
    if x.arming.isSome || x.st == .idle || w.q.addr != x.hdr || (w.op == .winFold && s.releasing i) then none else some i
  let takes : Bool := match ok with
    | some i => w.op == .winCollect || (s.win i).st == .armed || (s.win i).st == .opened
    | none => false
  let x := (ok.map s.win).getD {}
  let t : Txn := { id := s.nextId, kind := .req w.op w.q w.tag, line := w.q.line, part := w.q.part, lens := none,
                   started := true, win := if takes then ok else none, late := if takes then none else ok, age := w.age,
                   grp := w.grp, agent := some w.q.agent, wgen := x.gen.toNat, wst := x.st,
                   srcs := if w.op == .winFold then s.foldSrcs else [] }
  State.tidy { s with txns := s.txns ++ [t], nextId := s.nextId + 1 }

/-- R242, R243: a read of a header whose window has requests ordered before it that have not acted takes its place behind them, and
keeps the header as it stands. -/
def State.headerRead (w : WaitReq) (i : Nat) (s : State) : State :=
  let s := s.cfgRead (.header i)
  if s.power.state == .recovery then s.refuse w.q w.tag .aborted
  else if !s.headerMoves i s.nextId then s.reservedRead w.q w.tag (s.win i).header
  else
    let t : Txn := { id := s.nextId, kind := .req w.op w.q w.tag, line := w.q.line, part := w.q.part, lens := none,
                     started := true, late := some i, hdrRd := true, snap := (s.win i).snap, age := w.age, grp := w.grp,
                     agent := some w.q.agent }
    { s with txns := s.txns ++ [t], nextId := s.nextId + 1 }

/-- R266, R267: a ring whose payload has not arrived, or that stands behind one of its channel, keeps its order point in a
transaction of its own. -/
def State.awaitRing (w : WaitReq) (s : State) : State :=
  let t : Txn := { id := s.nextId, kind := .req .cueRing w.q w.tag, line := w.q.line, part := w.q.part, lens := none,
                   started := true, age := w.age, grp := w.grp, agent := some w.q.agent }
  { s with txns := s.txns ++ [t], nextId := s.nextId + 1 }

/-- The rings of a bell that wait for a payload, in their order. -/
def State.ringTxns (s : State) (line : Nat) : List Txn :=
  s.txns.filter fun t => t.line == line && (match t.kind with | .req op _ _ => op == .cueRing | _ => false)

/-- A request to a header line (R243, R247, R493). A notice acts there as on any other line: R170 rules every notice, and gives one
that no holder sends the `ABORTED` of R243 or, for `EVICT_CLEAN`, which is not write-type, `DONE` (DESIGN CHOICE, log entry 144). -/
def State.headerReq (w : WaitReq) (i : Nat) (s : State) : State :=
  if w.op.isRead then
    if w.q.provisional then (s.count Ev.provRefused (some w.q.part)).refuse w.q w.tag .aborted
    else s.headerRead w i
  else if w.op.isCtl && w.op != .cueRing then s.ctlReq w (some i)
  else if w.op.isNotice then s.notice w
  else s.refuse w.q w.tag .aborted

/-- R266 checks 3 to 5, R267, R268: a ring at its keeper; its wait for the beat queue counts once. -/
def State.ringReq (w : WaitReq) (s : State) : State :=
  match s.bellOf w.q.line with
  | none => s.refuse w.q w.tag .aborted
  | some c =>
    if w.q.addr % 128 != 0 then s.refuse w.q w.tag .aborted
    else if (s.chan c).cfg.owner != w.q.part then s.deny w.q w.tag (w.lens.getD 0)
    else if !w.rung && (!w.q.dataIn .cueRing || !(s.ringTxns w.q.line).isEmpty) then s.awaitRing w
    else if s.beatsFull then
      let s := if w.rung then s else s.count Ev.ringWait (some w.q.part)
      s.park { w with rung := true } .beatQueue false
    else s.ring w.q w.tag c

/-- R267: the rings of a bell whose payloads are here go on, in their order. -/
def State.ringsGo (line : Nat) : Nat → State → State
  | 0, s => s
  | n + 1, s =>
    match s.ringTxns line with
    | [] => s
    | t :: rest =>
      match t.kind with
      | .req _ q tag =>
        if !q.dataIn .cueRing then s
        else
          let w : WaitReq := { op := .cueRing, q := q, cause := .beatQueue, tag := tag, grp := t.grp, looked := true, age := t.age }
          let mine (u : Txn) : Bool := rest.any (·.id == u.id)
          -- those behind it stand aside, that it does not wait for them
          let s : State := { s with txns := s.txns.filter fun u => u.id != t.id && !mine u }
          State.ringsGo line n (let s := (s.runAs (some t.grp) t.agent).ringReq w; { s with txns := s.txns ++ rest })
      | _ => s

/-- R139: a provisional read at its FCLK 12. -/
def State.provReq (w : WaitReq) (s : State) : State :=
  if 256 ≤ s.prov.length then (s.count Ev.provFull (some w.q.part)).refuse w.q w.tag .aborted
  else if ((s.dirAt w.q.line).bind (·.owner)).isSome || (s.descOf w.lens).reduction then
    (s.count Ev.provRefused (some w.q.part)).refuse w.q w.tag .aborted
  else s.enter w none none

/-- R170, R270: a request to a bell line; a notice acts there as on any other line (log entry 144). -/
def State.bellReq (w : WaitReq) (c : Nat) (s : State) : State :=
  if w.op.isRead && !w.q.provisional then s.reservedRead w.q w.tag (s.bellStatus c)
  else if w.op.isNotice then s.notice w
  else s.refuse w.q w.tag .aborted

/-- A request that has passed the checks of R62 and R97. -/
def State.dispatch (w : WaitReq) (s : State) : State :=
  let op := w.op
  match s.hdrWin w.q.line with
  | some i => s.headerReq w i
  | none =>
    if op == .cueRing then s.ringReq w
    else if op.isCtl then s.ctlReq w none
    else match s.bellOf w.q.line with
    | some c => s.bellReq w c
    | none =>
      if op.isNotice then s.notice w
      else if (op == .rdUnique || op == .upgrade) && (s.descOf w.lens).reduction then s.refuse w.q w.tag .aborted
      else if w.q.provisional then s.provReq w
      else match s.planeWin w.q.line with
        | some i =>
          if op == .atAdd || op == .atCadd || op == .accumulate then
            if (s.win i).st == .armed || (s.win i).st == .opened then s.enter w (some i) none
            else s.enter w none (some i)
          else if op.isWrite then s.refuse w.q w.tag .aborted
          else s.enter w none none
        | none => s.enter w none none

/-! ### Placement (R60 to R64, R71, R73) -/

/-- R478, R484: a request reaches FCLK 12, once. -/
def State.reaches12 (w : WaitReq) (s : State) : State :=
  if w.looked then s
  else (s.count Ev.lookup (some w.q.part)).sign 0x20 0xFFFF0000 (setOf w.q.line * 2 ^ 16) (some w.q.part)

/-- A request at its home slice (R62, R85, R97, R127 to R129, R168, R183, R204). Notices, `CONFIRM` and `CANCEL` never wait. -/
def State.homeReq (w : WaitReq) (s : State) : State :=
  let op := w.op
  let q := w.q
  let prompt := op.isNotice || op == .confirm || op == .cancel
  let s := s.reaches12 w
  let w := { w with looked := true }
  match (if prompt then none else s.behind q w.tag) with
  | some c => s.park w c true
  | none =>
    if s.hand.listed.any (fun x => x.1 == q.line) && !prompt then s.park w .handover false
    else if s.inScratch q.addr then (s.logHdr op q w.tag).refuse q w.tag .aborted
    else
      let s := if prompt then s else s.speculate op q w.lens
      let s := (s.readLookup q.line).reclaimLine q.line
      let s := if op == .confirm || op == .cancel then s.provRead q.port q.txid else s
      if s.power.state != .service then s.refuse q w.tag .aborted
      else
        match s.check97 op q w.lens with
        | some (st, d) => s.fail97 q w.tag st d
        | none =>
          if op == .confirm then s.confirm w
          else if op == .cancel then s.cancel q w.tag
          else s.dispatch w

/-- R408: an earlier relayed request of the same channel has not left: the records of a channel cross in the order in which their
requests were accepted. Notices, `CONFIRM` and `CANCEL` have a channel of their own, on which no other request holds them up (R170). -/
def State.farWaits (s : State) (op : ReqOp) (q : Req) : Bool :=
  s.waiting.any fun w => w.far && (SpanRec.req w.op w.q).chan == (SpanRec.req op q).chan

/-- The request of a relay entry has not left for the twin. -/
def State.unsent (s : State) (tag : Nat) : Bool :=
  s.waiting.any (·.rtag == some tag) || s.span.waitTx.any fun w => match w.item with
    | .req op q => q.txid == tag && (SpanRec.req op q).chan == 0
    | _ => false

/-- R408: the relayed read that a `CONFIRM` or `CANCEL` names has not left: what follows it on a channel of its own waits for it. -/
def State.readUnsent (s : State) (op : ReqOp) (q : Req) : Bool :=
  (op == .confirm || op == .cancel) && ((s.relayOf q.port q.txid).map fun r => s.unsent r.tag).getD false

/-- R407: a relayed request takes its relay entry, where one is free. -/
def State.takeRelay (w : WaitReq) (s : State) : WaitReq × State :=
  let w := { w with far := true }
  if w.rtag.isSome then (w, s)
  else match s.relayTag with
    | none => (w, s)
    | some k =>
      ({ w with rtag := some k },
       s.addRelay { tag := k, agent := w.q.agent, port := w.q.port, txid := w.q.txid, op := w.op, line := w.q.line,
                    part := w.q.part, addr := w.q.addr, grp := w.grp, age := w.age })

/-- R143, R408: a `CONFIRM` or `CANCEL` of a provisional read of the twin travels with its relay tag, behind the requests accepted
before it. A `CANCEL` of a read that has not left ends it here. -/
def State.relayNamed (w : WaitReq) (s : State) : State :=
  let q := w.q
  match (s.relayOf q.port q.txid).filter (·.line == q.line) with
  | none => s.noEntry w.op q none
  | some r =>
    let other (x : SpanWait) : Bool := match x.item with
      | .req op p => p.txid != r.tag || (SpanRec.req op p).chan != 0
      | _ => true
    if s.unsent r.tag && w.op == .cancel then
      (State.dropRelay r.tag { s with waiting := s.waiting.filter fun x => x.rtag != some r.tag,
                                      span := { s.span with waitTx := s.span.waitTx.filter other } }).respond q.port q.txid none .done
    else if s.farWaits w.op q || s.unsent r.tag then s.park { w with far := true } .span false
    else s.spanSend (.req w.op { q with txid := r.tag })

/-- R64, R407, R408: forward a request to the mirror twin: it takes a relay entry, and leaves once its data are here and every
relayed request accepted before it has left. -/
def State.relayReq (w : WaitReq) (s : State) : State :=
  let op := w.op
  let q := w.q
  if op == .confirm || op == .cancel then s.relayNamed w
  else
    let (w, s) := s.takeRelay w
    match w.rtag with
    | none => s.park w .relay false
    | some k =>
      if s.farWaits op q || !q.dataIn op || (!op.isNotice && (s.behind q none).isSome) then s.park w .span false
      else s.spanSend (.req op { q with txid := k })

/-- R270, R410, R412: a read of a mirrored lens at the entry slice; a `RD_SHARED` takes a relay entry for its holder record. -/
def State.replicaReq (w : WaitReq) (s : State) : State :=
  let op := w.op
  let q := w.q
  let s := s.readLookup q.line
  if s.power.state != .service then s.respond q.port q.txid none .aborted
  else match s.check97 op q w.lens with
  | some (st, d) => s.fail97 q none st d
  | none =>
    match s.bellOf q.line with
    | some c => s.bellReq w c
    | none =>
      if q.provisional then s.provReq w
      else if op == .rdOnce || s.span.st == .down then s.enter w none none
      else match s.blocked w with
        | some c => s.park w c false
        | none =>
          match s.relayTag with
          | none => s.park w .relay false
          | some k =>
            (s.addRelay { tag := k, agent := q.agent, port := q.port, txid := q.txid, op := op, line := q.line, part := q.part,
                          lens := w.lens, replica := true, addr := q.addr, grp := w.grp, age := w.age }).take12 w none none

/-- A request at its entry slice whose home is the mirror twin (R60, R407, R410). -/
def State.entryReq (w : WaitReq) (s : State) : State :=
  let op := w.op
  let q := w.q
  let s := if op == .confirm || op == .cancel then s.provRead q.port q.txid else s
  let local? := (s.provOf q.port q.txid none).isSome
  if w.far then s.relayReq w
  else if (op == .confirm || op == .cancel) && local? then
    match s.check97 op q w.lens with
    | some (st, d) => s.fail97 q none st d
    | none => if op == .confirm then s.confirm w else s.cancel q none
  else if op.isNotice || op == .confirm || op == .cancel || !(s.descOf w.lens).mirror then s.relayReq w
  else match s.behind q none with
    | some c => s.park w c true
    | none =>
      if op.isWrite then
        match s.check97 op q w.lens with
        | some (st, d) => s.fail97 q none st d
        | none => s.relayReq w
      else if s.replicaRead op w.lens then
        (s.reaches12 w).replicaReq { w with looked := true }
      else s.relayReq w

/-- R73: hold a request of an `INCOMING` bucket; one that finds the queue full, or others waiting for it, waits its turn. -/
def State.holdReq (w : WaitReq) (s : State) : State :=
  if s.hand.hold.length < 256 &&
      !(s.waiting.any fun x => x.cause == .handover && s.bucketSt (bucketOf x.q.line) == .incoming) then
    { s with hand := { s.hand with hold := s.hand.hold ++ [{ w with cause := .handover }] } }
  else s.park w .handover false

/-- A request that was to be relayed and meets another state of its bucket gives its relay entry back. -/
def State.notFar (w : WaitReq) (s : State) : WaitReq × State :=
  ({ w with far := false, rtag := none }, match w.rtag with | some k => s.dropRelay k | none => s)

/-- R447: what a request's lookup reads of the configuration: the entries of its bucket, its agent and its partition, `TINT_SEL`, and
the lens slot that its match gave it. -/
def State.lookupCfg (w : WaitReq) (s : State) : State :=
  let q := w.q
  let s := (((s.cfgRead (.map (bucketOf q.line))).cfgRead (.route q.agent)).cfgRead (.part q.part)).cfgRead .tint
  match w.lens with
  | some i => s.cfgRead (.lens i)
  | none => s

/-- A request at its lookup (R60 to R62, R71, R180). `again` says that it was accepted and has waited. At a bucket that leaves for
the twin, a `CONFIRM` or `CANCEL` of an entry of this slice acts here, and what was accepted for the twin still goes there. -/
def State.lookup (w : WaitReq) (again : Bool) (s : State) : State :=
  let q := w.q
  let s := (s.runAs (some w.grp) (some q.agent)).lookupCfg w
  if s.power.state == .recovery then s.respond q.port q.txid w.tag .aborted
  else
  let st := s.bucketSt (bucketOf q.line)
  let (w, s) := if st == .relay || st == .outgoing then (w, s) else s.notFar w
  if s.isDown q.agent then (s.unreserve q w.tag).count Ev.downDrop (some q.part)
  else if w.tag.isNone && !again && s.badHeader w.op q then (s.logHdr w.op q w.tag).respond q.port q.txid w.tag .aborted
  else match st with
    | .home => s.homeReq w
    | .relay => if w.tag.isSome then s.misroute q w.tag else s.entryReq w
    | .none => s.misroute q w.tag
    | .incoming => s.holdReq w
    | .outgoing =>
      if (again && !w.far) || ((w.op == .confirm || w.op == .cancel) && (s.named q w.tag).isSome) then s.homeReq w
      else
        let peer := (s.hand.buckets.find? (fun h => h.bucket == bucketOf q.line && !h.relayOnly)).map (·.peer)
        if w.tag.isNone && peer == s.twin && s.twin.isSome then s.relayReq w
        else
          let (w, s) := s.notFar w
          s.misroute q w.tag

/-- R136, R169, R176, R268, R407, R408: what the request waits for is free again. -/
def State.freed (w : WaitReq) (s : State) : Bool :=
  match w.cause with
  | .missReg => s.regsUsed < 512 && s.lineWaiters w.q.line < 32
  | .waiterPool => s.poolUsed < 8192
  | .tracker => s.trackers < 512
  | .busyLine => !s.busy w.q.line && ((s.dirAt w.q.line).isSome || s.dirPlace (setOf w.q.line) != .full)
  | .evictBuf => s.evictions < 16
  | .wbBuf => !s.installing w.q.line
  | .beatQueue => !s.beatsFull
  | .relay => s.relayTag.isSome
  | .span => w.q.dataIn w.op && !s.farWaits w.op w.q && !s.readUnsent w.op w.q && (!w.far || w.op.isNotice || (s.behind w.q none).isNone)
  | .handover =>
    if s.bucketSt (bucketOf w.q.line) == .incoming then s.hand.hold.length < 256
    else w.op.isNotice || !(s.hand.listed.any (fun x => x.1 == w.q.line))
  | .spill => true

/-- R448: a waiting request's entry is read. -/
def State.waitRead (w : WaitReq) (s : State) : State :=
  match s.bad.find? (· == .wait w.q.port w.q.txid) with
  | some d => s.badEntry d 1 none
  | none => s

/-- R136: the waiting requests whose resource is free restart their lookups, in order of age. -/
def State.restart (s : State) : State :=
  s.waiting.foldl (fun t w =>
    let t := t.waitRead w
    if t.power.state == .recovery then t.respond w.q.port w.q.txid w.tag .aborted
    else if !t.freed w then { t with waiting := t.waiting ++ [w] }
    else (if w.far then t else t.measure 12 (some w.q.part)).lookup w true) { s with waiting := [] }

/-! ### Requests outside `SERVICE` (R23, R459) -/

/-- R16, R23: a flit on a credit from before `CONFIG` or `TEST`. -/
def State.staleReq (op : ReqOp) (q : Req) (s : State) : State :=
  let s := { s with fab := s.fab.modify q.port fun c =>
    { c with keptReq := c.keptReq + 1, keptDat := c.keptDat + q.dat.length } }
  if s.badHeader op q then (s.logHdr op q none).respond q.port q.txid none .aborted
  else match op with
  | .evictClean => s.respond q.port q.txid none .done
  | .writeback | .writeclean => (s.protoErr op.code q.line q.agent q.port q.part).respond q.port q.txid none .aborted
  | .confirm | .cancel => s.noEntry op q none
  | _ => (s.logHdr op q none).respond q.port q.txid none .aborted

/-- R459: write a notice's data to memory. -/
def State.writeThrough (q : Req) (tag : Option Nat) (s : State) : State :=
  let put (i : Nat) (t : State) : State :=
    let (d, p) := q.dataAt i
    t.writeUc (q.line * 128 + i * 64) 6 q.part d p .plain
  (put 1 (put 0 s)).respond q.port q.txid tag .done

/-- R16, R459: a request that arrives in `RECOVERY`; the checks of R16 were the entry slice's for one that came over `SPAN`. -/
def State.recoveryReq (op : ReqOp) (q : Req) (tag : Option Nat) (s : State) : State :=
  if tag.isNone && s.badHeader op q then (s.logHdr op q tag).respond q.port q.txid tag .aborted
  else match op with
  | .writeback | .writeclean =>
    if q.dataIn op then s.writeThrough q tag
    else { s with waiting := s.waiting ++ [{ op := op, q := q, cause := .span, tag := tag }] }
  | .evictClean | .cancel => s.respond q.port q.txid tag .done
  | _ => s.respond q.port q.txid tag .aborted

/-- R359: while the slice drains for `CONFIG` it returns no `REQ` credit, of a request that comes meanwhile or of one that waited when
the drain began (`State.cfgDrainBegin`). -/
def State.keepCredit (port : Nat) (s : State) : State :=
  if s.power.cfgDrain then { s with fab := s.fab.modify port fun c => { c with keptReq := c.keptReq + 1 } } else s

/-- R19: the `DAT` in flits that have arrived with a request are checked, and those beyond correction discarded. -/
def State.checkDat (port : Nat) (fl : List DatFlit) (s : State) : List DatFlit × State :=
  fl.foldl (fun (x : List DatFlit × State) f =>
    let (ok, t) := x.2.flitCheck f.flips port 1
    (if ok then x.1 ++ [f] else x.1, t)) ([], s)

/-- R431, R484: a `REQ` flit arrives, with the `DAT` in flits that come with it. -/
def State.reqSeen (op : ReqOp) (q : Req) (s : State) : State :=
  let n := q.dat.length
  (State.act 8 n (s.act 7 1)).sign (1 + q.port) (0xFFFFF001 + (if n == 0 then 0 else 2))
    (1 + (if n == 0 then 0 else 2) + q.txid % 2 ^ 12 * 2 ^ 12 + op.code % 2 ^ 8 * 2 ^ 24) (some q.part)

/-- The partition of the request of this agent port and `TXID`. -/
def State.partOfReq (s : State) (port txid : Nat) : Option Nat := (s.resvOf port txid none).map (·.part)

/-- A `REQ` flit arrives on a fabric port. -/
def State.reqFlit (i : Instr) (op : ReqOp) (q : Req) (s : State) : State :=
  match s.gate with
  | .drop => s
  | .hold => (s.keepFor i).wakeUp
  | _ =>
    let (ok, s) := (s.reqSeen op q).flitCheck q.flips q.port 0
    let (fl, s) := s.checkDat q.port q.dat
    let q := { q with dat := fl }
    if !ok then s
    else match s.gate with
      | .refuse => s.staleReq op q
      | .recover => s.recoveryReq op q none
      | _ =>
        let w := s.accepted op q none
        (((s.wakeUp.notIdle.keepCredit q.port).charge w).lookup w false).tidy

/-! ### Request data (R26, R142, R202) -/

/-- The request still wants a flit on this port and `TXID`. -/
def wantsFlit (op : ReqOp) (q : Req) (tag : Option Nat) (port txid : Nat) : Bool :=
  tag.isNone && q.port == port && q.txid == txid && !q.dataIn op

/-- Add a flit to a request. -/
def addFlit (q : Req) (f : DatFlit) : Req := { q with dat := q.dat ++ [f] }

/-- A notice that a transaction holds takes a flit. -/
def NoticeHeld.addFlit (n : NoticeHeld) (f : DatFlit) : NoticeHeld :=
  if f.sector == 0 then { n with lo := n.lo <|> some (f.data, f.poison) } else { n with hi := n.hi <|> some (f.data, f.poison) }

/-- The notice still wants a flit on this port and `TXID`. -/
def NoticeHeld.wants (n : NoticeHeld) (port txid : Nat) : Bool :=
  n.tag.isNone && n.port == port && n.txid == txid && n.op != .evictClean && !both n.lo n.hi

/-- R295: the `F` bit of an atomic is known with its payload. -/
def State.chargeFetch (op : ReqOp) (q : Req) (s : State) : State :=
  match s.resvOf q.port q.txid none with
  | some v =>
    if op.isAt && (atOperand op q.payload).fetch && v.units.getD 1 0 == 0 then
      let s := { s with reg := { s.reg with resv := s.reg.resv.map fun (r : Resv) =>
        if r == v then { r with units := r.units.set 1 1 } else r } }
      s.setBal v.pay 1 fun b => { b with mirr := b.mirr - 32 }
    else s
  | none => s

/-- Give a flit of request data to whoever waits for it; one that belongs to nothing is discarded. -/
def State.takeFlit (port txid : Nat) (f : DatFlit) (s : State) : State :=
  match s.txns.find? (fun t => match t.kind with | .req op q tag => wantsFlit op q tag port txid | _ => false) with
  | some t =>
    (match t.kind with
     | .req op q tag =>
       if s.isDown q.agent then s
       else
         let q' := addFlit q f
         let s := s.setTxn t.id fun x => { x with kind := .req op q' tag }
         let s := s.runAs (some t.grp) t.agent
         if !q'.dataIn op || (op.isCtl && op != .cueRing) then s
         else if op == .cueRing then s.ringsGo t.line (s.ringTxns t.line).length
         else (s.chargeFetch op q').pumpLine t.line
     | _ => s)
  | none =>
    match s.txns.find? (fun t => t.snoops.any fun k => (k.notice.map (·.wants port txid)).getD false && !s.isDown k.agent) with
    | some t =>
      let s := s.setTxn t.id fun x => { x with snoops := x.snoops.map fun (k : SnoopRec) =>
        if (k.notice.map (·.wants port txid)).getD false then { k with notice := k.notice.map (·.addFlit f) } else k }
      s.pumpLine t.line
    | none =>
      let mine (w : WaitReq) : Bool := wantsFlit w.op w.q w.tag port txid && !s.isDown w.q.agent
      let add (w : WaitReq) : WaitReq := if mine w then { w with q := addFlit w.q f } else w
      let got := (s.waiting ++ s.hand.hold).filter mine
      let s := { s with waiting := s.waiting.map add, hand := { s.hand with hold := s.hand.hold.map add } }
      let s := got.foldl (fun u w => let w := add w; if w.q.dataIn w.op then u.chargeFetch w.op w.q else u) s
      if s.waiting.any (fun w => w.q.port == port && w.q.txid == txid && w.cause == .span && w.q.dataIn w.op) then s.restart
      else s

/-- R459: the data of a notice that arrive in `RECOVERY`. -/
def State.recoveryFlit (port txid : Nat) (f : DatFlit) (s : State) : State :=
  match s.waiting.find? (fun w => wantsFlit w.op w.q w.tag port txid) with
  | none => s
  | some w =>
    let w' := { w with q := addFlit w.q f }
    if w'.q.dataIn w.op then State.writeThrough w'.q w.tag { s with waiting := s.waiting.erase w }
    else { s with waiting := s.waiting.map fun (x : WaitReq) => if x == w then w' else x }

/-- A `DAT` in flit of request data arrives on a fabric port. -/
def State.datFlit (i : Instr) (port txid : Nat) (f : DatFlit) (s : State) : State :=
  match s.gate with
  | .drop => s
  | .hold => s.keepFor i
  | g =>
    let (ok, s) := ((s.act 8 1).sign (1 + port) 0x2 0x2 (s.partOfReq port txid)).flitCheck f.flips port 1
    if !ok then s
    else match g with
      | .refuse => { s with fab := s.fab.modify port fun c => { c with keptDat := c.keptDat + 1 } }
      | .recover => s.recoveryFlit port txid f
      | _ => (s.takeFlit port txid f).tidy

/-! ### `COMP_ACK` (R159, R169, R408) -/

/-- R169, R448: the grant of a transaction is acknowledged; its home tracker is read. -/
def State.ackTaken (port id tagged : Nat) (s : State) : State :=
  match s.txns.find? (fun t => t.ack == some (port, id, tagged)) with
  | some t => ((s.entryRead (.txn t.id) 2 t.id).dropTxn t.id).pumpLine t.line
  | none => s

/-- A `COMP_ACK` from an agent: of a grant made here, or of a relayed one, for its request's group (R296). -/
def State.compAck (r : Snr) (s : State) : State :=
  match s.txns.find? (fun t => t.ack == some (r.port, r.id, 0)) with
  | some _ => s.ackTaken r.port r.id 0
  | none =>
    match s.span.relays.find? (fun x => x.port == r.port && x.txid == r.id && x.ackWait) with
    | some x =>
      let s := (s.entryRead (.relay x.tag) 4 x.tag).runAs (some x.grp) (some x.agent)
      if s.isDown x.agent || s.power.state == .recovery then s else (s.spanSend (.snr 4 x.tag 0 false [])).dropRelay x.tag
    | none => s

/-- The snoop on a port that its agent still owes an answer or data under an ID. -/
def SnoopRec.on (k : SnoopRec) (port id : Nat) : Bool := k.owed && k.port == port && k.id == id

/-- The partition of what an `SNR` flit answers: a request, or the transaction that sent the snoop. -/
def State.snrPart (s : State) (r : Snr) : Option Nat :=
  if r.code == 4 then s.partOfReq r.port r.id else (s.txns.find? fun t => t.snoops.any (·.on r.port r.id)).map (·.part)

/-- An `SNR` flit arrives on a fabric port; `act` takes it in `SERVICE`, and every other state but sleep discards it
(R23, R27, R459). -/
def State.snrFlit (i : Instr) (r : Snr) (act : State → State) (s : State) : State :=
  match s.gate with
  | .drop => s
  | .hold => s.keepFor i
  | g =>
    let (ok, s) := ((s.act 11 1).sign (1 + r.port) 0x20 0x20 (s.snrPart r)).flitCheck r.flips r.port 2
    if !ok then s else if g == .serve then (act s).tidy else s

/-! ### Deadlines and the watchdog (R143, R455 to R458) -/

/-- The entry of a provisional read whose deadline can pass. -/
def State.provDue (s : State) (port txid : Nat) : Option ProvEnt :=
  s.prov.find? fun e => e.port == port && e.txid == txid && e.st != .pending

/-- R143, R448: the deadline passes. -/
def State.provExpire (e : ProvEnt) (s : State) : State :=
  let s := (s.runAs (some e.grp) (some e.agent)).provRead e.port e.txid
  if s.power.state == .recovery then s
  else ((s.count Ev.provTimeout (some e.part)).closeProv e.port e.txid e.tag).respond e.port e.txid e.tag .timeout

/-- R455: what holds a line: a grant's acknowledgement, a snoop answer, a read of memory, or no one thing. -/
def State.lineCause (s : State) (line : Nat) : Nat × Nat :=
  let here := s.txns.filter fun t => t.line == line
  match here.find? (fun t => t.ack.isSome) with
  | some t => (5, match t.kind with | .req _ q _ => q.agent | _ => 0)
  | none =>
    match here.findSome? (fun t => t.snoops.find? fun k => !k.done) with
    | some k => (2, k.agent)
    | none => if s.mrs.any (·.line == line) || here.any s.ownRead then (3, 0) else if s.busy line then (1, 0) else (7, 0)

/-- R455: the cause of a wait. -/
def State.waitCause (s : State) (c : WaitCause) (line : Nat) : Nat × Nat :=
  match c with
  | .missReg | .waiterPool | .tracker | .evictBuf | .relay => (0, 0)
  | .busyLine => let x := s.lineCause line; if x.1 == 3 || x.1 == 7 then (1, 0) else x
  | .wbBuf => (3, 0)
  | .span => (4, 0)
  | .handover => (6, 0)
  | _ => (7, 0)

/-- R455: complete a request with `TIMEOUT` and its record. -/
def State.timeout (op : ReqOp) (port txid agent part addr : Nat) (tag : Option Nat) (c : Nat × Nat) (s : State) : State :=
  (s.log { source := 0x017, part := part, agent := agent, port := if tag.isSome then 12 else port, addr := addr,
           detail := op.code % 256 + txid * 2 ^ 8 + c.1 * 2 ^ 20 + c.2 * 2 ^ 24 }).respond port txid tag .timeout

/-- R458: requests the watchdog covers. -/
def watched (op : ReqOp) : Bool := !(op.isNotice || op == .confirm || op == .cancel)

/-- What the watchdog finds under a port and `TXID`. -/
inductive Overdue where
  | waits (w : WaitReq)
  | held (w : WaitReq)
  | txn (t : Txn) (op : ReqOp) (q : Req) (tag : Option Nat)
  | relay (r : Relay)
  | collect (w : Nat) (c : ColArgs)
  | collecting (w : Nat) (c : ColArgs)
  | fold (f : FoldRun)
deriving DecidableEq, Repr

/-- R455, R458: a request whose effect has not been applied, `FWD_WD` ACLK after its acceptance. A provisional read that is `OPEN` at
the twin has its deadline there. -/
def State.overdue (s : State) (port txid : Nat) : Option Overdue :=
  let late (age : Nat) : Bool := s.regs.fwdWd ≤ age
  let hit (w : WaitReq) : Bool := watched w.op && w.q.port == port && w.q.txid == txid && late w.age
  match s.waiting.find? hit with
  | some w => some (.waits w)
  | none =>
  match s.hand.hold.find? hit with
  | some w => some (.held w)
  | none =>
  match s.txns.findSome? (fun t => match t.kind with
      | .req op q tag => if watched op && q.port == port && q.txid == txid && !t.served && !t.timedOut && !t.prov && late t.age
          then some (Overdue.txn t op q tag) else none
      | _ => none) with
  | some o => some o
  | none =>
  match s.span.relays.find? (fun r => r.port == port && r.txid == txid && watched r.op && !r.timedOut && !r.ackWait && !r.opened && late r.age) with
  | some r => some (.relay r)
  | none =>
  match s.folds.find? (fun f => f.port == port && f.txid == txid && !f.timedOut && late f.age) with
  | some f => some (.fold f)
  | none =>
  match (s.wins.zipIdx).findSome? fun (x, w) => x.col.bind fun c => c.req.bind fun (p, i, _) =>
      if p == port && i == txid && late c.age then some (Overdue.collecting w c) else none with
  | some o => some o
  | none =>
  (s.wins.zipIdx).findSome? fun (x, w) => x.after.findSome? fun o => match o with
    | .collect c => (match c.req with
      | some (p, i, _) => if p == port && i == txid && late c.age then some (Overdue.collect w c) else none
      | none => none)
    | _ => none

/-- R331, R455 to R457: the watchdog fires; the entry that it finds is read (R448). Hot pages count a request that has passed its order
point. A fold that has folded no line yet has no effect; one that has, and a collect whose walk has begun, are work that goes on without
the request (DESIGN CHOICE, log entry 147). -/
def State.wdExpire (o : Overdue) (s : State) : State :=
  let alive (u : State) (f : State → State) : State := if u.power.state == .recovery then u else f u
  match o with
  | .waits w =>
    alive (s.waitRead w) fun s =>
      let (w', s) := s.notFar w
      State.timeout w.op w.q.port w.q.txid w.q.agent w.q.part w.q.addr w.tag (s.waitCause w.cause w'.q.line)
        (State.asRequest w.q.port w.q.txid w.tag { s with waiting := s.waiting.erase w })
  | .held w =>
    alive (s.waitRead w) fun s =>
      State.timeout w.op w.q.port w.q.txid w.q.agent w.q.part w.q.addr w.tag (6, 0)
        (State.asRequest w.q.port w.q.txid w.tag { s with hand := { s.hand with hold := s.hand.hold.erase w } })
  | .txn t op q tag =>
    alive (s.entryRead (.txn t.id) (if t.busy || t.trk then 2 else 1) t.id) fun s =>
      let s := (s.runAs (some t.grp) t.agent).timeout op q.port q.txid q.agent q.part q.addr tag (s.lineCause t.line)
      let s := s.hotCount t.line t.memRead
      if t.isCtl then (let s := s.dropTxn t.id; s.ringsGo t.line (s.ringTxns t.line).length)
      else (s.setTxn t.id fun x => { x with timedOut := true, opAsked := false }).pumpLine t.line
  | .relay r =>
    alive (s.entryRead (.relay r.tag) 4 r.tag) fun s =>
      let s := (s.runAs (some r.grp) (some r.agent)).timeout r.op r.port r.txid r.agent r.part r.addr none (4, 0)
      { s with span := { s.span with relays := s.span.relays.map fun (x : Relay) =>
          if x.tag == r.tag then { x with timedOut := true } else x } }
  | .collect w c =>
    let (p, i, tag) := c.req.getD (0, 0, none)
    let x := s.win w
    State.timeout .winCollect p i c.agent x.part x.hdr tag (7, 0)
      ((s.runAs c.grp (some c.agent)).setWin w fun y => { y with after := y.after.erase (.collect c) })
  | .collecting w c =>
    let (p, i, tag) := c.req.getD (0, 0, none)
    let x := s.win w
    State.timeout .winCollect p i c.agent x.part x.hdr tag (7, 0)
      ((s.runAs c.grp (some c.agent)).setWin w fun y => { y with col := y.col.map fun z => { z with req := none } })
  | .fold f =>
    let x := s.win f.dst
    let s := (s.asRequest f.port f.txid f.tag).timeout .winFold f.port f.txid f.agent x.part x.hdr f.tag (7, 0)
    { s with folds := if f.pos == 0 then s.folds.erase f
        else s.folds.map fun (g : FoldRun) => if g == f then { g with timedOut := true } else g }

/-! ### Append spills (R108) -/

/-- The append that waits for its spill; one that has timed out has no effect any more (R456). -/
def State.spilling (s : State) (port txid : Nat) : Option (Txn × Req × Option Nat) :=
  s.txns.findSome? fun t => match t.kind with
    | .req .append q tag => if t.opAsked && !t.timedOut && q.port == port && q.txid == txid then some (t, q, tag) else none
    | _ => none

/-- R108, R289: the spill, an operation of the slice's own, goes on; once it has ended, the append is served. It stops while a
victim or the append's own data wait for the write-back buffer, or its group's balance covers no further line. -/
def State.spillEnd (t : Txn) (q : Req) (tag : Option Nat) (s : State) : State :=
  let i := t.lens.getD 0
  let b := (s.descOf t.lens).blockOf q.addr
  let (ok, s) := (s.runAs (some (s.selfGroup (s.descOf t.lens).part))).spill i b (b + 1)
  let s := s.runAs (some t.grp) t.agent
  if !ok || s.noBuffer t .append q then s
  else
    let (st, s) := s.serveAppend t q true
    ((s.endWith t .append q tag (st.getD .done) []).pumpLine t.line).tidy

/-! ### The commands -/

/-- A request row of the fabric. -/
def fabricRow (i : Instr) (op : ReqOp) (q : Req) (s : State) : Res := finish (s.fresh0.reqFlit i op q)

/-- `RD_SHARED` (R171). -/
def execRdShared (q : Req) (s : State) : Res := fabricRow (.rdShared q) .rdShared q s
/-- `RD_ONCE` (R171). -/
def execRdOnce (q : Req) (s : State) : Res := fabricRow (.rdOnce q) .rdOnce q s
/-- `RD_UNIQUE` (R171). -/
def execRdUnique (q : Req) (s : State) : Res := fabricRow (.rdUnique q) .rdUnique q s
/-- `UPGRADE` (R171). -/
def execUpgrade (q : Req) (s : State) : Res := fabricRow (.upgrade q) .upgrade q s
/-- `WR_FULL` (R171). -/
def execWrFull (q : Req) (s : State) : Res := fabricRow (.wrFull q) .wrFull q s
/-- `WR_PARTIAL` (R171). -/
def execWrPartial (q : Req) (s : State) : Res := fabricRow (.wrPartial q) .wrPartial q s
/-- `ZERO_LINE` (R91). -/
def execZeroLine (q : Req) (s : State) : Res := fabricRow (.zeroLine q) .zeroLine q s
/-- `APPEND` (R107). -/
def execAppend (q : Req) (s : State) : Res := fabricRow (.append q) .append q s
/-- `WRITEBACK` (R170). -/
def execWriteback (q : Req) (s : State) : Res := fabricRow (.writeback q) .writeback q s
/-- `WRITECLEAN` (R170). -/
def execWriteclean (q : Req) (s : State) : Res := fabricRow (.writeclean q) .writeclean q s
/-- `EVICT_CLEAN` (R170). -/
def execEvictClean (q : Req) (s : State) : Res := fabricRow (.evictClean q) .evictClean q s
/-- A read with `PROVISIONAL` set (R139). -/
def execProvisionalRead (once : Bool) (q : Req) (s : State) : Res :=
  fabricRow (.provisionalRead once q) (if once then .rdOnce else .rdShared) { q with provisional := true } s
/-- `CONFIRM` (R143). -/
def execConfirm (q : Req) (s : State) : Res := fabricRow (.confirm q) .confirm q s
/-- `CANCEL` (R143). -/
def execCancel (q : Req) (s : State) : Res := fabricRow (.cancel q) .cancel q s
/-- A request with an opcode that nothing assigns (R156). -/
def execReservedOpcodeRequest (opc : Nat) (q : Req) (s : State) : Res :=
  fabricRow (.reservedOpcodeRequest opc q) (ReqOp.ofCode opc) q s
/-- `AT_ADD` (R219). -/
def execAtAdd (q : Req) (s : State) : Res := fabricRow (.atAdd q) .atAdd q s
/-- `AT_CADD` (R219). -/
def execAtCadd (q : Req) (s : State) : Res := fabricRow (.atCadd q) .atCadd q s
/-- `AT_MIN` (R219). -/
def execAtMin (q : Req) (s : State) : Res := fabricRow (.atMin q) .atMin q s
/-- `AT_MAX` (R219). -/
def execAtMax (q : Req) (s : State) : Res := fabricRow (.atMax q) .atMax q s
/-- `AT_AND` (R219). -/
def execAtAnd (q : Req) (s : State) : Res := fabricRow (.atAnd q) .atAnd q s
/-- `AT_OR` (R219). -/
def execAtOr (q : Req) (s : State) : Res := fabricRow (.atOr q) .atOr q s
/-- `AT_XOR` (R219). -/
def execAtXor (q : Req) (s : State) : Res := fabricRow (.atXor q) .atXor q s
/-- `AT_SWAP` (R219). -/
def execAtSwap (q : Req) (s : State) : Res := fabricRow (.atSwap q) .atSwap q s
/-- `AT_CAS64` (R219). -/
def execAtCas64 (q : Req) (s : State) : Res := fabricRow (.atCas64 q) .atCas64 q s
/-- `AT_CAS128` (R219). -/
def execAtCas128 (q : Req) (s : State) : Res := fabricRow (.atCas128 q) .atCas128 q s
/-- `ACCUMULATE` (R223). -/
def execAccumulate (q : Req) (s : State) : Res := fabricRow (.accumulate q) .accumulate q s
/-- `RD_FUSED` (R228). -/
def execRdFused (q : Req) (s : State) : Res := fabricRow (.rdFused q) .rdFused q s
/-- `WIN_ARRIVE` (R249). -/
def execWinArrive (q : Req) (s : State) : Res := fabricRow (.winArrive q) .winArrive q s
/-- `WIN_FOLD` (R255). -/
def execWinFold (q : Req) (s : State) : Res := fabricRow (.winFold q) .winFold q s
/-- `WIN_COLLECT` (R253). -/
def execWinCollect (q : Req) (s : State) : Res := fabricRow (.winCollect q) .winCollect q s
/-- `CUE_RING` (R267). -/
def execCueRing (q : Req) (s : State) : Res := fabricRow (.cueRing q) .cueRing q s

/-- A `DAT` in flit of request data (R202). -/
def execDatInData (port txid : Nat) (f : DatFlit) (s : State) : Res :=
  finish (s.fresh0.datFlit (.datInData port txid f) port txid f)

/-- `COMP_ACK` (R159). -/
def execCompAck (r : Snr) (s : State) : Res := finish (s.fresh0.snrFlit (.compAck r) r (State.compAck r))

/-- R143: the deadline of a provisional entry passes. -/
def execProvDeadline (port txid : Nat) (s : State) : Res :=
  match s.provDue port txid with
  | some e => if s.gate == .serve then finish (s.fresh0.provExpire e).tidy else s.notDue
  | none => s.notDue

/-- R455: the watchdog fires for a request. -/
def execWatchdogTimeout (port txid : Nat) (s : State) : Res :=
  match s.overdue port txid with
  | some o => if s.gate == .serve then finish (s.fresh0.wdExpire o).tidy else s.notDue
  | none => s.notDue

/-- R108: a spill ends. -/
def execAppendSpillComplete (port txid : Nat) (s : State) : Res :=
  match s.spilling port txid with
  | some (t, q, tag) => if s.fclkRuns then finish (s.fresh0.spillEnd t q tag) else s.notDue
  | none => s.notDue

/-- R24: the hub returns credits, and held flits leave, in a relock or at rest once FCLK runs again (R417, R424). -/
def execFabCreditReturn (port snp rsp dat : Nat) (s : State) : Res :=
  let s := s.fresh0
  let s := { s with fab := s.fab.modify port fun c => { c with oSnp := c.oSnp + snp, oRsp := c.oRsp + rsp, oDat := c.oDat + dat } }
  let s := if s.fclkRuns then s.flush else s
  finish (if s.gate == .serve then s.tidy else s)

end Sys2Proof.Machine
end

