-- ==== Sys2Proof/Machine/Snoop.lean ====
section
/-! DEFINITION. Answers to snoops, notices that cross them, and dead agents (R160 to R164, R176 to R184, R409). -/

namespace Sys2Proof.Machine

open Sys2Proof

/-- The transaction with that snoop. -/
def State.snoopTxn (s : State) (port id : Nat) : Option Txn := s.txns.find? fun t => t.snoops.any (·.on port id)

/-- Update the snoop under an ID. -/
def State.setSnoop (tid port id : Nat) (f : SnoopRec → SnoopRec) (s : State) : State :=
  s.setTxn tid fun x => { x with snoops := x.snoops.map fun (k : SnoopRec) => if k.on port id then f k else k }

/-! ### Snoops forwarded for the far home (R409) -/

/-- A forwarded snoop under a local ID. -/
def State.fwdAt (s : State) (port id : Nat) : Option FwdSnoop :=
  s.span.fwd.find? fun f => f.sent && f.port == port && f.id == id

/-- Update it. -/
def State.setFwd (homeId : Nat) (f : FwdSnoop → FwdSnoop) (s : State) : State :=
  { s with span := { s.span with fwd := s.span.fwd.map fun (g : FwdSnoop) => if g.homeId == homeId then f g else g } }

/-- Return a complete answer to the home, for the group of the agent that answers (log entry 138). -/
def State.fwdDone (homeId : Nat) (s : State) : State :=
  match s.span.fwd.find? (·.homeId == homeId) with
  | none => s
  | some f =>
    match f.ans with
    | none => s
    | some a =>
      if a.data && f.dat.length < 2 then s
      else
        State.spanSend (.snr a.code f.homeId f.notice a.pd (if a.data then f.dat else []))
          (State.runAs (some (s.groupOf f.agent 0))
            { s with span := { s.span with fwd := s.span.fwd.filter fun (g : FwdSnoop) => g.homeId != homeId } } (some f.agent))

/-! ### Answers (R162, R163, R176 to R179) -/

/-- Take an answer for a transaction's snoop. -/
def State.takeAnswer (t : Txn) (port id code : Nat) (data pd : Bool) (s : State) : State :=
  let s := s.runAs (some t.grp) t.agent
  let s := match t.snoops.find? (·.on port id) with
    | some k =>
      let s := if k.ans.isNone && k.inflight.isNone then s.measure 6 (some t.part) else s
      if k.notice.isSome then s.protoErr code t.line k.agent port t.part else s
    | none => s
  (s.setSnoop t.id port id fun k => { k with ans := some { code := code, data := data, pd := pd } }).pumpLine t.line

/-- R162, R176, R179: `SNR_I`, `SNR_S` or `SNR_O`. -/
def State.answer162 (r : Snr) (s : State) : State :=
  if 3 ≤ r.code then s
  else match s.snoopTxn r.port r.id with
    | some t => s.takeAnswer t r.port r.id r.code r.data r.pd
    | none =>
      match s.fwdAt r.port r.id with
      | some f => ((s.measure 6 none).setFwd f.homeId fun g => { g with ans := some { code := r.code, data := r.data, pd := r.pd } }).fwdDone f.homeId
      | none => s

/-- Keep a flit of snoop data (R164). -/
def SnoopRec.addFlit (k : SnoopRec) (f : DatFlit) : SnoopRec :=
  if f.sector == 0 then { k with lo := some (f.data, f.poison) } else { k with hi := some (f.data, f.poison) }

/-- R164, R173, R296: flits of snoop data arrive under a snoop ID; those for the far home are charged to their agent's group (log
entry 138). -/
def State.snoopFlits (port id : Nat) (fl : List DatFlit) (s : State) : State :=
  match s.snoopTxn port id with
  | some t =>
    let s := (s.runAs (some t.grp) t.agent).use 0 (32 * fl.length)
    let s := fl.foldl (fun u f => u.setSnoop t.id port id fun k => k.addFlit f) s
    s.pumpLine t.line
  | none =>
    match s.fwdAt port id with
    | some f =>
      let s := (s.runAs (some (s.groupOf f.agent 0)) (some f.agent)).use 0 (32 * fl.length)
      (s.setFwd f.homeId fun g => { g with dat := g.dat ++ fl }).fwdDone f.homeId
    | none => s

/-- R71: while a bucket is released, an owner's answer that its notice is in flight puts the line on the crossing list, for the
notice goes to the new home; the snoop is answered without data. -/
def State.crossed (t : Txn) (k : SnoopRec) (s : State) : State :=
  let b := bucketOf t.line
  let s := if k.owner then
      { s with hand := { s.hand with buckets := s.hand.buckets.map fun (h : Handover) =>
          if h.bucket == b && !h.incoming then { h with crossing := h.crossing ++ [(t.line, k.agent)] } else h } }
    else s
  (s.setSnoop t.id k.port k.id fun x => { x with ans := some { code := 0, data := false, pd := false } }).pumpLine t.line

/-- R71, R177 to R179: `SNP_INFLIGHT` for a transaction's snoop. -/
def State.inflightFor (t : Txn) (port id notice : Nat) (s : State) : State :=
  match t.snoops.find? (·.on port id) with
  | none => s
  | some k =>
    let s := (s.runAs (some t.grp) t.agent).count Ev.snpInflight (s.snoopPart t.id t.line)
    let s := if k.ans.isNone && k.inflight.isNone then s.measure 6 (some t.part) else s
    if s.bucketSt (bucketOf t.line) == .outgoing && k.notice.isNone then s.crossed t k
    else (s.setSnoop t.id port id fun x => { x with inflight := some notice }).pumpLine t.line

/-- R162, R178: `SNP_INFLIGHT` on a fabric port. -/
def State.inflight (r : Snr) (s : State) : State :=
  if 3 ≤ r.notice then s
  else match s.snoopTxn r.port r.id with
    | some t => s.inflightFor t r.port r.id r.notice
    | none =>
      match s.fwdAt r.port r.id with
      | some f =>
        ((s.measure 6 none).setFwd f.homeId fun g =>
          { g with ans := some { code := 3, data := false, pd := false }, notice := r.notice }).fwdDone f.homeId
      | none => s

/-! ### Dead agents (R49, R50, R74, R180 to R184) -/

/-- Serve every line that has a transaction. -/
def State.pumpAll (s : State) : State := ((s.txns.map (·.line)).dedup).foldl (fun t l => t.pumpLine l) s

/-- R181, R182: a snoop that waits on the agent: a notice that is held with all its data counts as announced, anything else as
lost. The line is poisoned when its entry, in the directory or in the eviction buffer, records the agent as owner. -/
def State.loseHolding (t : Txn) (k : SnoopRec) (s : State) : State :=
  let upd (f : SnoopRec → SnoopRec) (u : State) : State :=
    u.setTxn t.id fun x => { x with snoops := x.snoops.map fun (m : SnoopRec) => if m.agent == k.agent && !m.taken then f m else m }
  let gone (u : State) : State :=
    upd (fun m => { m with ans := some { code := 0, data := false, pd := false }, inflight := none, notice := none, lo := none,
                           hi := none }) u
  match k.notice with
  | some n =>
    if n.op == .evictClean then upd (fun m => { m with inflight := some 2 }) s
    else if both n.lo n.hi then upd (fun m => { m with inflight := some (if n.op == .writeclean then 1 else 0) }) s
    else
      let s := gone s
      match s.dirAt t.line with
      | some e => if e.owner == some k.agent then s.reclaimEnt k.agent e else s.reclaimPoison k.agent t.line t.part
      | none => s.reclaimPoison k.agent t.line t.part
  | none =>
    let s := gone s
    match t.kind, s.dirAt t.line with
    | .evict e, _ => if e.owner == some k.agent then s.reclaimPoison k.agent t.line t.part else s
    | _, some e => if e.owner == some k.agent then s.reclaimEnt k.agent e else s
    | _, none => s

/-- R181: the snoops to an agent that its transactions still wait for. -/
def State.loseSnoops (a : Nat) (s : State) : State :=
  s.txns.foldl (fun u t => t.snoops.foldl (fun u k => if k.agent == a && !k.done && !k.taken then (u.measure 6 (some t.part)).loseHolding t k else u) u) s

/-- R182: a notice whose data had not all arrived is lost with what its sender held. -/
def State.loseTorn (a line part : Nat) (s : State) : State :=
  match s.dirAt line with
  | some e => if e.owner == some a then s.reclaimEnt a e else s.reclaimPoison a line part
  | none => s.reclaimPoison a line part

/-- R180, R181: the agent's notices whose data are incomplete, the acknowledgements it owes, its provisional reads, and its
requests that have not reached their order point. A held notice with all its data waits for its list (R74). -/
def State.loseOwn (a : Nat) (s : State) : State :=
  let torn := s.txns.filter fun t => match t.kind with
    | .req op q _ => q.agent == a && op.isNotice && !t.served && !q.dataIn op
    | _ => false
  let s := torn.foldl (fun u t => (u.dropTxn t.id).loseTorn a t.line t.part) s
  let owes (t : Txn) : Bool := t.ack.isSome && (match t.kind with | .req _ q _ => q.agent == a | _ => false)
  let provs (t : Txn) : Bool := t.prov && (match t.kind with | .req _ q _ => q.agent == a | _ => false)
  let late (w : WaitReq) : Bool := w.q.agent == a && !(w.op.isNotice && w.q.dataIn w.op)
  let gone := (s.waiting ++ s.hand.hold).filter late
  let s := (s.prov.filter (fun (e : ProvEnt) => e.agent == a)).foldl (fun u e => u.closeProv e.port e.txid e.tag) s
  let s := { s with txns := s.txns.filter fun (t : Txn) => !(owes t || provs t),
                    waiting := s.waiting.filter fun (w : WaitReq) => !late w,
                    hand := { s.hand with
                      hold := s.hand.hold.filter fun (w : WaitReq) => !late w,
                      buckets := s.hand.buckets.map fun (h : Handover) =>
                        if h.incoming then { h with dead := h.dead ++ [a] } else h },
                    span := { s.span with fwd := s.span.fwd.filter fun (f : FwdSnoop) => f.agent != a } }
  let s := gone.foldl (fun u w => ((u.notFar w).2.unreserve w.q w.tag).count Ev.downDrop (some w.q.part)) s
  (s.span.relays.filter (fun r => r.agent == a && r.ackWait)).foldl
    (fun u r => ((u.runAs (some r.grp) (some r.agent)).spanSend (.snr 4 r.tag 0 false [])).dropRelay r.tag) s

/-- R74: the listed lines of the agent whose notice has not arrived. -/
def State.loseListed (a : Nat) (s : State) : State :=
  let mine := s.hand.listed.filter fun (x : Nat × Nat × Nat) => x.2.1 == a
  let s := { s with hand := { s.hand with listed := s.hand.listed.filter fun (x : Nat × Nat × Nat) => x.2.1 != a } }
  mine.foldl (fun u x => u.reclaimPoison a x.1 (((u.lineOf x.1).map (·.part)).getD ((u.descOf (u.lensAt (x.1 * 128))).part))) s

/-- R180: the snoops and `PROV_VOID`s to the agent that have not left are not sent. -/
def State.unsend (a : Nat) (s : State) : State :=
  { s with heldOut := s.heldOut.filter fun h => match h.flit with | .snp _ _ _ _ g => g != a | _ => true,
           span := { s.span with waitTx := s.span.waitTx.filter fun w => match w.item with | .snp _ _ _ g => g != a | _ => true } }

/-- R180, R181, R184, R404: the down point of a report; `silent` reports are those of R404. -/
def State.downPoint (a : Nat) (silent : Bool) (s : State) : State :=
  let r : Report := { agent := a, inWalk := !s.down.any (·.inWalk), silent := silent }
  let s := State.unsend a { s with down := s.down ++ [r] }
  ((s.loseSnoops a).loseOwn a |>.loseListed a).pumpAll

/-- R182, R184: a report's walk has ended. -/
def State.endReport (r : Report) (s : State) : State :=
  let s := if r.poisoned == 0 then s
    else s.log { source := 0x00D, agent := r.agent, addr := r.first, detail := r.poisoned }
  if r.silent then s else { s with acks := s.acks ++ [r.agent] }

/-- R168, R184: the walk has read every set and reached every entry; its reports are acknowledged, and the next walk begins. -/
def State.walkEnd (s : State) : State :=
  let s := (s.dir.map (·.set) ++ (s.faults fun _ => true).map (·.set)).dedup.foldl (fun u k => u.readDirSet k) s
  let s := s.dir.foldl (fun u e => u.reclaimLine e.line) s
  let done := s.down.filter (·.inWalk)
  let s := { s with down := (s.down.filter fun (r : Report) => !r.inWalk).map fun (r : Report) => { r with inWalk := true } }
  done.foldl (fun u r => u.endReport r) s

/-! ### The commands -/

/-- `SNR_I`, `SNR_S` or `SNR_O` (R176). -/
def execSnoopResponse (r : Snr) (s : State) : Res := finish (s.fresh0.snrFlit (.snoopResponse r) r (State.answer162 r))

/-- Snoop data on `DAT` in (R19, R23, R164): in `CONFIG` and `TEST` the flits are discarded and their credits kept. -/
def execSnoopData (port id : Nat) (fl : List DatFlit) (s : State) : Res :=
  let s := s.fresh0
  finish (match s.gate with
    | .drop => s
    | .hold => s.keepFor (.snoopData port id fl)
    | g =>
      let (good, s) := ((s.act 8 fl.length).sign (1 + port) 0x2 0x2 ((s.snoopTxn port id).map (·.part))).checkDat port fl
      if g == .refuse then { s with fab := s.fab.modify port fun c => { c with keptDat := c.keptDat + good.length } }
      else if g == .serve && s.power.state == .service then (s.snoopFlits port id good).tidy else s)

/-- `SNP_INFLIGHT` (R178). -/
def execSnpInflight (r : Snr) (s : State) : Res := finish (s.fresh0.snrFlit (.snpInflight r) r (State.inflight r))

/-- R161: the snoops that wait for an ID on a port are sent as long as IDs are free. -/
def execSendWaitingSnoop (port : Nat) (s : State) : Res :=
  let s := s.fresh0
  if s.gate == .serve then finish (s.sendWaiting port) else finish s

/-- `AGENT_DOWN` (R180); in reset and in `INIT` the input is ignored (R54), in `RECOVERY` it is acknowledged without a walk, after
the reports that came before it (R49, R459), and asleep it wakes the slice (R50); in a relock it is taken when FCLK resumes
(R417). -/
def execAgentDown (a : Nat) (s : State) : Res :=
  let s := s.fresh0
  if s.power.rstLow || s.power.state == .init then finish s
  else if s.asleep || s.power.relock then finish (s.keepFor (.agentDown a)).wakeUp
  else if s.power.state == .recovery then
    finish { s with acks := s.acks ++ (s.down.filter (!·.silent)).map (·.agent) ++ [a], down := [] }
  else finish (s.wakeUp.downPoint a false).tidy

/-- R184: the reclaim walk ends. -/
def execReclaimWalkEnd (s : State) : Res :=
  if s.fclkRuns && s.down.any (·.inWalk) then finish s.fresh0.walkEnd.tidy else s.notDue

end Sys2Proof.Machine
end

