-- ==== Sys2Proof/Machine/Regulate.lean ====
section
/-! DEFINITION. Regulation: deliverable capacity, scale factors, settlement, grants and urgency (R38 to R40, R286 to
R304). -/

namespace Sys2Proof.Machine

open Sys2Proof

/-! ### Capacity (R290, R291, R416) -/

/-- R291: the deliverable capacity of a resource at `f` MHz, duty `d`, `l` lanes and a span of `w` lanes. -/
def deliverable (res f d l w memCap : Nat) : Nat :=
  let clock := 1024 * f * d / (1880 * 8)
  match res with
  | 2 => min clock (memCap * d / 8)
  | 3 => 1024 * w / 16 * d / 8
  | 4 => 1024 * f * d * l / (1880 * 8 * 2048)
  | _ => clock

/-- Lanes not retired (R236). -/
def State.lanesLeft (s : State) : Nat := s.lanes.sum

/-- Lanes of the sending direction while the port is `ACTIVE` (R291). -/
def State.spanLanes (s : State) : Nat := if s.power.straps.split && s.span.st == .active then s.span.width else 0

/-- R301: the current capacity `D'`. -/
def State.capNow (s : State) (res : Nat) : Nat :=
  deliverable res (opMHz s.power.op) s.power.duty s.lanesLeft s.spanLanes s.reg.cfg.memCap

/-! ### Scale factors (R301 to R303) -/

/-- R301: the share of `MEM` that a drain reserves. -/
def State.drainShare (s : State) : Nat :=
  let self (p : Nat) : Nat := (s.grp (s.selfGroup p)).minOf 2
  if s.power.cfgDrain then
    ((List.range 16).filter (fun p => (s.part p).active)).foldl (fun m p => max m (self p)) 64
  else if s.res.active && s.res.running == some 1 then max (self s.res.part) 64
  else 0

/-- R302: the allotments of a resource, protected and not, with the reservation of R301. -/
def State.allotted (s : State) (res : Nat) : Nat × Nat :=
  let p := (s.reg.cfg.groups.filter (·.prot)).foldl (fun n c => n + c.minOf res) 0
  let u := (s.reg.cfg.groups.filter (fun c => !c.prot)).foldl (fun n c => n + c.minOf res) 0
  (p + (if res == 2 then s.drainShare else 0), u)

/-- R302: the scale factors `s` and `sp`. -/
def scaleOf (g p u : Nat) : Nat × Nat :=
  if p + u ≤ g then (1024, 1024)
  else if p ≤ g then (1024 * (g - p) / u, 1024)
  else (0, 1024 * g / p)

/-- The conditions that the cause codes of R384 tell apart. -/
def State.conditions (s : State) : List Nat :=
  [s.power.op, s.power.duty, s.spanLanes, s.lanesLeft, s.drainShare]

/-- The conditions that a resource's capacity or allotments depend on, by their cause codes (R291, R301, R384). -/
def causesOf (res : Nat) : List Nat :=
  match res with
  | 2 => [0, 1, 4]
  | 3 => [1, 2]
  | 4 => [0, 1, 3]
  | _ => [0, 1]

/-- The cause of a change of scale: the first condition of the resource that differs from the last round's. A change that none of
them explains (a new section) keeps the cause before it. -/
def State.scaleCause (s : State) (res : Nat) (old : ResScale) : Nat :=
  ((causesOf res).find? fun i => s.conditions.getD i 0 != s.reg.last.getD i 0).getD old.cause

/-- R286: an agent reaches the group through some tint of the active table. -/
def State.reached (s : State) (g : Nat) : Bool :=
  (List.range s.cfg.route.length).any fun a => (s.routeOf a).present &&
    (List.range 16).any fun t => s.groupOf a t == g

/-- R303: report a change of a resource's scale factors. -/
def State.reportScale (res : Nat) (old new : ResScale) (s : State) : State :=
  let moved := (List.range 64).filter fun g => (s.grp g).eff old res != (s.grp g).eff new res
  let s := ((s.setStatus 4).count Ev.guaranteeScaled none).log
    { source := 0x015, detail := res + new.s * 2 ^ 3 + new.sp * 2 ^ 14 + new.dNow * 2 ^ 25 + new.cause * 2 ^ 36 }
  (List.range 16).foldl (fun t p =>
    if (t.part p).active && moved.any (fun g => t.selfGroup p == g || t.reached g) then t.pwStatus p 4 else t) s

/-- R301 to R303, R368: recompute one resource's scale; its generation advances with every change of what the registers show, new
allotments (`took`) among them. The first round after a reset has nothing to compare with and reports nothing. -/
def State.rescale (took : Bool) (res : Nat) (s : State) : State :=
  let old := s.reg.scale.getD res {}
  let d := s.capNow res
  let g := 9 * d / 10
  let (p, u) := s.allotted res
  let (a, b) := scaleOf g p u
  let put (x : ResScale) (t : State) : State := { t with reg := { t.reg with scale := t.reg.scale.set res x } }
  let moved := a != old.s || b != old.sp
  let gen := if moved || took || d != old.dNow || g != old.gNow then (old.gen + 1) % 65536 else old.gen
  let x : ResScale := { dNow := d, gNow := g, s := a, sp := b, cause := old.cause, gen := gen }
  if !s.reg.scaled || !moved then put x s
  else
    let x := { x with cause := s.scaleCause res old }
    (put x s).reportScale res old x

/-! ### Settlement (R296) -/

/-- R296, R304: settle one group in one resource: `credit` becomes the refund of the next grant, `debt` what it owes. -/
def State.settleBal (g res : Nat) (s : State) : State :=
  if (s.grp g).weight == 0 then s.setBal g res fun b => { b with credit := 0, used := 0, debt := 0 }
  else s.setBal g res fun b =>
    let net := b.credit - b.used - b.debt
    { b with credit := max net 0, used := 0, debt := max (-net) 0 }

/-- R296: the end of a round. -/
def State.settleRound (s : State) : State :=
  let s := (List.range 64).foldl (fun t g => (List.range 5).foldl (fun t r => t.settleBal g r) t) s
  let owing := (List.range 64).map fun g => (List.range 5).any fun r => decide (0 < (s.balOf g r).debt)
  let s := { s with reg := { s.reg with debtor := owing } }
  if owing.any (· == true) then s.count Ev.regDebit none else s

/-! ### Grants (R297, R298) -/

/-- Share a pool by weight among claimants (group, weight, room), each up to its room; what a floor leaves over stays
unshared. The list is the units each claimant takes. -/
def shareOut : Nat → Nat → List (Nat × Nat × Nat) → List (Nat × Nat)
  | 0, _, _ => []
  | n + 1, pool, l =>
    let w := l.foldl (fun a x => a + x.2.1) 0
    let full := l.filter fun x => x.2.2 * w ≤ pool * x.2.1
    if full.isEmpty then l.map fun x => (x.1, pool * x.2.1 / w)
    else
      full.map (fun x => (x.1, x.2.2)) ++
      shareOut n (pool - full.foldl (fun a x => a + x.2.2) 0) (l.filter fun x => !(x.2.2 * w ≤ pool * x.2.1))

/-- The sum of a list of shares. -/
def sumShares (l : List (Nat × Nat)) : Nat := l.foldl (fun a x => a + x.2) 0

/-- R298: share the pool by urgency among the groups with room. -/
def State.byUrgency (s : State) (pool : Nat) (room : List (Nat × Nat)) : List (Nat × Nat) :=
  let claim (f : Nat → Bool) (k : Nat → Nat) : List (Nat × Nat × Nat) :=
    (room.filter fun x => f x.1 && 0 < x.2).map fun x => (x.1, (s.grp x.1).weight * k x.1, x.2)
  let a := shareOut 65 pool (claim (fun g => s.level g == 3) fun _ => 1)
  let pool2 := pool - sumShares a
  let open3 := (room.filter fun x => s.level x.1 == 3).all fun x => ((a.find? (·.1 == x.1)).map (·.2)).getD 0 == x.2
  let b := if open3 then shareOut 65 pool2 (claim (fun g => s.level g == 2) fun _ => 1) else []
  let open2 := open3 && (room.filter fun x => s.level x.1 == 2).all fun x => ((b.find? (·.1 == x.1)).map (·.2)).getD 0 == x.2
  let c := if open2 then shareOut 65 (pool2 - sumShares b)
      (claim (fun g => s.level g ≤ 1) fun g => if s.level g == 1 then 4 else 1) else []
  a ++ b ++ c

/-- R297: the guaranteed parts in group order: (group, guaranteed, room left), and the pool that remains. -/
def State.guaranteed (s : State) (res pool : Nat) : List (Nat × Nat × Nat) × Nat :=
  (List.range 64).foldl (fun (x : List (Nat × Nat × Nat) × Nat) g =>
    if (s.grp g).weight == 0 then x
    else
      let ent := s.guaranteeOf g res
      let cap := max (2 * ent) (x.2 / 8)
      let room := (((cap : Int) - (s.balOf g res).mirr / 32)).toNat
      let give := min ent room
      (x.1 ++ [(g, give, room - give)], x.2 - give)) ([], pool)

/-- R38: send tokens, at most 255 a flit, each flit with the next sequence number. -/
def State.sendTokens (g res : Nat) : Nat → Nat → State → State
  | 0, _, s => s
  | n + 1, k, s => if k == 0 then s
      else State.sendTokens g res n (k - 255)
        (State.emit (.rego g res (min k 255) s.reg.seq) { s with reg := { s.reg with seq := (s.reg.seq + 1) % 64 } })

/-- R297: add refunds, take debits, and grant whole tokens; what is left of a token stays as a refund. -/
def State.grant (g res units : Nat) (s : State) : State :=
  let b := s.balOf g res
  let total := 32 * (units : Int) + b.credit - b.debt
  if total ≤ 0 then s.setBal g res fun x => { x with credit := 0, debt := -total }
  else
    let tokens := (total / 512).toNat
    (s.setBal g res fun x => { x with mirr := x.mirr + 512 * tokens, credit := total - 512 * tokens, debt := 0 }).sendTokens
      g res (tokens / 255 + 1) tokens

/-- R297: the grants of one resource. -/
def State.grantRes (res : Nat) (s : State) : State :=
  let pool := roundUnits res (opMHz s.power.op) (s.capNow res)
  let (l, left) := s.guaranteed res pool
  let extra := s.byUrgency left (l.map fun x => (x.1, x.2.2))
  l.foldl (fun t x => t.grant x.1 res (x.2.1 + ((extra.find? (·.1 == x.1)).map (·.2)).getD 0)) s

/-- R304: the group that the new tables give an agent's work, which the old ones gave `g`. -/
def regroup (old new : RegCfg) (agent g : Nat) : Nat :=
  (g + 64 - old.agentBase.getD agent 0 % 64 + new.agentBase.getD agent 0) % 64

/-- R304: work in progress is settled in the groups that the new tables compute: what a request has caused, by the request's agent,
and any other work by the `SELF_GROUP` of its partition. -/
def State.regroupAll (old new : RegCfg) (s : State) : State :=
  let resv (r : Resv) : Resv :=
    { r with pay := regroup old new r.agent r.pay, charged := regroup old new r.agent r.charged }
  let wait (w : WaitReq) : WaitReq := { w with grp := regroup old new w.q.agent w.grp }
  let of (agent : Option Nat) (p g : Nat) : Nat :=
    match agent with
    | some a => regroup old new a g
    | none => if g == old.selfGroup.getD p 0 then new.selfGroup.getD p 0 else g
  let col (p : Nat) (c : ColArgs) : ColArgs := { c with grp := c.grp.map (of none p) }
  let after (p : Nat) : WinOp → WinOp
    | .collect c => .collect (col p c)
    | o => o
  { s with
    reg := { s.reg with resv := s.reg.resv.map resv },
    waiting := s.waiting.map wait, hand := { s.hand with hold := s.hand.hold.map wait },
    mrs := s.mrs.map fun (m : MissReg) => { m with grp := m.grp.map (of m.agent m.part) },
    txns := s.txns.map fun (t : Txn) => { t with grp := of t.agent t.part t.grp },
    memWait := s.memWait.map fun (r : MemReq) => { r with grp := r.grp.map (of r.agent r.part) },
    memOut := s.memOut.map fun (r : MemReq) => { r with grp := r.grp.map (of r.agent r.part) },
    prov := s.prov.map fun (e : ProvEnt) => { e with grp := regroup old new e.agent e.grp },
    wins := s.wins.map fun (w : Window) => { w with col := w.col.map (col w.part), after := w.after.map (after w.part) },
    span := { s.span with relays := s.span.relays.map fun (r : Relay) => { r with grp := regroup old new r.agent r.grp } } }

/-- R300, R304: an accepted REGULATE section takes effect; groups without weight lose their debits. -/
def State.takeReg (s : State) : State :=
  match s.reg.next with
  | some c =>
    let t := s.regroupAll s.reg.cfg c
    { t with reg := { t.reg with cfg := c, next := none } }
  | none => s

/-- R297: one grant round. While a drain for `CONFIG` runs, no tokens are granted (R359). -/
def State.grantRound (s : State) : State :=
  let s := (s.sign 0x50 0x40000 0x40000 none).cfgRead .reg
  let took := s.reg.next.isSome
  let s := (s.settleRound).takeReg
  let s := (List.range 5).foldl (fun t r => t.rescale took r) s
  let s := { s with reg := { s.reg with last := s.conditions, scaled := true, owed := false } }
  if s.power.cfgDrain then s else (List.range 5).foldl (fun t r => t.grantRes r) s

/-- Work that waited for its group's balance or for its turn goes on (R297, R299). -/
def State.granted (s : State) : State := s.memFlush.spanFlush.pumpAll.walksGo.tidy

/-- R297: the last round before `SLEEP` raises every used group's balance to one token in each resource that has
capacity. -/
def State.sleepRound (s : State) : State :=
  let s := s.grantRound
  (List.range 5).foldl (fun t r =>
    if t.capNow r == 0 then t
    else (List.range 64).foldl (fun t g =>
      let have' := (t.balOf g r).mirr
      if (t.grp g).weight == 0 || 512 ≤ have' then t
      else
        let k := ((512 - have' + 511) / 512).toNat
        (t.setBal g r fun x => { x with mirr := x.mirr + 512 * k }).sendTokens g r (k / 255 + 1) k) t) s

/-- Regulation runs: the slice is in `SERVICE` with its clock (R39). -/
def State.regRuns (s : State) : Bool := s.power.state == .service && !s.power.relock && s.power.sleepPh != .committed

/-- R40, R298: a level comes into force; a bound input that rises to 3 starts a new round, in a relock as soon as FCLK runs again.
-/
def State.urgChange (i level : Nat) (s : State) : State :=
  let old := s.reg.urgLvl.getD i 0
  let s := { s with reg := { s.reg with urgLvl := s.reg.urgLvl.set i level } }
  let bound := ((s.reg.cfg.urg.getD i (0, false)).2)
  if !(bound && level == 3 && old != 3) then s
  else if s.regRuns then s.grantRound.granted
  else if s.power.relock && s.power.state == .service then { s with reg := { s.reg with owed := true } } else s

/-- R40: the levels that the wires show come into force. -/
def State.urgSample (s : State) : State := { s with reg := { s.reg with urgLvl := s.reg.urgWire } }

/-! ### The commands -/

/-- A grant round (R297); outside `SERVICE` the slice grants nothing (R39). -/
def execGrantRound (s : State) : Res :=
  let s := s.fresh0
  finish (if s.regRuns then s.grantRound.granted else s)

/-- The wires of an urgency input show a new level (R40). It comes into force unless the slice sleeps or is in reset; then the
wires alone keep it. -/
def execUrgChange (input level : Nat) (s : State) : Res :=
  let s := s.fresh0
  let s := { s with reg := { s.reg with urgWire := s.reg.urgWire.set input level } }
  finish (if s.asleep || s.power.rstLow then s else s.urgChange input level)

end Sys2Proof.Machine
end

