-- ==== Sys2Proof/Machine/PrescCheck.lean ====
section
/-! DEFINITION. Prescriptions: the stream, its sections, and the checks of stages 1 to 8 (R335 to R352, R356, R357). -/

namespace Sys2Proof.Machine

open Sys2Proof

/-- A failed check: the code and the stream offset of the failing field. -/
abbrev Fail := Err × Nat

/-- The failure with the least offset; of equal ones the first (R356). -/
def firstFail (l : List Fail) : Option Fail :=
  l.foldl (fun b x => match b with
    | none => some x
    | some y => if x.2 < y.2 then some x else b) none

/-- One check. -/
def failIf (c : Bool) (e : Err) (off : Nat) : List Fail := if c then [(e, off)] else []

/-- A section (R336): its offset in the stream, header fields and payload. -/
structure Sect where
  off : Nat
  typ : Nat
  level : Nat
  resv : Nat
  len : Nat
  pay : List (BitVec 8)
deriving DecidableEq, Repr

/-- The little-endian number of `n` bytes at `o`. -/
def uAt (b : List (BitVec 8)) (o n : Nat) : Nat := ofLe ((b.drop o).take n)

/-- A number of `n` bytes at payload offset `o`. -/
def Sect.u (x : Sect) (o n : Nat) : Nat := uAt x.pay o n

/-- The 8-byte word at payload offset `o`. -/
def Sect.w (x : Sect) (o : Nat) : Nat := x.u o 8

/-- Stream offset of payload byte `o`. -/
def Sect.pos (x : Sect) (o : Nat) : Nat := x.off + 8 + o

/-- The section of a type. -/
def sectOf (l : List Sect) (t : Nat) : Option Sect := l.find? (·.typ == t)

/-! ### Stages 1 to 4 -/

/-- The feature level of the slice (R6, R351): A0 has 1, B0 has 2. -/
def State.featLevel (s : State) : Nat := s.fuses.featLevel

/-- Stage 1: the header. -/
def State.stage1 (s : State) (b : List (BitVec 8)) : Option Fail :=
  let lvl := uAt b 6 1
  let total := uAt b 16 4
  let cnt := uAt b 20 2
  firstFail (
    failIf (uAt b 0 4 != 0x46414C5A) .fieldRange 0 ++ failIf (uAt b 4 2 != 1) .fieldRange 4 ++
    failIf (lvl == 0) .fieldRange 6 ++ failIf (s.featLevel < lvl) .featureLevel 6 ++
    failIf (1 < uAt b 7 1) .fieldRange 7 ++ failIf (!bit (uAt b 8 8) s.position) .fieldRange 8 ++
    failIf (total != s.presc.len || total % 8 != 0 || total < 104 || 65536 < total) .fieldRange 16 ++
    failIf (cnt == 0 || 11 < cnt) .fieldRange 20 ++ failIf (uAt b 22 2 != 0) .reservedSet 22)

/-- A window is in `ARMED` to `FINAL` (R257). -/
def State.windowsOpen (s : State) : Bool :=
  s.wins.any fun x => x.st == .armed || x.st == .opened || x.st == .sealed || x.st == .final

/-- Stage 2: the state of the slice. Every condition is reported at `KIND`. -/
def State.stage2 (s : State) (full : Bool) : Option Fail :=
  if full then
    (if s.power.state != .config then some (.busy, 7)
     else if !s.regs.pkgSet then some (.locked, 7)
     else if s.hand.buckets.any (fun h => !h.relayOnly) then some (.busy, 7)
     else if s.windowsOpen then some (.busy, 7) else none)
  else if s.power.state != .service && s.power.state != .config then some (.busy, 7)
  else if !s.cfg.inForce then some (.fieldRange, 7) else none

/-- R338: section types allowed in a kind. -/
def typeAllowed (full : Bool) (t : Nat) : Bool :=
  if full then 1 ≤ t && t ≤ 11 else t == 5 || t == 7 || t == 8 || t == 9

/-- R338: sections a full prescription must carry. -/
def requiredTypes : List Nat := [1, 2, 3, 4, 5, 7, 8, 9]

/-- Stage 3 of the sections in turn: the sections, or the first failure. -/
def frameSects (b : List (BitVec 8)) (full : Bool) (lvl stop : Nat) :
    Nat → Nat → Nat → List Sect → Except Fail (Nat × List Sect)
  | 0, off, _, acc => .ok (off, acc)
  | n + 1, off, prev, acc =>
    let rest := b.drop off
    let typ := uAt rest 0 2
    let level := uAt rest 2 1
    let len := uAt rest 4 4
    if stop ≤ off then .error (.fieldRange, 20)
    else if !typeAllowed full typ || typ ≤ prev then .error (.sectionOrder, off)
    else if level == 0 || lvl < level then .error (.fieldRange, off + 2)
    else if len % 8 != 0 || stop < off + 16 + len then .error (.fieldRange, off + 4)
    else if (crc32c (rest.take (8 + len))).toNat != uAt rest (8 + len) 4 then .error (.digest, off + 8 + len)
    else if uAt rest (12 + len) 4 != 0 then .error (.reservedSet, off + 12 + len)
    else
      let x : Sect := { off := off, typ := typ, level := level, resv := uAt rest 3 1, len := len, pay := (rest.drop 8).take len }
      frameSects b full lvl stop n (off + 16 + len) typ (acc ++ [x])

/-- Stage 3: framing. -/
def stage3 (b : List (BitVec 8)) (full : Bool) : Except Fail (List Sect) :=
  let stop := uAt b 16 4 - 48
  match frameSects b full (uAt b 6 1) stop (uAt b 20 2) 32 0 [] with
  | .error e => .error e
  | .ok (off, l) =>
    let missing := if full then requiredTypes.find? (fun t => (sectOf l t).isNone) else none
    match missing with
    | some t => .error (.sectionOrder, ((l.find? (fun (x : Sect) => t < x.typ)).map (·.off)).getD stop)
    | none => if off != stop then .error (.fieldRange, 20) else .ok l

/-- Stage 4: the digest. -/
def stage4 (b : List (BitVec 8)) : Option Fail :=
  let stop := uAt b 16 4 - 48
  if sha384 (b.take stop) != (b.drop stop).take 48 then some (.digest, stop) else none

/-! ### Reading the sections -/

/-- Record `p` of a PARTITION section (R341). -/
def Sect.part (x : Sect) (p : Nat) : PartRec :=
  let a := x.w (16 * p)
  let b := x.w (16 * p + 8)
  { pin := bits a 31 0, cache := bits a 63 32, scratch := bits b 31 0, thrashHit := bits b 41 32,
    thrashEvict := bits b 51 42, active := bit b 52, ordinary := bit b 53, counterAccess := bit b 54,
    isolated := bit b 55, coarseK := bits b 60 56 }

/-- The partition records. -/
def Sect.parts (x : Sect) : List PartRec := (List.range 16).map x.part

/-- A route table byte (R339). -/
def routeByte (n : Nat) : RouteEnt := { present := bit n 0, half := bits n 1 1, port := bits n 4 2 }

/-- The route table. -/
def Sect.route (x : Sect) : List RouteEnt := (List.range 1024).map fun a => routeByte (x.u (8 + a) 1)

/-- The scratchpad windows: base and pages in 4 KiB (R339). -/
def Sect.scratch (x : Sect) : List (Nat × Nat) :=
  (List.range (x.u 1032 2)).map fun i => (bits (x.w (1040 + 8 * i)) 39 0, bits (x.w (1040 + 8 * i)) 63 40)

/-- Descriptors of a LENS section (R344). -/
def Sect.descs (x : Sect) : List Desc :=
  (List.range (bits (x.w 0) 8 0)).map fun i => Desc.ofWords (x.w (8 + 16 * i)) (x.w (16 + 16 * i))

/-- Records of a MIRROR section (R345). -/
def Sect.mirrors (x : Sect) : List MirrorRec :=
  (List.range (bits (x.w 0) 8 0)).map fun i =>
    let v := x.w (8 + 8 * i)
    { slot := bits v 7 0, fill := bit v 8, verify := bit v 9 }

/-- A REGULATE section (R347). -/
def Sect.regulate (x : Sect) : RegCfg :=
  { groups := (List.range 64).map fun g =>
      let v := x.w (8 * g)
      { min := (List.range 5).map fun r => bits v (10 * r + 9) (10 * r), weight := bits v 57 50, prot := bit v 58 },
    agentBase := (List.range 1024).map fun a => bits (x.u (512 + a) 1) 5 0,
    selfGroup := (List.range 16).map fun p => bits (x.u (1536 + p) 1) 5 0,
    urg := (List.range 16).map fun i => (bits (x.u (1552 + i) 1) 5 0, bit (x.u (1552 + i) 1) 7),
    memCap := bits (x.w 1568) 10 0 }

/-- Channel entries of a CUE section (R348). -/
def Sect.chans (x : Sect) : List ChanCfg :=
  (List.range 16).map fun c =>
    let a := x.w (24 * c)
    let b := x.w (24 * c + 8)
    { en := bit a 0, owner := bits a 4 1, bell := bits a 49 5, init := BitVec.ofNat 32 b, lagLimit := bits b 55 32,
      wdMode := bits b 57 56, wdLimit := bits (x.w (24 * c + 16)) 27 0 }

/-- Slot ranges of a CUE section. -/
def Sect.ranges (x : Sect) : List (Nat × Nat) :=
  (List.range 16).map fun p => (bits (x.u (384 + 4 * p) 4) 8 0, bits (x.u (384 + 4 * p) 4) 18 9)

/-- Slot records of a CUE section. -/
def Sect.recs (x : Sect) : List (List Word) :=
  (List.range (bits (x.w 448) 9 0)).map fun k =>
    (List.range 8).map fun i => BitVec.ofNat 64 (x.w (456 + 64 * k + 8 * i))

/-- Counter records (R350). -/
def Sect.ctrs (x : Sect) : List CtrCfg :=
  (List.range 48).map fun n =>
    let v := x.w (8 * n)
    { event := bits v 9 0, part := bits v 13 10, partEn := bit v 14, mode := bits v 16 15, thresh := bits v 47 32 }

/-- Histogram records (R350). -/
def Sect.hists (x : Sect) : List HistCfg :=
  (List.range 4).map fun h =>
    let v := x.w (384 + 8 * h)
    { src := bits v 7 0, part := bits v 11 8, partEn := bit v 12 }

/-- Debug group records (R350). -/
def Sect.dbgs (x : Sect) : List DbgCfg :=
  (List.range 8).map fun d =>
    let v := x.w (8 * d)
    { source := bits v 15 0, part := bits v 19 16, bound := bit v 20 }

/-- The POWER word (R343). -/
def Sect.powerCfg (x : Sect) : PowerCfg :=
  let v := x.w 0
  { opReg := bits v 2 0, sleepEn := bit v 3, sleepDelay := bits v 27 4, offEn := bit v 28 }

/-- A value of a section, or a default when the stream does not carry it. -/
def ofSect {α : Type} (l : List Sect) (t : Nat) (d : α) (f : Sect → α) : α := ((sectOf l t).map f).getD d

/-- The configuration a full prescription carries. -/
def cfgOf (l : List Sect) : Cfg :=
  { inForce := true, slices := ofSect l 1 0 fun x => x.u 1 1, memShift := ofSect l 1 12 fun x => x.u 2 1,
    memTable := ofSect l 1 [] fun x => (List.range 16).map fun i => bits (x.u 4 4) (2 * i + 1) (2 * i),
    route := ofSect l 1 [] Sect.route, scratch := ofSect l 1 [] Sect.scratch, parts := ofSect l 2 [] Sect.parts,
    partBytes := ofSect l 2 [] (·.pay), map := ofSect l 3 [] fun x => (List.range 1024).map fun b => x.u b 1,
    power := ofSect l 4 {} Sect.powerCfg, mirror := ofSect l 6 [] Sect.mirrors, ctrs := ofSect l 10 [] Sect.ctrs,
    hists := ofSect l 10 [] Sect.hists, dbg := ofSect l 11 [] Sect.dbgs }

/-- The prescription that the sections make up. -/
def prescOf (full : Bool) (l : List Sect) : Presc :=
  { full := full, cfg := cfgOf l, lens := (sectOf l 5).map Sect.descs,
    tint := (sectOf l 7).map fun x => BitVec.ofNat 32 (x.w 0), reg := (sectOf l 8).map Sect.regulate,
    chans := ofSect l 9 [] Sect.chans, ranges := ofSect l 9 [] Sect.ranges, recs := ofSect l 9 [] Sect.recs,
    hasCue := (sectOf l 9).isSome }

/-! ### Stage 5: fields -/

/-- R272: fields of a record that not every action uses: word, bits, and the actions that use it. -/
def slotFields : List (Nat × Nat × Nat × List Nat) :=
  [(0, 23, 21, [0, 1, 2, 6]), (0, 63, 40, []), (1, 63, 32, []), (2, 56, 0, [0, 1, 2, 6]), (2, 63, 57, []),
   (3, 13, 0, [0]), (3, 29, 14, [0]), (3, 63, 30, []), (4, 31, 0, [0]), (4, 63, 32, []), (5, 32, 0, [1, 2, 6]),
   (5, 63, 33, []), (6, 5, 0, [3, 4]), (6, 37, 6, [3, 4]), (6, 63, 38, []), (7, 7, 0, [7]), (7, 15, 8, [7]),
   (7, 17, 16, [7]), (7, 63, 18, [])]

/-- Reserved fields of the slot record at payload offset `o` (R272, R356). -/
def Sect.recResv (x : Sect) (o : Nat) : List Fail :=
  let act := bits (x.w o) 16 13
  failIf (8 ≤ act) .reservedSet (x.pos (o + 1)) ++
  slotFields.flatMap fun (w, hi, lo, acts) =>
    failIf (!acts.contains act && bits (x.w (o + 8 * w)) hi lo != 0) .reservedSet (x.pos (o + 8 * w + lo / 8))

/-- R478: assigned occurrence events. -/
def occEvent (n : Nat) : Bool :=
  n ≤ 7 || (0x10 ≤ n && n ≤ 0x1C) || (0x20 ≤ n && n ≤ 0x28) || (0x30 ≤ n && n ≤ 0x35) || (0x40 ≤ n && n ≤ 0x47) ||
  (0x50 ≤ n && n ≤ 0x56) || (0x60 ≤ n && n ≤ 0x64) || (0x70 ≤ n && n ≤ 0x76) || (0x80 ≤ n && n ≤ 0x84)

/-- R478: occupancies. -/
def occupancy (n : Nat) : Bool := 0x100 ≤ n && n ≤ 0x10D

/-- R478: events attributed to the slice. -/
def sliceEvent (n : Nat) : Bool :=
  [1, 2, 4, 5, 6, 7, 0x56, 0x60, 0x72, 0x76, 0x80, 0x81, 0x84, 0x10D].contains n

/-- R484: assigned debug sources. -/
def debugSource (n : Nat) : Bool :=
  n ≤ 8 || (0x10 ≤ n && n ≤ 0x13) || n == 0x20 || n == 0x21 || n == 0x30 || n == 0x40 || n == 0x50 || n == 0x51 ||
  n == 0x60 || n == 0x70

/-- R350, R477: a counter record. -/
def Sect.ctrFails (x : Sect) (act : Nat → Bool) (n : Nat) : List Fail :=
  let o := 8 * n
  let v := x.w o
  let c := x.ctrs.getD n {}
  let kindOk := if c.mode == 0 then occEvent c.event else if c.mode == 1 then occupancy c.event else true
  failIf (!kindOk) .fieldRange (x.pos o) ++
  failIf (2 ≤ c.mode && bits v 6 5 != 0) .reservedSet (x.pos o) ++
  failIf (c.partEn && c.mode < 2 && sliceEvent c.event) .fieldRange (x.pos o) ++
  failIf (c.partEn && (!act c.part || 2 ≤ c.mode)) .fieldRange (x.pos (o + 1)) ++
  failIf (bits v 31 17 != 0) .reservedSet (x.pos (o + 2)) ++
  failIf (c.mode != 1 && c.thresh != 0) .reservedSet (x.pos (o + 4)) ++
  failIf (bits v 63 48 != 0) .reservedSet (x.pos (o + 6))

/-- R350, R477, R483: a histogram record. -/
def Sect.histFails (x : Sect) (act : Nat → Bool) (h : Nat) : List Fail :=
  let o := 384 + 8 * h
  let v := x.w o
  failIf (12 < bits v 7 0) .fieldRange (x.pos o) ++ failIf (bit v 12 && !act (bits v 11 8)) .fieldRange (x.pos (o + 1)) ++
  failIf (bits v 63 13 != 0) .reservedSet (x.pos (o + 1))

/-- R350, R484: a debug group record. -/
def Sect.dbgFails (x : Sect) (act : Nat → Bool) (d : Nat) : List Fail :=
  let o := 8 * d
  let v := x.w o
  failIf (!debugSource (bits v 15 0)) .fieldRange (x.pos o) ++
  failIf (bit v 20 && !act (bits v 19 16)) .fieldRange (x.pos (o + 2)) ++
  failIf (bits v 63 21 != 0) .reservedSet (x.pos (o + 2))

/-- The payload length that a section's own fields require (R338). -/
def Sect.lenWant (x : Sect) : Nat :=
  match x.typ with
  | 1 => 1040 + 8 * x.u 1032 2
  | 2 => 256
  | 3 => 1024
  | 5 => 8 + 16 * bits (x.w 0) 8 0
  | 6 => 8 + 8 * bits (x.w 0) 8 0
  | 8 => 1576
  | 9 => 456 + 64 * bits (x.w 448) 9 0
  | 10 => 416
  | 11 => 64
  | _ => 8

/-- Stage 5 of one section's payload, by its type. `act` are the active partitions. -/
def Sect.payFails (x : Sect) (act : Nat → Bool) : List Fail :=
  let rng (c : Bool) (o : Nat) : List Fail := failIf c .fieldRange (x.pos o)
  let resv (o hi lo : Nat) : List Fail := failIf (bits (x.w o) hi lo != 0) .reservedSet (x.pos (o + lo / 8))
  match x.typ with
  | 1 =>
    failIf (bits (x.u 0 1) 7 1 != 0) .reservedSet (x.pos 0) ++ rng (x.u 2 1 < 7 || 30 < x.u 2 1) 2 ++
    failIf (x.u 3 1 != 0) .reservedSet (x.pos 3) ++
    (List.range 1024).flatMap (fun a => failIf (bits (x.u (8 + a) 1) 7 5 != 0) .reservedSet (x.pos (8 + a))) ++
    rng (1024 < x.u 1032 2) 1032 ++ failIf (x.u 1034 6 != 0) .reservedSet (x.pos 1034) ++
    (x.scratch.zipIdx).flatMap (fun (w, i) => rng (w.2 == 0) (1040 + 8 * i + 5))
  | 2 => (List.range 16).flatMap fun p =>
    failIf (bits (x.w (16 * p + 8)) 63 61 != 0) .reservedSet (x.pos (16 * p + 15)) ++
    rng (21 ≤ (x.part p).coarseK) (16 * p + 15)
  | 3 => (List.range 1024).flatMap fun b => failIf (bits (x.u b 1) 7 6 != 0) .reservedSet (x.pos b)
  | 4 => rng (5 < bits (x.w 0) 2 0) 0 ++ resv 0 63 29
  | 5 =>
    rng (256 < bits (x.w 0) 8 0) 0 ++ resv 0 63 9 ++
    (List.range (bits (x.w 0) 8 0)).flatMap (fun i => resv (8 + 16 * i) 63 61 ++ resv (16 + 16 * i) 63 40)
  | 6 =>
    rng (256 < bits (x.w 0) 8 0) 0 ++ resv 0 63 9 ++
    (List.range (bits (x.w 0) 8 0)).flatMap (fun i =>
      failIf (x.level == 1 && bits (x.w (8 + 8 * i)) 9 8 != 0) .reservedSet (x.pos (8 + 8 * i + 1)) ++ resv (8 + 8 * i) 63 10)
  | 7 => resv 0 63 32
  | 8 =>
    (List.range 64).flatMap (fun g => resv (8 * g) 63 59) ++
    (List.range 1024).flatMap (fun a => failIf (bits (x.u (512 + a) 1) 7 6 != 0) .reservedSet (x.pos (512 + a))) ++
    (List.range 16).flatMap (fun p => failIf (bits (x.u (1536 + p) 1) 7 6 != 0) .reservedSet (x.pos (1536 + p))) ++
    (List.range 16).flatMap (fun i => failIf (bit (x.u (1552 + i) 1) 6) .reservedSet (x.pos (1552 + i))) ++
    resv 1568 63 11
  | 9 =>
    (List.range 16).flatMap (fun c => resv (24 * c) 63 50 ++ resv (24 * c + 8) 63 58 ++ resv (24 * c + 16) 63 28) ++
    (List.range 16).flatMap (fun p => failIf (bits (x.u (384 + 4 * p) 4) 31 19 != 0) .reservedSet (x.pos (384 + 4 * p + 2))) ++
    rng (512 < bits (x.w 448) 9 0) 448 ++ resv 448 63 10 ++
    (List.range (bits (x.w 448) 9 0)).flatMap (fun k => x.recResv (456 + 64 * k))
  | 10 => (List.range 48).flatMap (x.ctrFails act) ++ (List.range 4).flatMap (x.histFails act)
  | _ => (List.range 8).flatMap (x.dbgFails act)

/-- Stage 5: the sections' own fields, in stream order. -/
def stage5 (l : List Sect) : Option Fail :=
  let act (p : Nat) : Bool := ofSect l 2 false fun x => (x.part p).active
  l.findSome? fun x =>
    firstFail (failIf (x.resv != 0) .reservedSet (x.off + 3) ++
      if x.len != x.lenWant then [(.fieldRange, x.off + 4)] else x.payFails act)

/-! ### Stage 6: structure -/

/-- What the later sections are checked against: the configuration they will stand in. -/
structure PrescCtx where
  full : Bool
  split : Bool
  index : Nat
  cfg : Cfg

/-- Ways of a mask. -/
def wayCount (m : Nat) : Nat := (waysOf m).length

/-- R5, R47, R340: GEOMETRY. -/
def Sect.geometryFails (x : Sect) (cx : PrescCtx) : List Fail :=
  let n := x.u 1 1
  let range := if cx.split then n < 8 || 32 < n else n < 4 || 16 < n
  failIf (bit (x.u 0 1) 0 != cx.split) .fieldRange (x.pos 0) ++
  failIf (range || n ≤ cx.index) .fieldRange (x.pos 1) ++
  (x.scratch.zipIdx).flatMap fun (w, i) =>
    failIf (2 ^ 40 < w.1 + w.2 || (x.scratch.take i).any (fun v => rangesMeet v.1 v.2 w.1 w.2)) .fieldRange
      (x.pos (1040 + 8 * i))

/-- R58: PRISM. -/
def Sect.prismFails (x : Sect) (cx : PrescCtx) : List Fail :=
  (List.range 1024).flatMap fun b =>
    let e := x.u b 1
    failIf ((!cx.split && bit e 5) || cx.cfg.slices ≤ bits e 4 0) .fieldRange (x.pos b)

/-- R77: PARTITION. -/
def Sect.partFails (x : Sect) : List Fail :=
  let ps := x.parts
  (ps.zipIdx).flatMap fun (r, p) =>
    let o := 16 * p
    let before := (ps.take p).foldl (fun m q => m ||| q.pin ||| q.cache ||| q.scratch) 0
    failIf (r.pin &&& before != 0 || (!r.active && r.pin != 0)) .fieldRange (x.pos o) ++
    failIf (r.cache &&& (before ||| r.pin) != 0 || (!r.active && r.cache != 0)) .fieldRange (x.pos (o + 4)) ++
    failIf (r.scratch &&& (before ||| r.pin ||| r.cache) != 0 || (!r.active && r.scratch != 0)) .fieldRange (x.pos (o + 8)) ++
    failIf (r.active && wayCount r.pin + wayCount r.cache + wayCount r.scratch < 2) .fieldRange (x.pos (o + 14))

/-- R103: the ceiling of pinned ways and the floor of cache ways. -/
def Sect.floorFails (x : Sect) : List Fail :=
  let ps := x.parts
  (ps.zipIdx).flatMap fun (r, p) =>
    let sum := (ps.take (p + 1)).foldl (fun n q => n + wayCount q.pin) 0
    failIf (28 < sum) .pinCeiling (x.pos (16 * p)) ++
    failIf (r.active && r.ordinary && wayCount r.cache < 4) .pinCeiling (x.pos (16 * p + 14))

/-- Pinned quota of the descriptors of a partition that the ceiling counts (R94, R95). -/
def pinSum (ds : List Desc) (p : Nat) : Nat :=
  ((ds.filter fun d => d.part == p && d.pers == 3 && d.quota < 2097152).map (·.quota)).sum

/-- R95: one descriptor against those before it; the offsets are those of its fields. -/
def descFails (cx : PrescCtx) (before : List Desc) (d : Desc) (at' : Nat → Nat) : List Fail :=
  let flag (c : Bool) (e : Err) : List Fail := failIf c e (at' 12)
  let p := cx.cfg.parts.getD d.part {}
  failIf (d.size == 0 || 524288 < d.size || 2 ^ 31 < d.base + d.size) .fieldRange (at' 4) ++
  failIf (2097152 < d.quota) .fieldRange (at' 8) ++ failIf (!p.active) .fieldRange (at' 11) ++
  failIf (before.any (d.overlaps ·)) .lensOverlap (at' 1) ++
  flag (d.mirror && !d.readOnly) .mirrorWritable ++
  flag (d.mirror && (!cx.split || d.append || d.reduction)) .fieldRange ++
  flag (d.append && (d.pers == 0 || d.readOnly || d.reduction)) .fieldRange ++
  flag (d.append && 128 ≤ (before.filter (·.append)).length) .fieldRange ++
  flag (d.append && d.quota < 128 * 2 ^ d.block) .fieldRange ++
  flag (d.reduction && (d.pers != 3 || d.readOnly)) .fieldRange ++
  flag (!d.append && (d.spill || d.block != 0)) .reservedSet ++
  failIf (d.pers == 3 && d.quota < 2097152 && 65536 * wayCount p.pin < pinSum (before ++ [d]) d.part) .pinCeiling (at' 8) ++
  failIf (before.any (·.slot == d.slot)) .busy (at' 0)

/-- R95: a LENS section. -/
def Sect.lensFails (x : Sect) (cx : PrescCtx) : List Fail :=
  (x.descs.zipIdx).flatMap fun (d, i) => descFails cx (x.descs.take i) d fun o => x.pos (8 + 16 * i + o)

/-- R204: a lens window overlaps a listed scratchpad window. -/
def overScratch (cfg : Cfg) (d : Desc) : Bool :=
  cfg.scratch.any fun (b, n) => rangesMeet (b * 4096) (n * 4096) (d.base * 2 ^ 21) (d.size * 2 ^ 21)

/-- R204: a LENS section. -/
def Sect.lensScratchFails (x : Sect) (cx : PrescCtx) : List Fail :=
  (x.descs.zipIdx).flatMap fun (d, i) => failIf (overScratch cx.cfg d) .lensOverlap (x.pos (8 + 16 * i + 1))

/-- R345: a MIRROR section against the stream's descriptors. -/
def Sect.mirrorFails (x : Sect) (ds : List Desc) : List Fail :=
  (x.mirrors.zipIdx).flatMap fun (m, i) =>
    failIf (!ds.any (fun d => d.slot == m.slot && d.mirror) || (x.mirrors.take i).any (·.slot == m.slot)) .fieldRange
      (x.pos (8 + 8 * i))

/-- R293: REGULATE. -/
def Sect.regFails (x : Sect) (cx : PrescCtx) : List Fail :=
  let r := x.regulate
  let zero (g : Nat) : Bool := (r.groups.getD g {}).weight == 0
  let weight (g : Nat) : Nat := x.pos (8 * g + 6)
  let minByte (i : Nat) : Nat := 10 * i / 8
  (r.groups.zipIdx).flatMap (fun (c, g) =>
    if c.weight != 0 then []
    else
      (match (List.range 5).find? (fun i => c.minOf i != 0) with
       | some i => [(Err.fieldRange, x.pos (8 * g + minByte i))]
       | none => failIf c.prot .fieldRange (weight g))) ++
  (((List.range 1024).filter fun a => (cx.cfg.route.getD a {}).present).flatMap fun a => (List.range 4).flatMap fun k =>
    let g := (r.agentBase.getD a 0 + k) % 64
    failIf (zero g) .fieldRange (weight g)) ++
  ((r.selfGroup.zipIdx).flatMap fun (g, p) =>
    failIf ((cx.cfg.parts.getD p {}).active && zero g) .fieldRange (weight g)) ++
  (r.urg.flatMap fun (g, en) => failIf (en && zero g) .fieldRange (weight g)) ++
  failIf (r.memCap == 0 || 1024 < r.memCap) .fieldRange (x.pos 1568)

/-- R300: admission in `RES` order. -/
def Sect.admitFails (x : Sect) (cx : PrescCtx) : List Fail :=
  let r := x.regulate
  ((List.range 5).findSome? fun i =>
    let g := 9 * deliverable i (opMHz cx.cfg.power.opReg) 8 2048 (if cx.split then 16 else 0) r.memCap / 10
    (((List.range 64).find? fun k => g < ((r.groups.take (k + 1)).map (·.minOf i)).sum).map fun k =>
      [(Err.oversubscribed, x.pos (8 * k + 10 * i / 8))])).getD []

/-- R264: a bell line of an owner lies in a lens of the set where it may not. -/
def bellIn (set : List Desc) (c : ChanCfg) : Bool :=
  set.any fun d => d.holds (c.bell * 128) && (d.reduction || d.part != c.owner)

/-- The two lens sets of R264. -/
def State.lensSets (s : State) : List Desc × List Desc :=
  (s.lens.slots.filterMap fun l => if l.inAct then l.desc else none,
   s.lens.slots.filterMap fun l => if l.inSh then l.desc else none)

/-- The sets that a prescription's bell lines are checked against (R264). -/
def State.bellSets (s : State) (full : Bool) (ds : Option (List Desc)) : List (List Desc) :=
  match ds with
  | some l => if full then [l] else [s.lensSets.1, l]
  | none => [s.lensSets.1, s.lensSets.2]

/-- R263: the channels and ranges of a CUE section; `s` gives the entries in force for a partial prescription. -/
def Sect.cueFails (x : Sect) (cx : PrescCtx) (s : State) (sets : List (List Desc)) : List Fail :=
  let act (p : Nat) : Bool := (cx.cfg.parts.getD p {}).active
  let cs := x.chans
  let rs := x.ranges
  (cs.zipIdx).flatMap (fun (c, i) =>
    let o := x.pos (24 * i)
    let old := (s.chan i).cfg
    failIf (c.en && !act c.owner) .fieldRange o ++
    failIf (c.en && (cs.take i).any (fun d => d.en && d.bell == c.bell)) .fieldRange o ++
    failIf (c.wdMode == 3 || (c.wdMode != 0 && c.wdLimit == 0)) .fieldRange (o + 15) ++
    failIf (c.en && (cx.cfg.scratch.any (fun (b, n) => b * 4096 ≤ c.bell * 128 && c.bell * 128 < (b + n) * 4096) ||
      sets.any (fun l => bellIn l c))) .lensOverlap o ++
    failIf (!cx.full && old.en && (old.owner != c.owner || old.bell != c.bell)) .busy o ++
    failIf (!cx.full && old.en && !c.en && s.anySlot i (· != .free)) .busy o) ++
  (rs.zipIdx).flatMap (fun (r, p) =>
    let o := x.pos (384 + 4 * p)
    failIf ((r.2 != 0 && !act p) || 512 < r.1 + r.2 ||
      (rs.take p).any (fun q => rangesMeet q.1 q.2 r.1 r.2 && q.2 != 0 && r.2 != 0)) .fieldRange o ++
    failIf (!cx.full && s.cue.ranges.getD p (0, 0) != r && s.cue.slots.any (fun a => a.st != .free && a.part == p)) .busy o)

/-- R273 for one record of the section, but for its reserved fields: the first code whose condition holds, with its
field. -/
def Sect.recFail (x : Sect) (cx : PrescCtx) (s : State) (k : Nat) : List Fail :=
  let o := 456 + 64 * k
  let g (i : Nat) : Nat := x.w (o + 8 * i)
  let slot := bits (g 0) 8 0
  let c := x.chans.getD (bits (g 0) 12 9) {}
  let act := bits (g 0) 16 13
  let part := bits (g 0) 20 17
  let tile := act == 0
  let range := act == 1 || act == 2 || act == 6
  let rl := bits (g 3) 13 0
  let dup := ((List.range k).any fun j => bits (x.w (456 + 64 * j)) 8 0 == slot)
  let at' (i : Nat) : Nat := x.pos (o + i)
  if g 2 % 128 != 0 then [(.align, at' 16)]
  else if g 4 % 128 != 0 then [(.align, at' 32)]
  else if !inRange x.ranges part slot then [(.fieldRange, at' 0)]
  else if !c.en || c.owner != part then [(.fieldRange, at' 1)]
  else if !(cx.cfg.parts.getD part {}).active then [(.fieldRange, at' 2)]
  else if tile && (rl == 0 || 8192 < rl) then [(.fieldRange, at' 24)]
  else if (tile && !tileOk (g 2) rl (bits (g 3) 29 14) (g 4)) || (range && 2 ^ 57 < g 2 + (g 5 + 1) * 128) then
    [(.fieldRange, at' 16)]
  else if dup || (!cx.full && (s.slot slot).st != .free) then [(.busy, at' 0)]
  else []

/-- R264 for a stream that carries a LENS section and no CUE section. -/
def Sect.lensBellFails (x : Sect) (s : State) : List Fail :=
  let bells := (s.cue.chans.map (·.cfg)).filter (·.en)
  (x.descs.zipIdx).flatMap fun (d, i) =>
    let hit := bells.filter fun c => d.holds (c.bell * 128)
    failIf (hit.any fun c => d.part != c.owner) .lensOverlap (x.pos (8 + 16 * i + 11)) ++
    failIf (d.reduction && !hit.isEmpty) .lensOverlap (x.pos (8 + 16 * i + 12))

/-- The first failure of one section's check. -/
def sectFail (l : List Sect) (t : Nat) (f : Sect → List Fail) : Option Fail := (sectOf l t).bind fun x => firstFail (f x)

/-- Stage 6: structure, in the order R356 names. `cur` has the lens sets after the swaps that wait (R362). -/
def State.stage6 (s cur : State) (cx : PrescCtx) (l : List Sect) : Option Fail :=
  let ds := (sectOf l 5).map Sect.descs
  let sets := cur.bellSets cx.full ds
  [sectFail l 1 (·.geometryFails cx), sectFail l 3 (·.prismFails cx), sectFail l 2 (·.partFails),
   sectFail l 2 (·.floorFails), sectFail l 5 (·.lensFails cx), sectFail l 5 (·.lensScratchFails cx),
   sectFail l 6 (·.mirrorFails (ds.getD [])), sectFail l 8 (·.regFails cx), sectFail l 8 (·.admitFails cx),
   sectFail l 9 (·.cueFails cx s sets),
   (if (sectOf l 9).isNone then sectFail l 5 (·.lensBellFails s) else none),
   sectFail l 9 (fun x => (List.range (bits (x.w 448) 9 0)).flatMap (x.recFail cx s))].findSome? id

/-! ### Stages 7 and 8 -/

/-- Stage 7: R352. -/
def State.stage7 (s : State) (l : List Sect) : Option Fail :=
  sectFail l 6 fun x => (x.mirrors.zipIdx).flatMap fun (m, i) =>
    failIf (s.pairLevelNow == 1 && (m.fill || m.verify)) .featureLevel (x.pos (8 + 8 * i))

/-- R120, R126: a descriptor against the slot it names. -/
def State.slotTaken (s : State) (d : Desc) : Bool :=
  match s.slotKind d.slot with
  | .active => (s.lensSlot d.slot).desc != some d
  | .retired => true
  | .shadow => s.ownCount d.slot != 0
  | .free => false

/-- R257: a window that is not `IDLE` stands in a slot that the set omits. -/
def State.windowOmitted (s : State) (slots : List Nat) : Bool :=
  s.wins.any fun x => x.st != .idle && !slots.contains x.lens

/-- The partition is under resilver (R464). -/
def State.resilvered (s : State) (p : Nat) : Bool := s.res.active && s.res.part == p

/-- Stage 8: live state. -/
def State.stage8 (s cur : State) (full : Bool) (l : List Sect) : Option Fail :=
  firstFail (
    ofSect l 5 [] (fun x =>
      failIf (!full && cur.windowOmitted (x.descs.map (·.slot))) .busy 7 ++
      (x.descs.zipIdx).flatMap fun (d, i) =>
        failIf (cur.slotTaken d) .busy (x.pos (8 + 16 * i)) ++ failIf (s.resilvered d.part) .busy (x.pos (8 + 16 * i + 11))) ++
    ofSect l 9 [] (fun x =>
      (x.chans.zipIdx).flatMap (fun (c, i) => failIf (s.resilvered c.owner) .busy (x.pos (24 * i))) ++
      (List.range (bits (x.w 448) 9 0)).flatMap (fun k =>
        failIf (s.resilvered (bits (x.w (456 + 64 * k)) 20 17)) .busy (x.pos (456 + 64 * k + 2)))))

/-- The lens sets once the swaps and changes that wait have been performed (R362). -/
def State.lensSettled (s : State) : State :=
  State.runLens s.lens.queue.length { s with lens := { s.lens with rebuild := false } }

/-- R356: every stage of a stream, in order: the prescription it holds, or the first failure. -/
def State.prescCheck (s : State) (b : List (BitVec 8)) : Except Fail Presc :=
  match s.stage1 b with
  | some e => .error e
  | none =>
    let full := uAt b 7 1 == 0
    match s.stage2 full with
    | some e => .error e
    | none =>
      match stage3 b full with
      | .error e => .error e
      | .ok l =>
        let cx : PrescCtx := { full := full, split := s.power.straps.split, index := s.power.straps.index,
                               cfg := if full then cfgOf l else s.cfg }
        let cur := s.lensSettled
        match ([stage4 b, stage5 l, s.stage6 cur cx l, s.stage7 l, s.stage8 cur full l].findSome? id) with
        | some e => .error e
        | none => .ok (prescOf full l)

end Sys2Proof.Machine
end

