-- ==== Sys2Proof/Machine/Presc.lean ====
section
/-! DEFINITION. Loading prescriptions: `GO`, the fetch, the outcome, acceptance and application, `CONFIG` and its drain,
and what the measurement block shows of it (R353 to R364, R473, R474). -/

namespace Sys2Proof.Machine

open Sys2Proof

/-! ### Measurement (R363, R364, R473, R474) -/

/-- A digest as 48 bytes: zero when there is none. -/
def digestOr (d : List (BitVec 8)) : List (BitVec 8) := if d.isEmpty then List.replicate 48 0 else d

/-- R473: the partition digest of a layout with these epochs and `WITHDRAWN` bits. -/
def partDigest (layout : List (BitVec 8)) (epochs : List (BitVec 32)) (withdrawn : List Bool) : List (BitVec 8) :=
  sha384 (layout ++ (List.range 16).flatMap fun p =>
    leBytes ((epochs.getD p 0).toNat + b2n (withdrawn.getD p false) * 2 ^ 32) 8)

/-- R473: the partition digest now; zero while no full prescription is in force. -/
def State.partDigestNow (s : State) : List (BitVec 8) :=
  if s.cfg.inForce then partDigest s.cfg.partBytes s.meas.epochs s.meas.withdrawn else []

/-- R473, R474: the partition digest that the release of the resilvered partition will set. -/
def State.releaseDigest (s : State) : List (BitVec 8) :=
  if s.cfg.inForce then partDigest s.cfg.partBytes (s.meas.epochs.modify s.res.part (· + 1)) (s.meas.withdrawn.set s.res.part true)
  else []

/-- Change the measurement block at one of the points of R474. -/
def State.setMeas (f : Meas → Meas) (s : State) : State := State.measBump { s with meas := f s.meas }

/-- What `PEND_DIGEST` shows (R474). -/
def State.pendShown (s : State) : List (BitVec 8) :=
  if s.presc.phase != .idle then s.presc.pendDigest.getD [] else if s.meas.trans then s.meas.pendPart else []

/-! ### The fetch (R353, R355, R364) -/

/-- R355: the order of the stream's sectors: those of the last 48 bytes first. DESIGN CHOICE (log entry 153): the rule does not say whether
they are read once more when the stream follows; the model reads each sector once. -/
def prescOrder (len : Nat) : List Nat :=
  let n := (len + 63) / 64
  let t := (max len 48 - 48) / 64
  (List.range n).drop t ++ List.range (min t n)

/-- The bytes fetched so far, in stream order; a sector not fetched reads as zeros here. -/
def PrescUnit.bytes (p : PrescUnit) : List (BitVec 8) :=
  ((List.range ((p.len + 63) / 64)).flatMap fun i =>
    sectorBytes (((p.sectors.find? (·.1 == i)).map (·.2.1)).getD 0)).take p.len

/-- Sector `i` has been fetched. -/
def PrescUnit.has (p : PrescUnit) (i : Nat) : Bool := p.sectors.any (·.1 == i)

/-- The stream header and the declared digest have been fetched (R364). -/
def PrescUnit.declared (p : PrescUnit) : Bool :=
  80 ≤ p.len && p.has 0 && ((prescOrder p.len).take ((p.len + 63) / 64 - (p.len - 48) / 64)).all p.has

/-- R355: fetch the next sector, or begin the checks. -/
def State.prescNext (s : State) : State :=
  match (prescOrder s.presc.len)[s.presc.sectors.length]? with
  | some i => s.readUc (s.presc.addr + 64 * i) 0 (.presc (64 * i))
  | none => { s with presc := { s.presc with phase := .check } }

/-- R353, R354, R474: a load begins. -/
def State.prescStart (s : State) : State :=
  State.prescNext (State.setMeas (fun (m : Meas) => { m with trans := true })
    { s with presc := { s.presc with phase := .fetch, valid := false, sectors := [], pendDigest := none, todo := none } })

/-- R353: what refuses a `GO`. -/
def State.goErr (s : State) : Err :=
  if s.presc.phase != .idle || s.power.state == .recovery || s.power.state == .init then .busy else .ok

/-- R354, R356, R364, R384: the load ends in refusal: the code and the offset are posted and recorded. -/
def State.prescRefuse (e : Err) (off : Nat) (s : State) : State :=
  let id := uAt s.presc.bytes 24 8
  let p : PrescUnit := { s.presc with phase := .idle, valid := true, code := e, offset := off, sectors := [],
                                      pendDigest := none, todo := none }
  let s := State.setMeas (fun (m : Meas) => { m with trans := s.res.active }) { s with presc := p }
  s.log { source := 0x016, addr := e.code + off * 2 ^ 16, detail := id }

/-- R363, R364: form the pending configuration digest once the header and the declared digest are here. -/
def State.prescPend (s : State) : State :=
  let p := s.presc
  if p.pendDigest.isSome || !p.declared then s
  else
    let d := p.bytes.drop (p.len - 48)
    let d := if uAt p.bytes 7 1 == 0 then d else sha384 (digestOr s.meas.cur ++ d)
    State.measBump { s with presc := { p with pendDigest := some d } }

/-- R355: a sector of the stream arrives. -/
def State.prescSector (off : Nat) (d : Sector) (poison : Bool) (s : State) : State :=
  if s.presc.phase != .fetch then s
  else if poison then s.prescRefuse .digest off
  else
    let p := s.presc
    let p := { p with sectors := p.sectors ++ [(off / 64, d, false)], kind := if off == 0 then bit (getBytes d 7 1) 0 else p.kind }
    (State.prescPend { s with presc := p }).prescNext

/-! ### Acceptance and `OK` (R358, R361, R363, R473, R474) -/

/-- R473: the partitions that an accepted prescription names. -/
def Presc.names (p : Presc) (n : Nat) : Bool :=
  p.full || ((p.lens.getD []).any (·.part == n)) || (p.hasCue && p.chans.any (fun c => c.owner == n)) ||
  p.recs.any (fun r => bits ((r.getD 0 0).toNat) 20 17 == n)

/-- R361, R363, R474: the load posts `OK`. -/
def State.prescOk (p : Presc) (s : State) : State :=
  let cur := s.presc.pendDigest.getD []
  let s := { s with presc := { s.presc with phase := .idle, valid := true, code := .ok, offset := 0, sectors := [],
                                            pendDigest := none, todo := none } }
  let s := State.setMeas (fun (m : Meas) =>
    { m with cur := cur, trans := s.res.active, edited := m.edited && !p.full,
             withdrawn := (m.withdrawn.zipIdx).map fun (w, n) => w && !p.names n }) s
  { s with meas := { s.meas with part := s.partDigestNow, pendPart := if s.res.active then s.releaseDigest else [] } }

/-- R261: a channel is enabled; its lag values run on (R281). DESIGN CHOICE (log entry 134): the count that the keeper has issued
last begins at `INIT_COUNT` too, so that counts queued in an earlier life of the channel are forgotten. -/
def Chan.enable (x : Chan) (c : ChanCfg) : Chan := { x with cfg := c, applied := c.init, issued := c.init, kept := none }

/-- R284: one channel entry of a partial prescription. -/
def Chan.reload (x : Chan) (c : ChanCfg) : Chan :=
  if x.cfg == c then x
  else if c.en && !x.cfg.en then x.enable c
  else if c.en then { x with cfg := c }
  else { x with cfg := c, kept := none }

/-- R275, R284: the CUE section of an accepted partial prescription. -/
def State.loadCue (p : Presc) (s : State) : State :=
  let cs := (s.cue.chans.zipIdx).map fun (x, i) => x.reload (p.chans.getD i {})
  let s := { s with cue := { s.cue with chans := cs, ranges := p.ranges } }
  (p.recs.foldl (fun t r => t.armRec r) s).dueSorted s.cue.due.length

/-- R361: an accepted partial prescription. -/
def State.acceptPartial (p : Presc) (s : State) : State :=
  let s := match p.reg with
    | some r => { s with reg := { s.reg with next := some r } }
    | none => s
  let s := if p.hasCue then s.loadCue p else s
  if p.lens.isNone && p.tint.isNone then s.prescOk p
  else
    State.acceptLens (.partialSets p.lens p.tint) { s with presc := { s.presc with phase := .apply, todo := some p } }

/-- R356, R358: the outcome of the checks. -/
def State.prescOutcome (s : State) : State :=
  match s.prescCheck s.presc.bytes with
  | .error (e, off) => s.prescRefuse e off
  | .ok p =>
    if p.full then { s with presc := { s.presc with phase := .apply, todo := some p } }
    else (s.acceptPartial p).walksGo

/-! ### Applying a full prescription (R360) -/

/-- The partition and class of a way: 0 pinned, 1 cache, 2 scratch. -/
def wayClass (ps : List PartRec) (w : Nat) : Option (Nat × Nat) :=
  (ps.zipIdx).findSome? fun (r, p) =>
    if wayIn r.pin w then some (p, 0) else if wayIn r.cache w then some (p, 1)
    else if wayIn r.scratch w then some (p, 2) else none

/-- R360 step 2: the bucket of a line is `HOME` under the new map. -/
def State.homeUnder (s : State) (p : Presc) (line : Nat) : Bool :=
  ((p.cfg.map[bucketOf line]?).map fun e => mapPos e == s.position).getD false

/-- R360 step 2, R414: the line stays valid; a replica does where the new set keeps its slot with `MIRROR`. -/
def State.survives (s : State) (p : Presc) (c : CLine) : Bool :=
  let kept := (p.lens.getD []).any fun d => d.mirror && c.lens == some d.slot
  wayClass s.cfg.parts c.way == wayClass p.cfg.parts c.way && (if c.rep then kept else s.homeUnder p c.line) && !c.resid

/-- R274, R280, R284: a full prescription's CUE section. Every slot is freed, one that was not `FREE` without an outcome. -/
def State.freshCue (p : Presc) (s : State) : State :=
  let cs := (s.cue.chans.zipIdx).map fun (x, i) =>
    let c := p.chans.getD i {}
    if c.en then x.enable c else { x with cfg := c, kept := none }
  let slots := s.cue.slots.map fun (a : ActSlot) => if a.st == .free then a else {}
  let s := { s with cue := { chans := cs, ranges := p.ranges, slots := slots } }
  (p.recs.foldl (fun t r => t.armRec r) s).dueSorted 0

/-- R257: `COLLECTED` windows are released. -/
def State.releaseCollected (s : State) : State :=
  { s with wins := s.wins.map fun (w : Window) => if w.st == .collected then { w with st := .idle, drained := false } else w }

/-- R118, R360 steps 2 and 3: the invalidation pass, which lists the dead lines it drops, and the loading of every section; the new map
alone gives the states of the buckets (R60), so that a replica of a bucket that is `HOME` under it is a line like any other. -/
def State.loadFull (p : Presc) (s : State) : State :=
  let s := s.lensSettled
  let s := { s with
    arr := (s.arr.filter fun (c : CLine) => s.survives p c).map fun (c : CLine) => { c with rep := c.rep && !s.homeUnder p c.line },
    lens := ((s.arr.filter fun (c : CLine) => c.dead && !s.survives p c).foldl (fun (t : State) (c : CLine) => t.noteDead c.line) s).lens,
    hand := { s.hand with gone := [] } }
  let s := { s with cfg := p.cfg, reg := { s.reg with cfg := p.reg.getD {}, next := none } }
  (((s.loadSets (p.lens.getD []) (p.tint.getD 0)).freshCue p).releaseCollected).sendVers

/-- R22, R360 step 4: enter `SERVICE` and grant credits. -/
def State.enterService (s : State) : State :=
  State.grantCredits { s with power := { s.power with state := .service, cfgDrain := false, idle := 0 } }

/-- R360: an accepted full prescription is in force. -/
def State.applyFull (p : Presc) (s : State) : State :=
  let s := (s.loadFull p).prescOk p
  let s := State.enterService { s with presc := { s.presc with cfgReq := false } }
  s.grantRound

/-! ### `CFG_REQ` (R359) -/

/-- R359: what refuses a request for `CONFIG`. -/
def State.cfgRefused (s : State) : Bool :=
  s.windowsOpen || s.hand.buckets.any (fun (h : Handover) => !h.relayOnly) || s.presc.phase != .idle || s.res.active

/-- R359 steps 1 to 3: the drain begins, and the credits of the requests that wait in a port's buffer stay with the slice; `tidy` voids
every open provisional entry, now and as others open. -/
def State.cfgDrainBegin (s : State) : State :=
  State.tidy { s with fab := s.fab.mapIdx fun p c => { c with keptReq := c.keptReq + s.parked p }, power := { s.power with cfgDrain := true }, presc := { s.presc with cfgReq := true } }

/-- R359: what refuses `CFG_REQ` = 1, a load that the same write has begun among it (`go`). -/
def State.cfgReqErr (go : Bool) (s : State) : Err :=
  if s.power.state == .service && !s.power.cfgDrain && (go || s.cfgRefused) then .busy else .ok

/-- R359, R371: `CFG_REQ` becomes 1; outside `SERVICE` the field holds it and nothing else happens. -/
def State.cfgReqSet (s : State) : State :=
  if s.power.state == .service && !s.power.cfgDrain then s.cfgDrainBegin
  else { s with presc := { s.presc with cfgReq := true } }

/-- R359: `CFG_REQ` becomes 0: the slice returns to `SERVICE`, or gives up a drain in progress. -/
def State.cfgReqUnset (s : State) : State :=
  let was := s.presc.cfgReq
  let s := { s with presc := { s.presc with cfgReq := false } }
  if s.power.cfgDrain then s.enterService
  else if s.power.state == .config && was && s.cfg.inForce && !(s.presc.phase == .apply && (s.presc.todo.map (·.full)).getD false)
  then s.enterService else s

/-- R353, R359, R366: a write of `PRESC_CTL` with this `GO` and this value of `CFG_REQ`, where it has one: a refused field stays,
the other takes effect, and the first refusal is the answer (log entry 64). -/
def State.prescCtl (go : Bool) (req : Option Bool) (s : State) : State :=
  let e := if go then s.goErr else .ok
  let e' := if req == some true then s.cfgReqErr (go && e == .ok) else .ok
  let s := s.csrp (if e == .ok then e' else e) 0
  let s := if go && e == .ok then s.prescStart else s
  match req with
  | some true => if e' == .ok then s.cfgReqSet else s
  | some false => s.cfgReqUnset
  | none => s

/-- R359: every accepted request has completed, no entry is left, and every dirty line has been written back. -/
def State.cfgDrained (s : State) : Bool :=
  s.power.cfgDrain && s.quiet && s.txns.isEmpty && s.drainLeft.2.isEmpty && s.wbb.isEmpty

/-! ### The commands -/

/-- `GO` (R353). -/
def execPrescGo (src : Csrp) (s : State) : Res := mgmtWrite (.prescGo src) src (State.prescCtl true none) s

/-- R358: the outcome of a load is posted, or the stream is accepted. -/
def execPrescOutcome (s : State) : Res :=
  if s.fclkRuns && s.presc.phase == .check then finish (s.fresh0.prescOutcome).tidy else s.notDue

/-- R360: a full prescription has been applied, in `CONFIG` (log entry 63). -/
def execFullPrescApplyComplete (s : State) : Res :=
  match s.presc.todo with
  | some p =>
    if s.fclkRuns && s.power.state == .config && s.presc.phase == .apply && p.full then finish (s.fresh0.applyFull p)
    else s.notDue
  | none => s.notDue

/-- `CFG_REQ` = 1 (R359). -/
def execCfgReq (src : Csrp) (s : State) : Res := mgmtWrite (.cfgReq src) src (State.prescCtl false (some true)) s

/-- `CFG_REQ` = 0 (R359). -/
def execCfgReqClear (src : Csrp) (s : State) : Res := mgmtWrite (.cfgReqClear src) src (State.prescCtl false (some false)) s

/-- R359 step 6: the drain has ended and the slice is in `CONFIG`. -/
def execConfigDrainComplete (s : State) : Res :=
  if s.fclkRuns && s.cfgDrained then
    let t := s.fresh0
    finish { t with power := { t.power with state := .config, cfgDrain := false } }
  else s.notDue

end Sys2Proof.Machine
end

