-- ==== Sys2Proof/Machine/LensCmds.lean ====
section
/-! DEFINITION. Commands on the lens sets: swaps, rebuilds, edits of the shadow set, and the thrash monitor (R105, R121,
R123, R124, R372). -/

namespace Sys2Proof.Machine

open Sys2Proof

/-- `LENS_SWAP` from a mailbox (R123). -/
def State.swapCmd (m : MbCmd) (s : State) : State := (s.acceptLens (.swap (.mailbox m.window))).walksGo

/-- A swap waits and no rebuild is in progress. -/
def State.swapDue (s : State) : Bool :=
  !s.lens.rebuild && (match s.lens.queue with | .swap _ :: _ => true | _ => false)

/-- R123, R124: the swap point of the oldest waiting swap; changes behind it go on up to the next one. -/
def State.swapPoint (s : State) : State :=
  match s.lens.queue with
  | [] => s
  | o :: rest =>
    let s := State.lensOp o { s with lens := { s.lens with queue := rest } }
    (s.runToSwap rest.length).walksGo

/-- A partial prescription's LENS or TINT section still waits to replace the shadow set. -/
def State.partialWaits (s : State) : Bool := s.lens.queue.any fun o => match o with | .partialSets .. => true | _ => false

/-- R121, R361: the rebuild has finished. -/
def State.rebuilt (s : State) : State :=
  let ends := s.presc.phase == .apply && !s.partialWaits
  let s := { s with lens := { s.lens with rebuild := false }, regs := { s.regs with editBusy := false } }
  let s := (s.runToSwap s.lens.queue.length).walksGo
  match s.presc.todo with
  | some p => if ends && !p.full then s.prescOk p else s
  | none => s

/-! ### Edits of the shadow set (R372) -/

/-- The shadow set in slot order. -/
def State.shadowSet (s : State) : List Desc := s.lensSets.2

/-- R372: the shadow set after an edit: the staged descriptor of a slot inserted, or the slot removed. -/
def State.edited (s : State) (insert : Bool) (slot : Nat) : List Desc :=
  let l := s.lensSlot slot
  let rest := s.shadowSet.filter fun d => d.slot != slot
  if insert then
    let d := { Desc.ofWords l.stage0.toNat l.stage1.toNat with slot := slot }
    rest.filter (·.slot < slot) ++ [d] ++ rest.filter (slot < ·.slot)
  else rest

/-- R372: the checks of stages 5, 6 and 8 on the resulting set. -/
def State.editCheck (s : State) (insert : Bool) (slot : Nat) : Err :=
  let l := s.lensSlot slot
  let ds := s.edited insert slot
  let cx : PrescCtx := { full := false, split := s.power.straps.split, index := s.power.straps.index, cfg := s.cfg }
  let bells := (s.cue.chans.map (·.cfg)).filter (·.en)
  if insert && !Desc.resvOk l.stage0.toNat l.stage1.toNat then .reservedSet
  else match firstFail ((ds.zipIdx).flatMap fun (d, i) => descFails cx (ds.take i) d fun o => 16 * i + o) with
    | some (e, _) => e
    | none =>
      if ds.any (overScratch s.cfg) || bells.any (fun c => bellIn s.lensSets.1 c || bellIn ds c) then .lensOverlap
      else if s.windowOmitted (ds.map (·.slot)) || ds.any (fun d => s.slotTaken d || s.resilvered d.part) then .busy
      else .ok

/-- R372, R474: an accepted edit. -/
def State.editApply (ds : List Desc) (s : State) : State :=
  let s := (s.replaceShadow (some ds) none false)
  let s := { s with regs := { s.regs with editBusy := true } }
  if s.meas.edited then s else s.setMeas fun (m : Meas) => { m with edited := true }

/-- R371, R372: what refuses a write of `SHADOW_EDIT`. -/
def State.editErr (s : State) : Err :=
  if s.meas.locked then .locked else if s.regs.editBusy || s.presc.phase != .idle then .busy else .ok

/-- R371, R372: a write of `SHADOW_EDIT`. -/
def State.shadowEdit (insert : Bool) (slot : Nat) (s : State) : State :=
  match s.editErr with
  | .ok =>
    let s := (s.csrp .ok 0).lensSettled
    let s := { s with regs := { s.regs with editReg := slot + (if insert then 1 else 2) * 256 } }
    let e := s.editCheck insert slot
    let s := { s with regs := { s.regs with editCode := e } }
    if e == .ok then s.editApply (s.edited insert slot) else s
  | e => s.csrp e 0

/-! ### The thrash monitor (R105) -/

/-- R105: the end of a window of 65,536 lookups; the lookups that came after them begin the next. -/
def State.thrashEnd (p : Nat) (s : State) : State :=
  let t := s.lens.thrash.getD p {}
  let r := s.part p
  let next : Thrash := { lookups := t.nextLookups, hits := t.nextHits, evicts := t.nextEvicts }
  let s := { s with lens := { s.lens with thrash := s.lens.thrash.set p next } }
  if t.hits / 64 < r.thrashHit && r.thrashEvict < t.evicts / 64 then (s.count Ev.thrash (some p)).pwStatus p 1 else s

/-! ### The commands -/

/-- `LENS_SWAP` from a mailbox (R123). -/
def execLensSwap (m : MbCmd) (s : State) : Res := mailboxRow (.lensSwap m) 0x0C m State.swapCmd s

/-- A swap that waited takes effect (R123). -/
def execSwapPoint (s : State) : Res := if s.fclkRuns && s.swapDue then finish (s.fresh0.swapPoint) else s.notDue

/-- The rebuild of the shadow set finishes (R121). -/
def execShadowRebuildComplete (s : State) : Res :=
  if s.fclkRuns && s.lens.rebuild then finish (s.fresh0.rebuilt) else s.notDue

/-- A window of 65,536 ordinary lookups of a partition ends (R105). -/
def execThrashWindowEnd (part : Nat) (s : State) : Res :=
  if s.fclkRuns && 65536 ≤ (s.lens.thrash.getD part {}).lookups then finish (s.fresh0.thrashEnd part)
  else s.notDue

/-- `SHADOW_EDIT` with `OP` = 1 (R372). -/
def execShadowEditInsert (src : Csrp) (slot : Nat) (s : State) : Res :=
  mgmtWrite (.shadowEditInsert src slot) src (State.shadowEdit true slot) s

/-- `SHADOW_EDIT` with `OP` = 2 (R372). -/
def execShadowEditRemove (src : Csrp) (slot : Nat) (s : State) : Res :=
  mgmtWrite (.shadowEditRemove src slot) src (State.shadowEdit false slot) s

end Sys2Proof.Machine
end

