-- ==== Sys2Proof/Machine/Range.lean ====
section
/-! DEFINITION. The range commands of the mailbox: `FLUSH_RANGE`, `INVALIDATE_RANGE`, `DISCARD_RANGE`, `ZERO_RANGE` and
`UNPIN` (R91, R109, R111, R113, R174, R256, R378, R414, R492). -/

namespace Sys2Proof.Machine

open Sys2Proof

/-- R378: every byte of the range lies in an active lens of the partition. -/
def State.inLensesOf (s : State) (p base bytes : Nat) : Bool :=
  let l := s.lens.slots.filterMap fun (x : LensSlot) => match x.desc with
    | some d => if x.inAct && d.part == p then some (d.base * 2 ^ 21, d.size * 2 ^ 21) else none
    | none => none
  runsCover l base (base + bytes) (l.length + 1)

/-- R113: the range overlaps an active `READ_ONLY` or `MIRROR` lens. -/
def State.overReadOnly (s : State) (base bytes : Nat) : Bool :=
  s.lens.slots.any fun (x : LensSlot) => match x.desc with
    | some d => x.inAct && (d.readOnly || d.mirror) && rangesMeet (d.base * 2 ^ 21) (d.size * 2 ^ 21) base bytes
    | none => false

/-- R378, R256, R113: the checks of a range command. -/
def State.rangeCheck (s : State) (k : RangeKind) (window : Option Nat) (base bytes : Nat) : Err :=
  if base % 128 != 0 || bytes % 128 != 0 then .align
  else if bytes == 0 || 2 ^ 52 < base + bytes then .fieldRange
  else if (window.map fun p => !s.inLensesOf p base bytes).getD false then .partitionAccess
  else if k != .flush && s.wins.any (fun x => x.guards base bytes) then .busy
  else if k == .zero && s.overReadOnly base bytes then .locked
  else .ok

/-- R378, R379: a range command from a mailbox; it acts once the walks accepted before it have no line left (R151). -/
def State.rangeCmd (k : RangeKind) (m : MbCmd) (s : State) : State :=
  let base := bits (m.arg 0) 51 0
  let bytes := bits (m.arg 1) 52 0
  match s.rangeCheck k m.window base bytes with
  | .ok =>
    let lo := base / 128
    let hi := (base + bytes) / 128
    let r : RangeRun :=
      { id := s.nextId, kind := k, window := m.window, lo := lo, hi := hi,
        lines := ((List.range (hi - lo)).filter fun i => s.homed (lo + i)).length }
    State.tidy (State.walksGo { s with ranges := s.ranges ++ [r], nextId := s.nextId + 1 })
  | e => s.mbRefuse m.window e

/-- R174: the snoops of a range command are answered and its write-backs acknowledged. -/
def State.rangeDue (s : State) (r : RangeRun) : Bool :=
  !r.held && s.rangeQuiet r.id fun line => r.lo ≤ line && line < r.hi

/-- R109, R111, R379: a range command completes. -/
def State.rangeEnd (r : RangeRun) (s : State) : State :=
  let s := { s with ranges := s.ranges.filter fun (x : RangeRun) => x.id != r.id }
  let s := if r.kind == .discard then s.resetRings (r.lo * 128) ((r.hi - r.lo) * 128) else s
  s.mbDone r.window .done [BitVec.ofNat 64 r.lines]

/-- `FLUSH_RANGE` (R174). -/
def execFlushRange (m : MbCmd) (s : State) : Res := mailboxRow (.flushRange m) 0x01 m (State.rangeCmd .flush) s
/-- `INVALIDATE_RANGE` (R174). -/
def execInvalidateRange (m : MbCmd) (s : State) : Res := mailboxRow (.invalidateRange m) 0x02 m (State.rangeCmd .invalidate) s
/-- `DISCARD_RANGE` (R174). -/
def execDiscardRange (m : MbCmd) (s : State) : Res := mailboxRow (.discardRange m) 0x03 m (State.rangeCmd .discard) s
/-- `ZERO_RANGE` (R91). -/
def execZeroRange (m : MbCmd) (s : State) : Res := mailboxRow (.zeroRange m) 0x04 m (State.rangeCmd .zero) s
/-- `UNPIN` (R89). -/
def execUnpin (m : MbCmd) (s : State) : Res := mailboxRow (.unpin m) 0x0B m (State.rangeCmd .unpin) s

/-- R174: the range command of a mailbox completes. -/
def execRangeOpComplete (window : Option Nat) (s : State) : Res :=
  match s.ranges.find? (fun (r : RangeRun) => r.window == window) with
  | some r => if s.fclkRuns && s.rangeDue r then finish (s.fresh0.rangeEnd r).tidy else s.notDue
  | none => s.notDue

end Sys2Proof.Machine
end

