-- ==== Sys2Proof/Machine/Handover.lean ====
section
/-! DEFINITION. `BUCKET_HANDOVER`: a bucket's move to a new home (R67 to R74). -/

namespace Sys2Proof.Machine

open Sys2Proof

/-- R46, R58: a position of the geometry in force. -/
def State.positionOk (s : State) (p : Nat) : Bool :=
  if s.power.straps.split then bits p 4 0 < s.cfg.slices else p < s.cfg.slices

/-- Roles of R67. -/
inductive Role where
  | claim | release | commit | relay
deriving DecidableEq, Repr

/-- R68, R70: the bucket's state allows the role. A `RELAY` names this slice's own twin. -/
def State.roleOk (s : State) (r : Role) (b peer : Nat) : Bool :=
  let st := s.bucketSt b
  let busy := s.hand.buckets.any (fun h => h.bucket == b && (h.relayOnly || h.phase != 0))
  !busy && (match r with
    | .claim => st == .none || st == .relay
    | .release => st == .home || st == .relay
    | .commit => st == .incoming
    | .relay => st == .none && s.twin == some peer)

/-- R68: a window in use holds a line of the bucket; every plane holds lines of every bucket (R55, R241). -/
def State.windowsUsed (s : State) : Bool :=
  s.wins.any fun x => x.st == .armed || x.st == .opened || x.st == .sealed || x.st == .final

/-- R68: the first code whose condition holds. The bucket of a `COMMIT` is itself one of those that are `INCOMING`, so the limit
of 8 is no bound on it (log entry 49). DESIGN CHOICE (log entry 148): R68 names no role beside a misaligned `LIST_ADDR`; the model tests
it for `RELEASE` and `COMMIT`, which alone use the address (R67). -/
def State.handCheck (s : State) (r : Role) (b peer addr count : Nat) : Err :=
  if !s.roleOk r b peer || !s.positionOk peer || (r == .commit && 2 ^ 20 < count) then .fieldRange
  else if (r == .release || r == .commit) && addr % 64 != 0 then .align
  else if r != .commit && 8 ≤ (s.hand.buckets.filter fun (h : Handover) => !h.relayOnly).length then .busy
  else if r == .release && s.windowsUsed then .busy
  else .ok

/-- Set a bucket's map entry to a position (R57). -/
def State.setMap (b pos : Nat) (s : State) : State :=
  { s with cfg := { s.cfg with map := s.cfg.map.set b pos }, hand := { s.hand with gone := s.hand.gone.filter (· != b) } }

/-- The bucket leaves its handover state. -/
def State.dropHand (b : Nat) (s : State) : State :=
  { s with hand := { s.hand with buckets := s.hand.buckets.filter fun (h : Handover) => h.bucket != b } }

/-- R70: the replicas of a bucket are dropped, and those still being filled are not installed. -/
def State.dropReplicas (b : Nat) (s : State) : State :=
  let s := { s with mrs := s.mrs.map fun (m : MissReg) => if m.rep && bucketOf m.line == b then { m with alloc := false } else m }
  (s.arr.filter fun (c : CLine) => c.rep && bucketOf c.line == b).foldl (fun t c => t.dropLine c) s

/-- R62, R72, R74, R85, R97: a request that the hold queue kept reaches its lookup at its new home. A notice applies whether its agent
is down by now or not. -/
def State.heldReq (w : WaitReq) (s : State) : State :=
  if w.op.isNotice then (s.runAs (some w.grp) (some w.q.agent)).homeReq w else s.lookup w true

/-- R70: the home's own lines of a bucket are no replicas: what the slice fetched while it relayed the bucket is now its copy. -/
def State.ownReplicas (b : Nat) (s : State) : State :=
  { s with arr := s.arr.map fun (c : CLine) => if bucketOf c.line == b then { c with rep := false } else c,
           mrs := s.mrs.map fun (m : MissReg) => if bucketOf m.line == b then { m with rep := false } else m }

/-- R70 step 5, R72 to R74: the list is read, the slice is the bucket's home, and its held requests are served, the notices of listed
lines first, then those that waited for the hold queue. DESIGN CHOICE (log entry 133): replicas of the bucket that the slice holds from
its time in `RELAY` stay, as ordinary lines of their home. -/
def State.commitDone (h : Handover) (s : State) : State :=
  let b := h.bucket
  let here (w : WaitReq) : Bool := bucketOf w.q.line == b
  let mine : List WaitReq := s.hand.hold.filter here ++ s.waiting.filter fun (w : WaitReq) => here w && w.cause == WaitCause.handover
  let listed (w : WaitReq) : Bool := w.op.isNotice && h.crossing.contains (w.q.line, w.q.agent)
  let s := ((s.dropHand b).setMap b s.position).ownReplicas b
  let s := { s with
    waiting := s.waiting.filter fun (w : WaitReq) => !(here w && w.cause == WaitCause.handover),
    hand := { s.hand with
      hold := s.hand.hold.filter fun (w : WaitReq) => !here w,
      listed := s.hand.listed ++ h.crossing.map fun (x : Nat × Nat) => (x.1, x.2, b) } }
  let s := s.mbDone none .done []
  let s := (mine.filter listed).foldl (fun (t : State) (w : WaitReq) => t.heldReq w) s
  let s := h.dead.foldl (fun t a => t.loseListed a) s
  ((mine.filter fun (w : WaitReq) => !listed w).foldl (fun (t : State) (w : WaitReq) => t.heldReq w) s).tidy

/-- R29, R70 step 5: a sector of the list arrives; the entries past `LIST_COUNT` are not part of it. DESIGN CHOICE (log entry 48): a
poisoned sector is no list, and none of its entries is taken; the command ends with the `DONE` that R377 gives it. -/
def State.listBack (b idx : Nat) (d : Sector) (poison : Bool) (s : State) : State :=
  match s.hand.buckets.find? (fun h => h.bucket == b && h.incoming) with
  | none => s
  | some h =>
    let n := min 8 (h.count - idx * 8)
    let ents := if poison then [] else (List.range n).map fun i =>
      let w := (d.toNat >>> (64 * i)) % 2 ^ 64
      (bits w 44 0, bits w 54 45)
    let h' := { h with crossing := h.crossing ++ ents }
    let s := s.setHand b fun _ => h'
    if s.memOut.any (fun r => match r.use with | .list c _ => c == b | _ => false) ||
       s.memWait.any (fun r => match r.use with | .list c _ => c == b | _ => false) then s
    else s.commitDone h'

/-- R67, R70: an accepted role. -/
def State.handRun (r : Role) (b peer addr count : Nat) (s : State) : State :=
  match r with
  | .claim =>
    State.mbDone none .done []
      { s with hand := { s.hand with buckets := s.hand.buckets ++ [{ bucket := b, incoming := true, peer := peer }] } }
  | .relay => (s.setMap b peer).mbDone none .done []
  | .release =>
    let h : Handover := { bucket := b, incoming := false, peer := peer, listAddr := addr, relayOnly := s.bucketSt b == .relay }
    State.tidy { s with hand := { s.hand with buckets := s.hand.buckets ++ [h] } }
  | .commit =>
    let s := s.setHand b fun h => { h with phase := 1, listAddr := addr, count := count }
    if count == 0 then
      (match s.hand.buckets.find? (fun h => h.bucket == b) with
       | some h => s.commitDone h
       | none => s)
    else (List.range ((count + 7) / 8)).foldl (fun t i => t.readUc (addr + 64 * i) 0 (.list b i)) s

/-- R67, R68, R379: `BUCKET_HANDOVER`. -/
def State.handCmd (m : MbCmd) (s : State) : State :=
  let b := bits (m.arg 0) 11 2
  let peer := bits (m.arg 0) 17 12
  let count := bits (m.arg 0) 38 18
  let addr := bits (m.arg 1) 51 0
  let r : Role := match bits (m.arg 0) 1 0 with | 0 => .claim | 1 => .release | 2 => .commit | _ => .relay
  match s.handCheck r b peer addr count with
  | .ok => s.handRun r b peer addr count
  | e => s.mbRefuse m.window e

/-- `CLAIM` (R70). -/
def execHandoverClaim (m : MbCmd) (s : State) : Res :=
  mailboxRow (.handoverClaim m) 0x0F (m.force 0 1 0 0) State.handCmd s
/-- `RELEASE` (R70). -/
def execHandoverRelease (m : MbCmd) (s : State) : Res :=
  mailboxRow (.handoverRelease m) 0x0F (m.force 0 1 0 1) State.handCmd s
/-- `COMMIT` (R70). -/
def execHandoverCommit (m : MbCmd) (s : State) : Res :=
  mailboxRow (.handoverCommit m) 0x0F (m.force 0 1 0 2) State.handCmd s
/-- `RELAY` (R70). -/
def execHandoverRelay (m : MbCmd) (s : State) : Res :=
  mailboxRow (.handoverRelay m) 0x0F (m.force 0 1 0 3) State.handCmd s

/-- R70: the release of a bucket can complete. -/
def State.releaseDue (s : State) (h : Handover) : Bool :=
  if h.relayOnly then !s.span.relays.any (fun r => bucketOf r.line == h.bucket)
  else !h.incoming && h.phase == 2 &&
    !s.memOut.any (fun r => match r.use with | .list c _ => c == h.bucket | _ => false) &&
    !s.memWait.any (fun r => match r.use with | .list c _ => c == h.bucket | _ => false)

/-- R70: the bucket leaves this slice, for `RELAY` when the new home is its twin and it was the home, else for `NONE`, even where
`PEER` names this slice itself; the requests that waited meet its new state. -/
def State.releaseEnd (h : Handover) (s : State) : State :=
  let s := ((s.dropReplicas h.bucket).dropHand h.bucket).setMap h.bucket h.peer
  let none? := h.peer == s.position || (h.relayOnly && s.twin == some h.peer)
  let s := if none? then { s with hand := { s.hand with gone := h.bucket :: s.hand.gone } } else s
  s.mbDone none .done [BitVec.ofNat 64 h.crossing.length]

/-- R70: a release completes. -/
def execHandoverReleaseComplete (bucket : Nat) (s : State) : Res :=
  match s.hand.buckets.find? (fun h => h.bucket == bucket && !h.incoming) with
  | some h => if s.fclkRuns && s.releaseDue h then finish (s.fresh0.releaseEnd h) else s.notDue
  | none => s.notDue

end Sys2Proof.Machine
end

