-- ==== Sys2Proof/Machine/Memory.lean ====
section
/-! DEFINITION. The memory ports: read data, acknowledgements and credits, and the requests that waited for them
(R28 to R33, R129 to R136, R318, R355). -/

namespace Sys2Proof.Machine

open Sys2Proof

/-- R54, R418, R459: what a flit on a memory port meets; `CONFIG` and `TEST` serve it, for the loader works there. -/
def State.memGate (s : State) : Gate :=
  if s.power.rstLow || s.power.state == .init then .drop
  else if s.asleep || s.power.relock then .hold
  else if s.power.state == .recovery then .recover else .serve

/-- The read outstanding under a tag (R32). -/
def State.readAt (s : State) (port mtag : Nat) : Option MemReq :=
  s.memOut.find? fun r => r.port == port && r.mtag == mtag && r.mopc ≤ 2

/-- The write outstanding under a tag (R32). -/
def State.writeAt (s : State) (port mtag : Nat) : Option MemReq :=
  s.memOut.find? fun r => r.port == port && r.mtag == mtag && 3 ≤ r.mopc

/-- R32: a read is outstanding until its last flit arrives. -/
def State.takeRead (r : MemReq) (s : State) : State :=
  { s with memOut := if r.left ≤ 1 then s.memOut.erase r
      else s.memOut.map fun (x : MemReq) => if x == r then { x with left := r.left - 1 } else x }

/-- R129, R132 to R135: a sector of a fill reaches its line's register, and the line's waiters go on. -/
def State.fillFlit (line i : Nat) (x : Sec) (s : State) : State :=
  let s := { s with mrs := s.mrs.map fun (m : MissReg) =>
    if m.line == line && m.st != MrState.discard then
      (if i == 0 then { m with loGot := m.loGot <|> some x } else { m with hiGot := m.hiGot <|> some x })
    else m }
  (s.fillUp line).pumpLine line

/-- R130, R134: the last flit of a discarded speculative read frees its register. -/
def State.specDone (line : Nat) (s : State) : State :=
  match s.mrs.find? (fun (m : MissReg) => m.line == line && m.st == .discard) with
  | some m => { s with mrs := s.mrs.erase m }
  | none => s

/-- Give a flit of read data to whoever asked for it; the flit is the last of `r` when `r.left` is 1. -/
def State.readBack (r : MemReq) (f : MemFlit) (s : State) : State :=
  match r.use with
  | .fillLine line => (s.fillFlit line f.sector (Sec.clean f.data f.poison)).tidy.walksGo
  | .presc off => s.prescSector off f.data f.poison
  | .tdc cls =>
    (match s.xlt.fetchOf cls with
     | some g => ((s.measure 9 (some r.part)).fetchBack g f.data f.poison).walksGo
     | none => s)
  | .list b i => (s.listBack b i f.data f.poison).walksGo
  | .operand id =>
    ((s.setTxn id fun (t : Txn) =>
      if f.sector == 0 then { t with ownLo := some (f.data, f.poison) } else { t with ownHi := some (f.data, f.poison) }).tidy).walksGo
  | _ => if r.spec && r.left ≤ 1 then s.specDone (addrLine r.addr) else s

/-- A read-data flit whose tag is outstanding arrives. -/
def State.memFlit (i : Instr) (r : MemReq) (f : MemFlit) (s : State) : State :=
  match s.memGate with
  | .drop => s
  | .hold => s.keepFor i
  | g =>
    -- R130: a correctable error on the data of a discarded read is not logged
    let s := (s.act 12 1).sign (0x10 + f.port) 0x44 (0x4 + b2n f.poison * 2 ^ 6) (some r.part)
    let (ok, s) := if r.spec && r.use == .plain && f.flips == 1 then (true, s) else s.flitCheck f.flips (8 + f.port) 0
    if !ok then s
    else
      let s := s.takeRead r
      let s := if r.mopc != 1 || r.left == 2 then s.measure 7 (some r.part) else s
      if g == .recover then s else s.readBack r f

/-- R131, R134: fills that waited for the write-back buffer are installed, and everything that waited for room goes on. -/
def State.retryFills (s : State) : State :=
  let stuck := s.mrs.filter s.stuckFill
  (stuck.foldl (fun t m => t.fillUp m.line) s).pumpAll.tidy.walksGo

/-- R32, R131: the write of `r` is acknowledged. -/
def State.acked (r : MemReq) (s : State) : State :=
  let s := { s with memOut := s.memOut.erase r }
  match r.use with
  | .wback line i => (s.wbAck line i).retryFills
  | _ => s.tidy.walksGo

/-- An acknowledgement whose tag is outstanding arrives. -/
def State.wackFlit (i : Instr) (r : MemReq) (flips : Nat) (s : State) : State :=
  match s.memGate with
  | .drop => s
  | .hold => s.keepFor i
  | g =>
    let (ok, s) := s.flitCheck flips (8 + r.port) 0
    if !ok then s
    else if g == .recover then { s with memOut := s.memOut.erase r } else s.acked r

/-- R32, R417, R424: the controller returns credits, and requests that waited are issued; none is while FCLK stands. -/
def State.memCredits (port req wdata : Nat) (s : State) : State :=
  if s.power.rstLow then s
  else
    let s := { s with mem := s.mem.modify port fun c => { c with req := c.req + req, wdata := c.wdata + wdata } }
    if !s.fclkRuns then s else s.memFlush.walksGo

/-! ### The commands -/

/-- A read-data flit (R31). -/
def execMemReadData (f : MemFlit) (s : State) : Res :=
  match s.readAt f.port f.mtag with
  | some r => finish (s.fresh0.memFlit (.memReadData f) r f)
  | none => s.notDue

/-- The sector of a TDC fetch returns (R318). -/
def execTdcFetchComplete (f : MemFlit) (s : State) : Res :=
  match s.readAt f.port f.mtag with
  | some r =>
    (match r.use with
     | .tdc _ => finish (s.fresh0.memFlit (.tdcFetchComplete f) r f)
     | _ => s.notDue)
  | none => s.notDue

/-- A write acknowledgement (R32). -/
def execWack (port mtag flips : Nat) (s : State) : Res :=
  match s.writeAt port mtag with
  | some r => finish (s.fresh0.wackFlit (.wack port mtag flips) r flips)
  | none => s.notDue

/-- R136: the requests that wait restart their lookups. -/
def execWaitingRequestRestart (s : State) : Res :=
  let s := s.fresh0
  finish (if s.gate == .serve then (s.restart).tidy.walksGo else s)

/-- The controller returns credits (R32). -/
def execMemCreditReturn (port req wdata : Nat) (s : State) : Res := finish (s.fresh0.memCredits port req wdata)

end Sys2Proof.Machine
end

