-- ==== Sys2Proof/Machine/Resilver.lean ====
section
/-! DEFINITION. `RESILVER`: the drain, the zeroing and the release of a partition (R329, R378, R464 to R468, R474). -/

namespace Sys2Proof.Machine

open Sys2Proof

/-- R378, R468: the first code whose condition holds. -/
def State.resCheck (s : State) (p phase : Nat) : Err :=
  let mine := s.res.active && s.res.part == p
  if !(s.part p).active || phase != (if mine then s.res.phase else 0) || (mine && phase == 0) then .fieldRange
  else if (s.res.active && !mine) || (phase == 0 && s.presc.phase != .idle) then .busy
  else .ok

/-! ### The drain (R329, R465) -/

/-- R379: what a range command of a mailbox has done so far: the lines whose operation has begun. -/
def State.rangeDone (s : State) (r : RangeRun) : Nat :=
  if r.held then 0
  else r.lines - (s.txns.filter fun (t : Txn) => !t.started && (match t.kind with | .rangeOp k i => k < 5 && i == r.id | _ => false)).length

/-- The command of mailbox `p` works on the window, or waits for it. -/
def Window.serves (x : Window) (p : Nat) : Bool :=
  x.finMbs.contains (some p) || (x.arming.isSome && x.armMb == some p) ||
  x.after.any fun o => match o with | .release mb .. | .rearm mb .. => mb == some p | .collect _ => false

/-- R379: the results of the command of window `p` that a resilver ends: fills issued, lines acted on or collected, and of a command on
a window its generation, or the ready word that its release leaves (R257). -/
def State.endRes (p : Nat) (s : State) : List Word :=
  match s.mbWalk (some p), s.ranges.find? (fun (r : RangeRun) => r.window == some p) with
  | some w, _ => if w.fillsLines then [0, BitVec.ofNat 64 w.fills] else []
  | none, some r => [BitVec.ofNat 64 (s.rangeDone r)]
  | none, none =>
    match s.wins.find? (fun (x : Window) => (x.col.map (·.mb)) == some (some (some p))) with
    | some x => [BitVec.ofNat 64 x.colLines]
    | none =>
      match s.wins.find? (·.serves p) with
      | some x => [BitVec.ofNat 64 (if x.finMbs.contains (some p) then { x with st := WinState.idle }.ready else x.gen.toNat)]
      | none => []

/-- R329, R379: the command of window `p` that runs ends with `ABORTED` and its results. -/
def State.endCommand (p : Nat) (s : State) : State :=
  let res := s.endRes p
  let s := { s with ranges := s.ranges.filter fun (r : RangeRun) => r.window != some p,
                    cue := { s.cue with postWait := s.cue.postWait.filter fun (x : PostReq) => x.mb != some p } }
  if (s.mbs.getD p {}).st == 1 then s.mbDone (some p) .aborted res else s

/-- R329: the walks of the partition end, with the lines they have not begun. -/
def State.endWalks (p : Nat) (s : State) : State :=
  { s with walks := s.walks.filter fun (w : Walk) => w.part != p,
           txns := s.txns.filter fun (t : Txn) => !(t.part == p && !t.started && (match t.kind with
             | .fillOp _ => true
             | .rangeOp k _ => k < 5
             | _ => false)) }

/-- R274, R329: the partition's action slots are freed. -/
def State.endSlots (p : Nat) (s : State) : State :=
  let mine (a : ActSlot) : Bool := a.st != .free && a.part == p
  { s with cue := { s.cue with
      due := s.cue.due.filter fun (i : Nat) => !(mine (s.slot i)),
      slots := s.cue.slots.map fun (a : ActSlot) => if mine a then {} else a } }

/-- R284, R462, R469: the partition's channels are disabled and its slot range is cleared, and no beat of theirs leaves; a ring that
waits is aborted. -/
def State.endChans (p : Nat) (s : State) : State :=
  let (mine, rest) := s.cue.beats.partition fun (b : BeatQ) => b.part == p
  let s := mine.foldl (fun t b => match b.src with
    | some (port, txid, tag) => t.respond port txid tag .aborted
    | none => t) s
  { s with cue := { s.cue with
      beats := rest, ranges := s.cue.ranges.set p (0, 0),
      chans := s.cue.chans.map fun (x : Chan) =>
        if x.cfg.owner == p then
          { x with cfg := { x.cfg with en := false }, since := 0, pace := 0, stall := false, wdFired := false, kept := none }
        else x } }

/-- R257: a window of the partition is released; the requests that wait for it are aborted. -/
def State.dropWin (w : Nat) (s : State) : State :=
  let x := s.win w
  let s := (x.collects).foldl (fun t (port, txid, tag) => t.respond port txid tag .aborted) s
  let s := (s.folds.filter fun (f : FoldRun) => f.src == w || f.dst == w).foldl
    (fun t f => t.respond f.port f.txid f.tag .aborted) s
  let s := (s.releaseWin w).setWin w fun y =>
    { y with arming := none, armMb := none, finSlots := [], finMbs := [], col := none, after := [] }
  { s with folds := s.folds.filter fun (f : FoldRun) => !(f.src == w || f.dst == w),
           txns := (s.txns.filter fun (t : Txn) => t.kind != .rangeOp 5 w || t.started).map fun (t : Txn) =>
             if t.win == some w then { t with win := none } else t }

/-- A window, or the arming of one, belongs to the partition. -/
def Window.ofPart (x : Window) (p : Nat) : Bool :=
  (x.st != .idle && x.part == p) || (x.arming.map (·.part)) == some p

/-- R257: every window of the partition is released. -/
def State.dropWins (p : Nat) (s : State) : State :=
  (List.range 64).foldl (fun t w => if (t.win w).ofPart p then t.dropWin w else t) s

/-- R465 step 2: replicas and scratch lines go without write-back. -/
def State.dropScratch (p : Nat) (s : State) : State :=
  { s with arr := s.arr.filter fun (c : CLine) => !(c.part == p && (c.rep || c.resid || wayIn (s.part p).scratch c.way)) }

/-- R465, R474: the drain is accepted. -/
def State.resDrain (p : Nat) (s : State) : State :=
  let s := ((((s.endCommand p).endWalks p).endSlots p).endChans p).dropWins p
  let s := s.voidEnts fun e => e.part == p
  let s := s.setXlt fun x => { x with staged := x.staged.filter fun (r : FaultRec) => r.part != p }
  let s := (s.tdcInvalPart p).dropScratch p
  let s := { s with res := { active := true, part := p, phase := 0, running := some 1, lines := 0 } }
  let s := s.setMeas fun (m : Meas) => { m with trans := true, pendPart := s.releaseDigest }
  ((s.postsGo s.cue.postWait.length).tidy).unstall.walksGo

/-- R465: the partition's notices that the slice has accepted have delivered their data. -/
def State.noticesDone (s : State) : Bool :=
  !s.txns.any (fun t => t.part == s.res.part && (match t.kind with | .req op _ _ => op.isNotice | _ => false)) &&
  !s.waiting.any (fun w => w.q.part == s.res.part && w.op.isNotice)

/-- R465 step 3: the walk has ended, every snoop is answered, and every write-back is accepted. -/
def State.drainDone (s : State) : Bool :=
  s.res.active && s.res.running == some 1 && s.drainLeft.2.isEmpty &&
  !s.txns.any (fun t => t.kind == .rangeOp 7 0) && s.noticesDone &&
  !s.txns.any (fun t => t.kind.isEvict && t.part == s.res.part) && !s.wbb.any (fun e => e.part == s.res.part)

/-! ### The zeroing (R466) -/

/-- The ways of a partition's masks. -/
def PartRec.ways (r : PartRec) : List Nat := (List.range 32).filter fun w => wayIn r.pin w || wayIn r.cache w || wayIn r.scratch w

/-- R466: the lens slots of the partition are `FREE`. -/
def State.freeLenses (p : Nat) (s : State) : State :=
  let mine (l : LensSlot) : Bool := (l.desc.map (·.part)) == some p
  { s with lens := { s.lens with deadDrop := [], thrash := s.lens.thrash.set p {},
                                 slots := s.lens.slots.map fun (l : LensSlot) => if mine l then {} else l } }

/-- R466: the partition's counters and histogram bins are zero. -/
def State.zeroCounts (p : Nat) (s : State) : State :=
  { s with
    ctr := s.ctr.mapIdx fun i v =>
      match s.cfg.ctrs[i]? with
      | some c => if c.partEn && c.part == p then 0 else v
      | none => v,
    hist := s.hist.mapIdx fun i v =>
      match s.cfg.hists[i / 16]? with
      | some h => if h.partEn && h.part == p then 0 else v
      | none => v }

/-- R466: the window's header is the partition's and is cleared. -/
def State.clearsWin (s : State) (w : Nat) : Bool :=
  let x := s.win w
  x.st == .idle && x.arming.isNone && x.part == s.res.part

/-- R466: what the zero phase leaves, with fresh check bits in all that it has written; `RES0` counts the lines of the ways it has
cleared. -/
def State.resZeroed (s : State) : State :=
  let p := s.res.part
  let ways := (s.part p).ways
  let s := { s with upsets := s.upsets.filter fun (j : Inject) => !(j.kind < 4 && ways.contains j.way),
                    bad := s.bad.filter fun (d : Damage) => match d with
                      | .cfg (.header w) _ => !s.clearsWin w
                      | _ => true }
  let s := { s with arr := s.arr.filter fun (c : CLine) => !(ways.contains c.way),
                    wins := s.wins.map fun (x : Window) =>
                      if x.st == WinState.idle && x.arming.isNone && x.part == p then {} else x,
                    pws := s.pws.modify p fun (x : PWin) => { x with status := 0, xltDesc := 0 },
                    hot := { s.hot with staged := [], epochNo := 0 } }
  let s := ((s.freeLenses p).zeroCounts p).hotClear
  let s := { s with res := { s.res with phase := 2, running := none } }
  s.mbDone none .done [BitVec.ofNat 64 (65536 * ways.length)]

/-! ### The release (R467, R474) -/

/-- R467: the release, whole in its acceptance. -/
def State.resRelease (s : State) : State :=
  let p := s.res.part
  let s := { s with res := { part := p } }
  let s := s.setMeas fun (m : Meas) =>
    { m with epochs := m.epochs.modify p (· + 1), withdrawn := m.withdrawn.set p true, pendPart := [],
             trans := s.presc.phase != .idle }
  let s := { s with meas := { s.meas with part := s.partDigestNow } }
  s.mbDone none .done []

/-- R378: `RESILVER`. -/
def State.resCmd (m : MbCmd) (s : State) : State :=
  let p := bits (m.arg 0) 3 0
  let phase := bits (m.arg 0) 5 4
  match s.resCheck p phase with
  | .ok =>
    (match phase with
     | 0 => s.resDrain p
     | 1 => { s with res := { s.res with running := some 2 } }
     | _ => s.resRelease)
  | e => s.mbRefuse m.window e

/-! ### The commands -/

/-- `RESILVER`, drain (R465). -/
def execResilverDrain (m : MbCmd) (s : State) : Res := mailboxRow (.resilverDrain m) 0x0D (m.force 0 5 4 0) State.resCmd s
/-- `RESILVER`, zero (R466). -/
def execResilverZero (m : MbCmd) (s : State) : Res := mailboxRow (.resilverZero m) 0x0D (m.force 0 5 4 1) State.resCmd s
/-- `RESILVER`, release (R467). -/
def execResilverRelease (m : MbCmd) (s : State) : Res := mailboxRow (.resilverRelease m) 0x0D (m.force 0 5 4 2) State.resCmd s

/-- R465 step 3: the drain completes. -/
def execResilverDrainComplete (s : State) : Res :=
  if s.fclkRuns && s.drainDone then
    let t := s.fresh0
    finish (State.mbDone none .done [BitVec.ofNat 64 t.res.lines] { t with res := { t.res with phase := 1, running := none } })
  else s.notDue

/-- R466: the zeroing completes. -/
def execResilverZeroComplete (s : State) : Res :=
  if s.fclkRuns && s.res.active && s.res.running == some 2 then finish (s.fresh0.resZeroed) else s.notDue

end Sys2Proof.Machine
end

