-- ==== Sys2Proof/Machine/Test.lean ====
section
/-! DEFINITION. The test state and the selection of the debug port (R52, R392, R472, R486, R487). -/

namespace Sys2Proof.Machine

open Sys2Proof

/-! ### `TEST` (R392, R486, R487) -/

/-- R366, R392, R486: the answer to a write of `TEST_CTL`. -/
def State.testErr (req : Bool) (s : State) : Err :=
  if s.meas.locked then .locked else if req && s.power.state != .config then .busy else .ok

/-- R392, R486: `TEST_REQ` = 1 enters `TEST`. A load that is being applied goes on after `TEST` (log entry 63). -/
def State.testEnter (s : State) : State :=
  State.setMeas (fun (m : Meas) => { m with testUsed := true }) { s with power := { s.power with state := .test } }

/-- R429, R487: the initialisation pass: every tag and every directory entry is invalid, and written afresh. -/
def State.initPass (s : State) : State :=
  { s with arr := [], dir := [], rot := [], upsets := s.upsets.filter fun (j : Inject) => 6 ≤ j.kind }

/-- R246: a window is idle, its generation kept. -/
def Window.idle (x : Window) : Window :=
  { x with st := .idle, drained := false, finReq := false, finalising := false, arming := none, armMb := none,
           finSlots := [], finMbs := [], col := none, after := [] }

/-- R487: `TEST_EXIT`: the slice is initialised and returns to `CONFIG`. -/
def State.testLeave (s : State) : State :=
  let s := s.initPass
  { s with wins := s.wins.map Window.idle, power := { s.power with state := .config }, ctrBit := 0,
           test := { s.test with wir := .bypass, mbRun := false } }

/-- R366, R392: a write of `TEST_CTL`: `TEST_REQ` acts where it is not refused, and `TEST_EXIT` acts in `TEST`. -/
def State.testCtl (req exit : Bool) (s : State) : State :=
  let e := s.testErr req
  let s := s.csrp e 0
  if exit && s.power.state == .test then s.testLeave
  else if req && e == .ok then s.testEnter else s

/-- Bits [21:0] of `ID` (R370). -/
def State.idWord (s : State) : Nat :=
  let t := s.power.straps
  t.index + t.half * 2 ^ 6 + b2n t.primary * 2 ^ 7 + b2n t.split * 2 ^ 8 + s.position * 2 ^ 9 +
  s.fuses.stepping * 2 ^ 15 + s.fuses.featLevel * 2 ^ 18 + s.pairLevelNow * 2 ^ 20

/-! ### The commands -/

/-- A new `DBG_SEL` (R52). -/
def execDbgSelChange (sel : Nat) (s : State) : Res :=
  let s := s.fresh0
  finish { s with power := { s.power with dbgSel := sel } }

/-- `TEST_REQ` (R486). -/
def execTestReq (src : Csrp) (s : State) : Res := mgmtWrite (.testReq src) src (State.testCtl true false) s
/-- `TEST_EXIT` (R487). -/
def execTestExit (src : Csrp) (s : State) : Res := mgmtWrite (.testExit src) src (State.testCtl false true) s
end Sys2Proof.Machine
end

