-- ==== Sys2Proof/Machine/Regs.lean ====
section
/-! DEFINITION. The register map: what every register reads as, what a write of it does, and the access rules
(R41, R42, R366 to R393, R470 to R472). -/

namespace Sys2Proof.Machine

open Sys2Proof

/-! ### Reading the blocks -/

/-- R421: `SLICE_STATE`. -/
def SliceState.code : SliceState → Nat
  | .init => 1 | .config => 2 | .service => 3 | .sleep => 4 | .off => 4 | .recovery => 5 | .test => 6

/-- `SPAN_WIDTH` (R370). -/
def State.spanWidth (s : State) : Nat := widthCode s.spanLanes

/-- R370: identity and status. -/
def State.readIdent (o : Nat) (s : State) : Option Nat :=
  match o with
  | 0x00 => some s.idWord
  | 0x08 => some s.fuses.dieId.toNat
  | 0x10 => some (s.power.state.code + s.power.op * 2 ^ 3 + s.power.strapErr * 2 ^ 6 + s.spanWidth * 2 ^ 8 +
      b2n s.regs.pkgSet * 2 ^ 10 + b2n s.elog.fatal * 2 ^ 11 + b2n s.res.active * 2 ^ 12 + s.res.part * 2 ^ 13 +
      s.res.phase * 2 ^ 17)
  | 0x18 => some s.regs.status.toNat
  | _ => none

/-- R354: `PHASE`. -/
def PrescPhase.code : PrescPhase → Nat
  | .idle => 0 | .fetch => 1 | .check => 2 | .apply => 3

/-- R354: `PRESC_STAT`. -/
def State.prescStat (s : State) : Nat :=
  let p := s.presc
  p.phase.code + b2n p.valid * 2 ^ 2 + b2n p.kind * 2 ^ 3 + p.code.code * 2 ^ 4 + p.offset % 2 ^ 16 * 2 ^ 20 +
  b2n (s.power.state == .config) * 2 ^ 36

/-- R371: global control. -/
def State.readGlobal (o : Nat) (s : State) : Option Nat :=
  match o with
  | 0x100 => some s.regs.pkgIdent
  | 0x108 => some s.regs.specCtl.toNat
  | 0x110 => some s.xlt.lfsr.toNat
  | 0x118 => some s.presc.addr
  | 0x120 => some s.presc.len
  | 0x128 => some (b2n s.presc.cfgReq * 2)
  | 0x130 => some s.prescStat
  | 0x138 => some s.regs.fwdWd
  | 0x140 => some s.regs.editReg
  | 0x148 => some (b2n s.regs.editBusy + s.regs.editCode.code * 2)
  | _ => none

/-- R373: a mailbox, at an offset from its `MB_CMD`. -/
def Mailbox.read (m : Mailbox) (r : Nat) : Option Nat :=
  if r == 0 then some 0
  else if r ≤ 0x40 then some (m.args.getD (r / 8 - 1) 0).toNat
  else if r == 0x48 then
    some (m.st + b2n m.isErr * 2 ^ 2 + m.code * 2 ^ 3 + m.seq * 2 ^ 19 + m.opcode * 2 ^ 27)
  else if r ≤ 0x68 then some (m.res.getD ((r - 0x50) / 8) 0).toNat
  else none

/-- R382: a word of a log entry. -/
def LogEnt.word (e : LogEnt) (i : Nat) : Nat :=
  match i with
  | 0 => e.cls + b2n e.valid * 2 ^ 2 + e.source * 2 ^ 3 + e.part * 2 ^ 15 + e.agent * 2 ^ 19 + e.port * 2 ^ 29 +
      e.chan * 2 ^ 33 + e.seq * 2 ^ 36
  | 1 => e.addr
  | 2 => e.detail
  | _ => e.repeats

/-- R381: the error logs and the fault ring. -/
def State.readElog (o : Nat) (s : State) : Option Nat :=
  let e := s.elog
  match o with
  | 0x800 => some (e.nextSeq + b2n e.lostCorr * 2 ^ 16 + b2n e.lostUncorr * 2 ^ 17 + b2n e.lostNotice * 2 ^ 18)
  | 0x808 => some s.xlt.fqBase
  | 0x810 => some (s.xlt.fqLog + b2n s.xlt.fqEn * 2 ^ 4)
  | 0x818 => some s.xlt.fqProd
  | 0x820 => some s.xlt.fqCons
  | 0x828 => some s.xlt.fqHold
  | _ => if 0x900 ≤ o && o < 0xD00 then some ((e.ents.getD ((o - 0x900) / 32) {}).word (o / 8 % 4)) else none

/-- Eight numbers as the bytes of a word. -/
def packBytes (l : List Nat) : Nat := ((l.zipIdx).map fun (n, i) => n * 256 ^ i).sum

/-- Fields of `w` bits from bit 0 upward. -/
def packFields (w : Nat) (l : List Nat) : Nat := ((l.zipIdx).map fun (n, i) => n * 2 ^ (w * i)).sum

/-- R347: a group word. -/
def GrpCfg.word (c : GrpCfg) : Nat := packFields 10 c.min + c.weight * 2 ^ 50 + b2n c.prot * 2 ^ 58

/-- R385: regulation, before the rule that it reads zero without a full prescription. -/
def State.readRegul (o : Nat) (s : State) : Option Nat :=
  let c := s.reg.cfg
  let urg (i : Nat) : Nat := let x := c.urg.getD i (0, false); x.1 + b2n x.2 * 2 ^ 7
  if o < 0x1200 then some (s.grp ((o - 0x1000) / 8)).word
  else if o < 0x1400 then
    let g := (o - 0x1200) / 8
    some (packFields 10 ((List.range 5).map fun r => (s.grp g).eff (s.reg.scale.getD r {}) r) + s.level g * 2 ^ 50 +
      b2n (s.reg.debtor.getD g false) * 2 ^ 52)
  else if o < 0x1428 then
    let x := s.reg.scale.getD ((o - 0x1400) / 8) {}
    some (x.dNow + x.gNow * 2 ^ 11 + x.s * 2 ^ 22 + x.sp * 2 ^ 33 + x.cause * 2 ^ 44 + x.gen * 2 ^ 47)
  else match o with
    | 0x1440 => some c.memCap
    | 0x1448 => some (s.lens.tintAct.toNat + s.lens.tintSh.toNat * 2 ^ 32)
    | 0x1450 => some (packBytes (c.selfGroup.take 8))
    | 0x1458 => some (packBytes ((c.selfGroup.drop 8).take 8))
    | 0x1460 => some (packBytes ((List.range 8).map urg))
    | 0x1468 => some (packBytes ((List.range 8).map fun i => urg (i + 8)))
    | 0x1470 => some (packFields 2 s.reg.urgLvl)
    | _ => if 0x1800 ≤ o && o < 0x1C00 then some (packBytes ((c.agentBase.drop (o - 0x1800)).take 8)) else none

/-- R119: `STATE` of a slot. -/
def SlotKind.code : SlotKind → Nat
  | .free => 0 | .active => 1 | .shadow => 2 | .retired => 3

/-- R386: the staging copy is what the slot's descriptor words show. -/
def State.stagedSlot (s : State) (i : Nat) : Bool := s.slotKind i == .free || s.slotKind i == .shadow

/-- R386: a register of a slot's lens view. A `FREE` slot shows no descriptor, though accesses in flight may still carry it. -/
def State.readSlot (i r : Nat) (s : State) : Nat :=
  let l := s.lensSlot i
  let l : LensSlot := if s.slotKind i == .free then { stage0 := l.stage0, stage1 := l.stage1 } else l
  let d := l.desc.getD {}
  match r with
  | 0 => if s.stagedSlot i then l.stage0.toNat else d.word0
  | 1 => if s.stagedSlot i then l.stage1.toNat else d.word1
  | 2 =>
    let succ := if l.inSh && !l.inAct then s.succOf i else none
    (s.slotKind i).code + b2n (l.inAct && l.inSh) * 2 ^ 2 + (if l.inAct then s.lineCount i else s.ownCount i) * 2 ^ 3 +
      b2n l.stopped * 2 ^ 25 + succ.getD 0 * 2 ^ 26 + b2n succ.isSome * 2 ^ 34 + s.ownCount i * 2 ^ 35
  | _ => if d.append then l.head + l.tail * 2 ^ 27 else 0

/-- R348: the words of a channel entry. -/
def ChanCfg.word (c : ChanCfg) (i : Nat) : Nat :=
  match i with
  | 0 => b2n c.en + c.owner * 2 + c.bell * 2 ^ 5
  | 1 => c.init.toNat + c.lagLimit * 2 ^ 32 + c.wdMode * 2 ^ 56
  | _ => c.wdLimit

/-- R266: the slice keeps an enabled channel. -/
def State.keeps (s : State) (c : Nat) : Bool := (s.chan c).cfg.en && s.keeper c

/-- R387: a register of a channel, by its word. -/
def State.readChan (c r : Nat) (s : State) : Option Nat :=
  let x := s.chan c
  match r with
  | 3 => some (x.applied.toNat + (if s.keeps c then x.issued.toNat else x.applied.toNat) * 2 ^ 32)
  | 4 => some (x.since + x.pace * 2 ^ 28 + b2n (s.lagging c) * 2 ^ 56 + b2n x.stall * 2 ^ 57 + b2n (s.keeps c) * 2 ^ 58)
  | _ => if r < 3 then some (x.cfg.word r) else none

/-- R387: `SLOT_REC0` to `SLOT_REC7` of a slot. -/
def State.slotRec (i k : Nat) (s : State) : Nat :=
  let a := s.slot i
  if a.st == .free then 0 else (a.words.getD k 0).toNat

/-- R280, R387: `SLOT_OUT0` to `SLOT_OUT2` of a slot. -/
def State.slotOut (i k : Nat) (s : State) : Nat :=
  match (s.slot i).out with
  | none => 0
  | some x =>
    match k with
    | 0 => x.code + b2n x.isErr * 2 ^ 16 + x.tag * 2 ^ 17 + b2n x.stalled * 2 ^ 33 + 2 ^ 34
    | 1 => x.fire.toNat
    | _ => x.mark

/-- R387: `ARM_STAT`. -/
def armStatWord (e : Err) (slot : Nat) (disarm : Bool) : Nat := e.code + slot * 2 ^ 16 + b2n disarm * 2 ^ 25

/-- R387: `SLOT_STATE`. -/
def SlotState.code : SlotState → Nat
  | .free => 0 | .armed => 1 | .due => 2 | .running => 3

/-- R387: the cue block. -/
def State.readCue (o : Nat) (s : State) : Option Nat :=
  let r := s.regs
  if o < 0x4400 then s.readChan ((o - 0x4000) / 64) (o / 8 % 8)
  else if o < 0x4480 then
    let x := s.cue.ranges.getD ((o - 0x4400) / 8) (0, 0)
    some (x.1 + x.2 * 2 ^ 9)
  else if 0x4500 ≤ o && o < 0x4540 then some 0
  else if 0x4580 ≤ o && o < 0x45C0 then some (s.slotRec r.slotSel ((o - 0x4580) / 8))
  else if 0x45C0 ≤ o && o < 0x45D8 then some (s.slotOut r.slotSel ((o - 0x45C0) / 8))
  else if 0x4600 ≤ o && o < 0x4680 then
    let k := (o - 0x4600) / 8
    some (packFields 2 ((List.range 32).map fun j => (s.slot (32 * k + j)).st.code))
  else match o with
    | 0x4540 => some (armStatWord r.armCode r.armSlot r.disarm)
    | 0x4548 => some 0
    | 0x4550 => some r.slotSel
    | _ => none

/-- R350: a counter record. -/
def CtrCfg.word (c : CtrCfg) : Nat := c.event + c.part * 2 ^ 10 + b2n c.partEn * 2 ^ 14 + c.mode * 2 ^ 15 + c.thresh * 2 ^ 32
/-- R350: a histogram record. -/
def HistCfg.word (c : HistCfg) : Nat := c.src + c.part * 2 ^ 8 + b2n c.partEn * 2 ^ 12
/-- R350: a debug group record. -/
def DbgCfg.word (c : DbgCfg) : Nat := c.source + c.part * 2 ^ 16 + b2n c.bound * 2 ^ 20

/-- R389: counters, histograms and hot-page counting. -/
def State.readCtrs (o : Nat) (s : State) : Option Nat :=
  let h := s.hot
  if o < 0x6180 then some (s.ctr.getD ((o - 0x6000) / 8) 0).toNat
  else if o < 0x6300 then some (s.cfg.ctrs.getD ((o - 0x6180) / 8) {}).word
  else if o < 0x6320 then some (s.cfg.hists.getD ((o - 0x6300) / 8) {}).word
  else if 0x6400 ≤ o && o < 0x6600 then some (s.hist.getD ((o - 0x6400) / 8) 0).toNat
  else match o with
    | 0x6800 => some h.base
    | 0x6808 => some (b2n h.en + h.mode * 2 + h.thresh * 2 ^ 2)
    | 0x6810 => some h.epoch
    | 0x6818 => some h.ringBase
    | 0x6820 => some (h.ringLog + b2n h.ringEn * 2 ^ 4)
    | 0x6828 => some h.prod
    | 0x6830 => some h.cons
    | 0x6838 => some h.epochNo
    | _ => none

/-- R390: power. -/
def State.readPower (o : Nat) (s : State) : Option Nat :=
  let p := s.power
  let c := s.cfg.power
  match o with
  | 0x7000 => some (p.op + p.duty * 2 ^ 3 + p.cap * 2 ^ 7 + b2n p.capUnreach * 2 ^ 19 + p.est * 2 ^ 20)
  | 0x7008 => some (c.opReg + b2n c.sleepEn * 2 ^ 3 + c.sleepDelay * 2 ^ 4 + b2n c.offEn * 2 ^ 28)
  | _ => none

/-- R392: debug and test. -/
def State.readDebug (o : Nat) (s : State) : Option Nat :=
  if o < 0xC040 then some (s.cfg.dbg.getD ((o - 0xC000) / 8) {}).word
  else if o == 0xC100 then some (b2n (s.power.state == .test)) else none

/-- A digest as the word `k` of its six. -/
def digestWord (d : List (BitVec 8)) (k : Nat) : Nat := packBytes (((d.drop (8 * k)).take 8).map fun (b : BitVec 8) => b.toNat)

/-- R393, R472: measurement. -/
def State.readMeas (o : Nat) (s : State) : Option Nat :=
  let m := s.meas
  if 0xE040 ≤ o && o < 0xE070 then some (digestWord m.cur ((o - 0xE040) / 8))
  else if 0xE080 ≤ o && o < 0xE0B0 then some (digestWord s.pendShown ((o - 0xE080) / 8))
  else if 0xE0C0 ≤ o && o < 0xE0F0 then some (digestWord m.part ((o - 0xE0C0) / 8))
  else match o with
    | 0xE000 => some (b2n m.trans + b2n m.locked * 2 + b2n m.edited * 4 + b2n m.testUsed * 8 + m.gen * 2 ^ 16)
    | 0xE008 => some 0
    | 0xE010 => some (s.power.straps.index + s.power.straps.half * 2 ^ 6 + s.fuses.stepping * 2 ^ 7)
    | 0xE018 => some s.fuses.dieId.toNat
    | 0xE020 => some (s.fuses.stepping + s.fuses.featLevel * 2 ^ 3 + Config.fuseBits.toNat * 2 ^ 5)
    | 0xE028 => some (packFields 1 ((List.range 8).map fun d => b2n (s.cfg.dbg.getD d {}).bound) + b2n m.testUsed * 2 ^ 8 +
        b2n m.edited * 2 ^ 9)
    | _ => none

/-- R369: a register of a management-only block. -/
def State.readMgmt (o : Nat) (s : State) : Option Nat :=
  if o < 0x100 then s.readIdent o
  else if o < 0x400 then s.readGlobal o
  else if o < 0x800 then (s.mbs.getD 16 {}).read (o - 0x400)
  else if o < 0x1000 then s.readElog o
  else if o < 0x2000 then (s.readRegul o).map fun n => if s.cfg.inForce then n else 0
  else if o < 0x4000 then some (s.readSlot ((o - 0x2000) / 32) (o / 8 % 4))
  else if o < 0x6000 then s.readCue o
  else if o < 0x7000 then s.readCtrs o
  else if o < 0x8000 then s.readPower o
  else if o < 0xE000 then s.readDebug o
  else s.readMeas o

/-! ### Partition windows (R391, R470, R471) -/

/-- R470: `COARSE_K` in effect. -/
def PartRec.k (r : PartRec) : Nat := if r.coarseK == 0 then 10 else r.coarseK

/-- R470: a count as an isolated partition sees it. -/
def PartRec.coarse (r : PartRec) (v : Nat) : Nat := if r.isolated then v - v % 2 ^ r.k else v

/-- R471, R391: `PWR_VIEW`. -/
def State.pwrView (p : Nat) (s : State) : Nat := if (s.part p).isolated then (s.pws.getD p {}).pwrView else s.power.est

/-- R391: a register of window `p`, when the partition is active. -/
def State.readWin (p r : Nat) (s : State) : Option Nat :=
  let c := s.part p
  let w := s.pws.getD p {}
  let owns (i : Nat) : Bool := (s.chan i).cfg.owner == p
  let shown := inRange s.cue.ranges p w.slotSel
  if 0x40 ≤ r && r < 0xB0 then (s.mbs.getD p {}).read (r - 0x40)
  else if 0xC0 ≤ r && r < 0x100 then some 0
  else if 0x118 ≤ r && r < 0x158 then some (if shown then s.slotRec w.slotSel ((r - 0x118) / 8) else 0)
  else if 0x158 ≤ r && r < 0x170 then some (if shown then s.slotOut w.slotSel ((r - 0x158) / 8) else 0)
  else if 0x170 ≤ r && r < 0x1F0 then
    let i := (r - 0x170) / 8
    let x := s.chan i
    some (if owns i then x.applied.toNat + x.since * 2 ^ 32 + b2n (s.lagging i) * 2 ^ 60 + b2n x.stall * 2 ^ 61 +
      b2n (s.keeps i) * 2 ^ 62 else 0)
  else if 0x200 ≤ r && r < 0x280 then
    let h := s.cfg.hists.getD w.selHist {}
    some (if h.partEn && h.part == p then c.coarse (s.hist.getD (16 * w.selHist + (r - 0x200) / 8) 0).toNat else 0)
  else if 0x280 ≤ r && r < 0x400 then
    let n := (r - 0x280) / 8
    let x := s.cfg.ctrs.getD n {}
    some (if x.partEn && x.part == p then c.coarse (s.ctr.getD n 0).toNat else 0)
  else match r with
    | 0x000 => some (p + b2n c.active * 2 ^ 4 + b2n c.ordinary * 2 ^ 5 + b2n c.counterAccess * 2 ^ 6 +
        b2n c.isolated * 2 ^ 7 + c.k * 2 ^ 8)
    | 0x008 => some w.status.toNat
    | 0x010 => some w.xltDesc
    | 0x018 => some 0
    | 0x020 => some w.tdcAddr
    | 0x028 => some w.tdcData.toNat
    | 0x030 => some (b2n w.tdcBusy + b2n w.tdcDone * 2 + w.tdcCode.code * 4)
    | 0x038 => some (w.selHist + w.selChan * 2 ^ 4)
    | 0x0B0 => some (s.pwrView p)
    | 0x0B8 => some (if owns w.selChan then (s.chan w.selChan).pace else 0)
    | 0x100 => some (armStatWord w.armCode w.armSlot w.disarm)
    | 0x108 => some 0
    | 0x110 => some w.slotSel
    | _ => none

/-- R391: the registers that `COUNTER_ACCESS` opens. -/
def counterReg (r : Nat) : Bool := r == 0xB0 || 0x200 ≤ r

/-- The partition window of an offset, and the offset in it. -/
def winAt (o : Nat) : Option (Nat × Nat) :=
  if 0x8000 ≤ o && o < 0xC000 then some ((o - 0x8000) / 0x400, o % 0x400) else none

/-- R366, R371, R386, R392: a register with a field that the measurement lock closes. -/
def State.lockedReg (s : State) (o : Nat) : Bool :=
  s.meas.locked && (o == 0x100 || o == 0x140 || o == 0xC100 ||
    (0x2000 ≤ o && o < 0x4000 && o / 8 % 4 < 2 && s.stagedSlot ((o - 0x2000) / 32)))

/-- R42, R366, R391: the answer to a read. -/
def State.csrpRead (src : Csrp) (o : Nat) (s : State) : Err × Word :=
  match winAt o with
  | some (p, r) =>
    if !(src.reaches (some p)) then (.partitionAccess, 0)
    else (match s.readWin p r with
      | none => (.fieldRange, 0)
      | some n =>
        if !src.mgmt && counterReg r && !(s.part p).counterAccess then (.partitionAccess, 0)
        else if !(s.part p).active then (.ok, 0)
        else (.ok, BitVec.ofNat 64 n))
  | none =>
    if !src.mgmt then (.partitionAccess, 0)
    else match s.readMgmt o with
      | some n => (if s.lockedReg o then .locked else .ok, BitVec.ofNat 64 n)
      | none => (.fieldRange, 0)

/-! ### Writing -/

/-- R45, R366: `PKG_IDENT`. -/
def State.writePkg (v : Word) (s : State) : State :=
  if s.meas.locked then s.csrp .locked 0
  else State.csrp .ok 0 { s with regs := { s.regs with pkgIdent := bits v.toNat 4 0, pkgSet := true } }

/-- R367, R474: `MEAS_LOCK`. -/
def State.writeMeasLock (v : Word) (s : State) : State :=
  let s := s.csrp .ok 0
  if bit v.toNat 0 && !s.meas.locked then s.setMeas fun (m : Meas) => { m with locked := true } else s

/-- R382, R442: a write of word 0 of a log entry. -/
def State.writeElog (i : Nat) (v : Word) (s : State) : State :=
  State.csrp .ok 0 (if bit v.toNat 2
    then { s with elog := { s.elog with ents := s.elog.ents.modify i fun (e : LogEnt) => { e with valid := false } } } else s)

/-- R9, R386: a write of `LENS_D0` or `LENS_D1` of a slot; the reserved bits of a descriptor (R344) stay zero. -/
def State.writeStage (i r : Nat) (v : Word) (s : State) : State :=
  if !s.stagedSlot i || 2 ≤ r then s.csrp .ok 0
  else if s.meas.locked then s.csrp .locked 0
  else (s.setLens i fun l => if r == 0 then { l with stage0 := v &&& 0x1FFFFFFFFFFFFFFF }
    else { l with stage1 := v &&& 0xFFFFFFFFFF }).csrp .ok 0

/-- R371: `PRESC_CTL`. -/
def State.writePrescCtl (v : Word) (s : State) : State := s.prescCtl (bit v.toNat 0) (some (bit v.toNat 1))

/-- R371, R372: `SHADOW_EDIT`; the reserved values of `OP` edit nothing. -/
def State.writeShadowEdit (v : Word) (s : State) : State :=
  let slot := bits v.toNat 7 0
  match bits v.toNat 9 8 with
  | 1 => s.shadowEdit true slot
  | 2 => s.shadowEdit false slot
  | op => match s.editErr with
    | .ok => State.csrp .ok 0 { s with regs := { s.regs with editReg := slot + op * 256 } }
    | e => s.csrp e 0

/-- R330, R389: `HOT_BASE_RING` and `HOT_RING_CTL`, as the fault ring's registers (R381, log entry 142). DESIGN CHOICE (log entry 150): a
`HOT_LOG` beyond its range and a base that is not aligned are taken as they are written. -/
def State.writeHotRing (ctl : Bool) (v : Word) (s : State) : State :=
  let h := s.hot
  let e : Err := if h.ringEn then .busy else .ok
  if !ctl then State.csrp e 0 (if h.ringEn then s else { s with hot := { h with ringBase := bits v.toNat 51 0 } })
  else
    let s := { s with hot := { h with ringLog := if h.ringEn then h.ringLog else bits v.toNat 3 0, ringEn := bit v.toNat 4 } }
    (s.hotDrain s.hot.staged.length).csrp e 0

/-- R326, R389: `HOT_CONS`. -/
def State.writeHotCons (v : Word) (s : State) : State :=
  let n := bits v.toNat 15 0
  let s := if (s.hot.prod + 65536 - n) % 65536 ≤ s.hot.ringSize then { s with hot := { s.hot with cons := n } } else s
  (s.hotDrain s.hot.staged.length).csrp .ok 0

/-- R374: the command of an opcode. -/
def mbRun (op : Nat) : MbCmd → State → State :=
  match op with
  | 0x01 => State.rangeCmd .flush
  | 0x02 => State.rangeCmd .invalidate
  | 0x03 => State.rangeCmd .discard
  | 0x04 => State.rangeCmd .zero
  | 0x05 => State.tileCmd
  | 0x06 => State.armCmd
  | 0x07 => State.sealCmd false
  | 0x08 => State.sealCmd true
  | 0x09 => State.collectCmd
  | 0x0A => State.pinCmd
  | 0x0B => State.rangeCmd .unpin
  | 0x0C => State.swapCmd
  | 0x0D => State.resCmd
  | 0x0E => State.postCmd
  | _ => State.handCmd

/-- R373: a write of a mailbox register, at an offset from its `MB_CMD`. -/
def State.writeMb (src : Csrp) (window : Option Nat) (r : Nat) (v : Word) (s : State) : State :=
  let i := mbIdx window
  let n := v.toNat
  if r == 0 then
    s.mbWrite (bits n 6 0)
      { window := window, mgmt := src.mgmt, srcPart := src.part, seq := bits n 15 8,
        resv := b2n (bit n 7) + bits n 63 16 * 2, args := (s.mbs.getD i {}).args } (mbRun (bits n 6 0))
  else if r ≤ 0x40 then
    State.csrp .ok 0 { s with mbs := s.mbs.modify i fun (m : Mailbox) => { m with args := m.args.set (r / 8 - 1) v } }
  else s.csrp .ok 0

/-- R388: a write of `ARM_SLOT0` to `ARM_SLOT7`. -/
def State.writeArm (src : Csrp) (window : Option Nat) (k : Nat) (v : Word) (s : State) : State :=
  let words := (match window with | none => s.regs.arm | some p => (s.pws.getD p {}).arm).set k v
  if k == 7 then s.armSlot src window words else (s.latchArm window words).csrp .ok 0

/-- R391: a write of a register of window `p`, when the partition is active. -/
def State.writeWin (src : Csrp) (p r : Nat) (v : Word) (s : State) : State :=
  let w := s.pws.getD p {}
  let n := v.toNat
  let put (f : PWin → PWin) : State := State.csrp .ok 0 { s with pws := s.pws.modify p f }
  if 0x40 ≤ r && r < 0xB0 then s.writeMb src (some p) (r - 0x40) v
  else if 0xC0 ≤ r && r < 0x100 then s.writeArm src (some p) ((r - 0xC0) / 8) v
  else match r with
    | 0x008 => put fun x => { x with status := x.status &&& ~~~(BitVec.ofNat 4 n) }
    | 0x010 => if src.mgmt then s.writeXltDesc p v else s.csrp .partitionAccess 0
    | 0x018 => s.tdcOp (bits n 3 0) { part := p, mgmt := src.mgmt, srcPart := src.part, kind := bits n 4 4, addr := w.tdcAddr,
                                      data := w.tdcData }
    | 0x020 => put fun x => { x with tdcAddr := bits n 51 0 }
    | 0x028 => put fun x => { x with tdcData := v }
    | 0x038 => put fun x => { x with selHist := bits n 1 0, selChan := bits n 7 4 }
    | 0x108 => s.disarmSlot src (some p) (bits n 8 0)
    | 0x110 => put fun x => { x with slotSel := bits n 8 0 }
    | _ => s.csrp .ok 0

/-- R381: a write of the error log block. -/
def State.writeElogBlock (o : Nat) (v : Word) (s : State) : State :=
  let n := v.toNat
  let e := s.elog
  if 0x900 ≤ o then (if o % 32 == 0 then s.writeElog ((o - 0x900) / 32) v else s.csrp .ok 0)
  else match o with
    | 0x800 =>
      let e' : ErrLog := { e with lostCorr := e.lostCorr && !(bit n 16), lostUncorr := e.lostUncorr && !(bit n 17),
                                  lostNotice := e.lostNotice && !(bit n 18) }
      State.csrp .ok 0 { s with elog := e' }
    | 0x808 => s.writeFqRing false v
    | 0x810 => s.writeFqRing true v
    | 0x820 => s.writeFqCons v
    | 0x828 => (if bits n 23 0 == 0 then s else s.setXlt fun x => { x with fqHold := bits n 23 0 }).csrp .ok 0
    | _ => s.csrp .ok 0

/-- R371: a write of the global control block. -/
def State.writeGlobal (o : Nat) (v : Word) (s : State) : State :=
  let n := v.toNat
  match o with
  | 0x100 => s.writePkg v
  | 0x108 => State.csrp .ok 0 { s with regs := { s.regs with specCtl := BitVec.ofNat 16 n } }
  | 0x110 => (if bits n 15 0 == 0 then s else s.setXlt fun x => { x with lfsr := BitVec.ofNat 16 n }).csrp .ok 0
  | 0x118 => State.csrp .ok 0 { s with presc := { s.presc with addr := bits n 51 6 * 64 } }
  | 0x120 => State.csrp .ok 0 { s with presc := { s.presc with len := bits n 16 0 } }
  | 0x128 => s.writePrescCtl v
  | 0x138 => State.csrp .ok 0 (if bits n 23 0 == 0 then s else { s with regs := { s.regs with fwdWd := bits n 23 0 } })
  | 0x140 => s.writeShadowEdit v
  | _ => s.csrp .ok 0

/-- R389: a write of the counters block. -/
def State.writeCtrs (o : Nat) (v : Word) (s : State) : State :=
  let n := v.toNat
  if o < 0x6180 then
    let i := (o - 0x6000) / 8
    State.csrp .ok 0 { s with ctr := s.ctr.set i (BitVec.ofNat 48 n), bad := s.bad.erase (.ctr i) }
  else if 0x6400 ≤ o && o < 0x6600 then
    let i := (o - 0x6400) / 8
    State.csrp .ok 0 { s with hist := s.hist.set i (BitVec.ofNat 48 n), bad := s.bad.erase (.bin i) }
  else match o with
    | 0x6800 => s.writeHot false v
    | 0x6808 => s.writeHot true v
    | 0x6810 => State.csrp .ok 0 { s with hot := { s.hot with epoch := bits n 23 0 } }
    | 0x6818 => s.writeHotRing false v
    | 0x6820 => s.writeHotRing true v
    | 0x6830 => s.writeHotCons v
    | _ => s.csrp .ok 0

/-- R366, R369: a write of a register of a management-only block. -/
def State.writeMgmt (src : Csrp) (o : Nat) (v : Word) (s : State) : State :=
  let n := v.toNat
  if o == 0x18 then
    State.csrp .ok 0 { s with regs := { s.regs with status := s.regs.status &&& ~~~(BitVec.ofNat 4 n) } }
  else if o < 0x100 then s.csrp .ok 0
  else if o < 0x400 then s.writeGlobal o v
  else if o < 0x800 then s.writeMb src none (o - 0x400) v
  else if o < 0x1000 then s.writeElogBlock o v
  else if o < 0x2000 then s.csrp .ok 0
  else if o < 0x4000 then s.writeStage ((o - 0x2000) / 32) (o / 8 % 4) v
  else if 0x4500 ≤ o && o < 0x4540 then s.writeArm src none ((o - 0x4500) / 8) v
  else if o == 0x4548 then s.disarmSlot src none (bits n 8 0)
  else if o == 0x4550 then State.csrp .ok 0 { s with regs := { s.regs with slotSel := bits n 8 0 } }
  else if o < 0x6000 then s.csrp .ok 0
  else if o < 0x7000 then s.writeCtrs o v
  else if o == 0xC100 then
    s.testCtl (bit n 0) (bit n 1)
  else if o == 0xE008 then s.writeMeasLock v
  else s.csrp .ok 0

/-- R42, R366, R391: the answer to a write, and its effect. -/
def State.csrpWrite (src : Csrp) (o : Nat) (v : Word) (s : State) : State :=
  match winAt o with
  | some (p, r) =>
    if !(src.reaches (some p)) then s.csrp .partitionAccess 0
    else if (s.readWin p r).isNone then s.csrp .fieldRange 0
    else if !(s.part p).active then s.csrp .partitionAccess 0
    else s.writeWin src p r v
  | none =>
    if !src.mgmt then s.csrp .partitionAccess 0
    else if (s.readMgmt o).isNone then s.csrp .fieldRange 0
    else s.writeMgmt src o v

/-- R41: the always-on blocks answer in `SLEEP` without waking; nothing answers in reset. -/
def State.onGate (i : Instr) (o : Nat) (act : State → State) (s : State) : State :=
  if alwaysOn o then (if s.power.rstLow then s else act s) else s.csrGate i act

/-- R449: a read of a counter or of a histogram bin checks its parity first. -/
def State.readParity (o : Nat) (s : State) : State :=
  let ctr (i : Nat) : State := s.ctrParity i
  match winAt o with
  | some (p, r) =>
    if 0x200 ≤ r && r < 0x280 then s.binParity (16 * (s.pws.getD p {}).selHist + (r - 0x200) / 8)
    else if 0x280 ≤ r then ctr ((r - 0x280) / 8) else s
  | none =>
    if 0x6000 ≤ o && o < 0x6180 then ctr ((o - 0x6000) / 8)
    else if 0x6400 ≤ o && o < 0x6600 then s.binParity ((o - 0x6400) / 8) else s

/-- Answer a read. -/
def State.answerRead (src : Csrp) (o : Nat) (s : State) : State :=
  let s := if (s.csrpRead src o).1 == .ok then s.readParity o else s
  let (e, d) := s.csrpRead src o
  s.csrp e d

/-! ### The commands -/

/-- A write of a register (R366). -/
def execRegisterWrite (src : Csrp) (offset : Nat) (value : Word) (s : State) : Res :=
  finish (s.fresh0.onGate (.registerWrite src offset value) offset (State.csrpWrite src offset value))

/-- A read of a register; the blocks outside the always-on domain wake a sleeping slice (R41). -/
def execCsrpReadInSleep (src : Csrp) (offset : Nat) (s : State) : Res :=
  finish (s.fresh0.onGate (.csrpReadInSleep src offset) offset (State.answerRead src offset))

/-- A write of `PKG_IDENT` (R45). -/
def execPkgIdentWrite (src : Csrp) (value : Word) (s : State) : Res :=
  mgmtWrite (.pkgIdentWrite src value) src (State.writePkg value) s

/-- A write of 1 to `MEAS_LOCK` (R367). -/
def execMeasLock (src : Csrp) (s : State) : Res :=
  finish (s.fresh0.onGate (.measLock src) 0xE008 fun t => if src.mgmt then t.writeMeasLock 1 else t.csrp .partitionAccess 0)

/-- A write of 1 to the `VALID` bit of a log entry (R442). -/
def execElogClear (src : Csrp) (entry : Nat) (s : State) : Res :=
  mgmtWrite (.elogClear src entry) src (State.writeElog entry 4) s

end Sys2Proof.Machine
end

