-- ==== Sys2Proof/Machine/Span.lean ====
section
/-! DEFINITION. The span port: lanes and training, the capability exchange, frames and replay, and the records that arrive
from the mirror twin (R394 to R415). -/

namespace Sys2Proof.Machine

open Sys2Proof

/-! ### Lanes (R394, R402) -/

/-- The lanes of a direction that are not failed, in ascending order. -/
def goodLanes (failed : BitVec 18) : List Nat := (List.range 18).filter fun i => !failed.getLsbD i

/-- R394: the largest width the good lanes supply; 0 with fewer than 4. -/
def widthOf (failed : BitVec 18) : Nat :=
  let n := (goodLanes failed).length
  if 16 ≤ n then 16 else if 8 ≤ n then 8 else if 4 ≤ n then 4 else 0

/-- Records concern only a slice of a split package whose receiving direction is up. -/
def State.linkUp (s : State) : Bool := s.power.straps.split && s.span.rx == .active

/-! ### The port goes down (R399, R402, R404, R412) -/

/-- The holder record of a relay entry. -/
def Relay.hrec (r : Relay) : SpanRec := .hrec r.line r.agent r.tag

/-- R412: a replica read that waits for its `HACK` has left its transaction. -/
def State.awaitsHack (s : State) (r : Relay) : Bool :=
  r.replica && !r.timedOut && !r.ackWait && !s.txns.any fun t => match t.kind with
    | .req _ q none => q.port == r.port && q.txid == r.txid
    | _ => false

/-- R404, R412: reads served from replicas complete without a grant. A holder record that has not left is withdrawn; the
answer to one that has is discarded when it comes. -/
def State.replicaDown (r : Relay) (s : State) : State :=
  let s := s.respond r.port r.txid none .done
  if s.span.waitTx.any (·.item == r.hrec) then
    State.dropRelay r.tag { s with span := { s.span with waitTx := s.span.waitTx.filter (·.item != r.hrec) } }
  else { s with span := { s.span with relays := s.span.relays.map fun (x : Relay) =>
    if x.tag == r.tag then { x with timedOut := true } else x } }

/-- R397, R399, R404: the port goes `DOWN`, with a record for each check that failed (0: the lanes), and the reads that a replica
has served and that wait for the home's answer complete. -/
def State.portDown (checks : List Nat) (s : State) : State :=
  let s := checks.foldl (fun t k => t.logSpan 0x023 t.span.lane 0 k) s
  let s := { s with span := { s.span with st := .down, rx := .down, ctl := 0, twinReset := false } }
  (s.span.relays.filter s.awaitsHack).foldl (fun t r => t.replicaDown r) s

/-- R397: both directions are in this state. -/
def State.setLink (x : SpanState) (s : State) : State := { s with span := { s.span with st := x, rx := x } }

/-- A direction runs, or retrains. -/
def SpanState.trained (x : SpanState) : Bool := x == .active || x == .retrain

/-! ### Training (R397 to R400) -/

/-- R397: an attempt from `DOWN` can be made. -/
def State.detectDue (s : State) : Bool :=
  s.power.straps.split && s.power.strapsTaken && !s.power.rstLow && s.span.st == .down

/-- R397: the twin looks for this slice while the link is up: a warm reset has taken its side down, and both directions retrain. -/
def State.twinDetects (s : State) : Bool :=
  s.power.straps.split && s.power.strapsTaken && !s.power.rstLow && s.span.st.trained

/-- R397: `DETECT` on every lane that is not failed, and on to `ALIGN`, or back to `DOWN` when fewer than 4 lanes respond. -/
def State.detect (lanes : BitVec 18) (s : State) : State :=
  let s := s.setLink .detect
  s.setLink (if widthOf (~~~lanes ||| s.span.rxFailed) == 0 then .down else .align)

/-- R398: the tag over the sender's two words and the receiver's `NONCE`. -/
def capsTag (key : List (BitVec 8)) (c : Caps) : Word :=
  BitVec.ofNat 64 (ofLe ((hmac384 key (leBytes c.word0.toNat 8 ++ leBytes c.nonce.toNat 8 ++
    leBytes c.myNonce.toNat 8)).take 8))

/-- R48, R398: the first word that this slice sends in the exchange, its own `PRIMARY` strap among the rest. -/
def State.capsWord (s : State) : Word :=
  let t := s.power.straps
  BitVec.ofNat 64 (1 + s.fuses.featLevel * 2 ^ 8 + s.fuses.stepping * 2 ^ 10 + b2n t.primary * 2 ^ 13 + t.half * 2 ^ 14 +
    t.index * 2 ^ 15 + (~~~s.span.rxFailed).toNat * 2 ^ 20)

/-- R398: the slice's own two words and their tag, with the fresh `NONCE` that the exchange brings. -/
def State.sendCaps (c : Caps) (s : State) : State :=
  let own : Caps := { word0 := s.capsWord, nonce := c.myNonce, tag := 0, myNonce := c.nonce }
  s.emit (.caps own.word0 own.nonce (capsTag s.fuses.spanKey own))

/-- R399: the checks of the exchange that fail. -/
def State.capsFails (s : State) (c : Caps) : List Nat :=
  let w := c.word0.toNat
  let t := s.power.straps
  (if bits w 7 0 != 1 then [1] else []) ++ (if c.tag != capsTag s.fuses.spanKey c then [2] else []) ++
  (if bits w 19 15 != t.index then [3] else []) ++ (if bits w 14 14 == t.half then [4] else []) ++
  (if bit w 13 == t.primary then [5] else [])

/-- R48, R399: failed checks take the port down, each with its record; the fifth shows as a strap mismatch as well, unless
a strap error of R47 stands. -/
def State.capsFail (ks : List Nat) (s : State) : State :=
  State.portDown ks (if ks.contains 5 && s.power.strapErr == 0 then { s with power := { s.power with strapErr := 2 } } else s)

/-- R397, R398: what the pattern and the exchange say of the lanes: those that failed at this receiver, and those that
failed at the twin's. -/
def State.takeLanes (lanes : BitVec 18) (s : State) : State :=
  { s with span := { s.span with rxFailed := s.span.rxFailed ||| ~~~lanes } }

/-- R398: the lanes of the sending direction that failed, here or at the twin's receiver. -/
def State.txFailed (s : State) (c : Caps) : BitVec 18 := s.span.failed ||| ~~~(BitVec.ofNat 18 (bits c.word0.toNat 37 20))

/-- R394, R398, R399: the widths and the pair level in force from `ACTIVE` on. -/
def State.agree (c : Caps) (s : State) : State :=
  let failed := s.txFailed c
  { s with span := { s.span with failed := failed, width := widthOf failed, rxWidth := widthOf s.span.rxFailed, remap := [],
                                 pairLevel := min s.fuses.featLevel (bits c.word0.toNat 9 8) } }

/-- R400, R402: a smaller width of the sending direction, and a change of the pair level, the first one among them. -/
def State.noteFallback (old : Span) (s : State) : State :=
  let s := if s.span.width < old.width then s.logSpan 0x022 old.lane s.span.width 0 else s
  if s.span.pairLevel != old.pairLevel then s.logSpan 0x022 old.lane s.span.width 0 else s

/-- R404: the agents of the other half are served afresh: what their down points left to reclaim is reclaimed, and their reports
end. -/
def State.farBack (s : State) : State :=
  if !s.down.any (·.silent) then s
  else
    let s := s.dir.foldl (fun u e => u.reclaimLine e.line) s
    let gone := s.down.filter (·.silent)
    gone.foldl (fun u r => u.endReport r) { s with down := s.down.filter fun (r : Report) => !r.silent }

/-- R397, R404, R405: `ACTIVE` after a training from `DOWN`, or after the twin's warm reset: sequence numbers and credits begin afresh,
and the records that were not acknowledged are sent as new ones. -/
def State.linkFresh (s : State) : State :=
  State.spanFlush { s.farBack with span := { s.farBack.span with
    st := .active, rx := .active, farDown := false, txSeq := 0, rxNext := 0, naks := 0, rxNaks := 0, twinReset := false, ctl := 0, credits := [64, 64, 128, 64, 128, 16],
    owed := List.replicate 6 0, rxRecs := List.replicate 6 [],
    replay := [], waitTx := s.span.replay.filterMap (fun (x : FrameHdr × Option SpanRec) => x.2.map fun r => { item := r }) ++ s.span.waitTx } }

/-- R402: `ACTIVE` after a retrain: the frames that were not acknowledged are replayed, where the sending direction was in it. -/
def State.linkAgain (old : Span) (s : State) : State :=
  let s := { s with span := { s.span with st := .active, rx := .active, naks := 0, rxNaks := 0 } }
  State.spanFlush (if old.st == .retrain then s.replaySpan else s)

/-- R397, R399: `ALIGN` and `CAPS` end; `fresh` tells a training from `DOWN`, or the one after the twin's warm reset, from a retrain. -/
def State.trainEnd (fresh : Bool) (lanes : BitVec 18) (c : Caps) (s : State) : State :=
  let old := s.span
  let s := s.takeLanes lanes
  if widthOf s.span.rxFailed == 0 then s.portDown (if old.st == .align then [] else [0])
  else
    let s := (s.setLink .caps).sendCaps c
    match s.capsFails c with
    | [] =>
      if widthOf (s.txFailed c) == 0 then s.portDown [0]
      else
        let s := (s.agree c).noteFallback old
        if fresh then s.linkFresh else s.linkAgain old
    | ks => s.capsFail ks

/-! ### Frames and replay (R395, R396, R401, R405) -/

/-- R395: the CRC of a unit holds. -/
def unitOk (d : Sector) : Bool := ofLe ((sectorBytes d).drop 62) == (crc16 ((sectorBytes d).take 62)).toNat

/-- R396: the 32 bytes of a frame's header. -/
def headerOf (f : SpanFrame) : Nat := ofLe (f.units.flatMap fun u => ((sectorBytes u).drop 60).take 2)

/-- The first unit of a frame that fails its CRC. -/
def badUnit (f : SpanFrame) : Option Nat := f.units.findIdx? fun u => !unitOk u

/-- R394, R395: the physical lane of unit `u` in a direction of this width with these failed lanes. -/
def unitLane (failed : BitVec 18) (width u : Nat) : Nat := (goodLanes failed).getD (u % width) 0

/-- R394, R395: the physical lane that unit `u` of a received frame travelled on. -/
def State.laneOf (s : State) (u : Nat) : Nat := unitLane s.span.rxFailed s.span.rxWidth u

/-- R394, R395: the physical lane on which unit `u` of a frame leaves. -/
def State.txLaneOf (s : State) (u : Nat) : Nat := unitLane s.span.failed s.span.width u

/-- R401: frames up to `ack` have arrived. -/
def State.spanAcked (ack : Nat) (s : State) : State :=
  { s with span := { s.span with replay := s.span.replay.filter fun (x : FrameHdr × Option SpanRec) =>
      !((ack + 65536 - x.1.seq) % 65536 < 32768) } }

/-- R401, R402: a nak replays from `ack` + 1; a frame that has failed 16 successive replays starts a retrain. A direction in
`RETRAIN` sends nothing (R403). -/
def State.nak (ack : Nat) (s : State) : State :=
  let before := s.span.replay.length
  let s := s.spanAcked ack
  let n := if s.span.replay.length < before then 1 else s.span.naks + 1
  if s.span.replay.isEmpty || s.span.st != .active then { s with span := { s.span with naks := 0 } }
  else if 16 < n then { s with span := { s.span with naks := 0, lane := 0, st := .retrain } }
  else State.replaySpan { s with span := { s.span with naks := n } }

/-- R396, R405: the credits a header returns. -/
def addCredits (h : Nat) (cs : List Nat) : List Nat := cs.mapIdx fun i c => c + bits h (86 + 8 * i) (79 + 8 * i)

/-! ### What a frame carries (R395, R396, R406) -/

/-- R395: the 960 B of a frame's payload. -/
def framePayload (f : SpanFrame) : List (BitVec 8) := f.units.flatMap fun u => (sectorBytes u).take 60

/-- R396: the slots of a frame that carry something, in order, each with its channel; the codes 0 and 7 carry nothing. -/
def frameSlots (f : SpanFrame) (h : Nat) : List (Nat × Sector) :=
  let used := (List.range 15).filter fun k => bits h (36 + 3 * k) (34 + 3 * k) % 7 != 0
  if used.isEmpty then []
  else
    let p := framePayload f
    used.map fun k => (bits h (36 + 3 * k) (34 + 3 * k) - 1, BitVec.ofNat 512 (ofLe ((p.drop (64 * k)).take 64)))

/-- R396: the bits of a header whose first slots belong to these channels. -/
def FrameHdr.bits (h : FrameHdr) (chans : List Nat) : Nat :=
  packAt [(h.seq, 0), (h.ack, 16), (h.kind, 32)] + packAt ((chans.zipIdx).map fun (c, i) => (c + 1, 34 + 3 * i)) +
  packAt ((h.credit.zipIdx).map fun (n, i) => (n, 79 + 8 * i))

/-- R406: the slots of a record: its own, with the record first and padding behind it, and one for each data flit. -/
def SpanRec.sectors (r : SpanRec) : List Sector := BitVec.ofNat 512 (SpanRec.bits r).toNat :: (SpanRec.dats r).map (·.data)

/-- R395: unit `u` of a frame with this payload and header. -/
def unitOf (pay hdr : List (BitVec 8)) (u : Nat) : Sector :=
  let b := ((pay.drop (60 * u)).take 60) ++ (hdr.drop (2 * u)).take 2
  BitVec.ofNat 512 (ofLe (b ++ leBytes (crc16 b).toNat 2))

/-- R395, R396, R406: the frame that leaves with this header and record. -/
def frameOf (h : FrameHdr) (r : Option SpanRec) : SpanFrame :=
  let l := (r.map SpanRec.sectors).getD []
  let pay := (l ++ List.replicate (15 - l.length) 0).flatMap sectorBytes
  let hdr := leBytes (h.bits (l.map fun _ => (r.map (·.chan)).getD 0)) 32
  { units := (List.range 16).map (unitOf pay hdr) }

/-- What leaves on the span. -/
def Out.frame : Out → Option SpanFrame
  | .span h r => some (frameOf h r)
  | _ => none

/-- R395: the units of what leaves on the span, in the order in which each travels on its lane. -/
def State.laneUnits (s : State) (o : Out) : List (Nat × Sector) :=
  ((o.frame.map (·.units)).getD []).zipIdx.map fun (d, u) => (s.txLaneOf u, d)

/-- R402: the units of a frame count on their lanes, and those that fail their CRC are kept while they are among the last 65,536. -/
def State.countUnits (f : SpanFrame) (s : State) : State :=
  let one (l : List (Nat × List Nat)) (x : Sector × Nat) : List (Nat × List Nat) :=
    l.modify (s.laneOf x.2) fun (n, errs) =>
      (n + 1, if unitOk x.1 then errs else (errs.filter fun m => n < m + 65536) ++ [n])
  { s with span := { s.span with laneErr := (f.units.zipIdx).foldl one s.span.laneErr } }

/-- R402: the lanes on which 8 of the last 65,536 units have failed. -/
def State.badLanes (s : State) : List Nat :=
  (List.range 18).filter fun i => 8 ≤ (s.span.laneErr.getD i (0, [])).2.length && !s.span.rxFailed.getLsbD i

/-- R402: a lane of the receiving direction is lost: the sender is told to retire it at the next frame. With fewer than 4 left the
port goes down, and with too few for the width the direction retrains. -/
def State.laneFails (lane : Nat) (s : State) : State :=
  let failed := s.span.rxFailed ||| BitVec.ofNat 18 (2 ^ lane)
  let s := { s with span := { s.span with rxFailed := failed, lane := lane, laneErr := s.span.laneErr.set lane (0, []) } }
  let s := s.spanSend (.retire lane s.span.rxNext)
  let n := (goodLanes failed).length
  if n < 4 then s.portDown [0]
  else if n < s.span.rxWidth then { s with span := { s.span with rx := .retrain } }
  else s

/-! ### Lanes that are retired (R402) -/

/-- R402: the twin retires a lane of the sending direction from the frame `seq` on. With enough lanes left the retirement waits for
that frame, unless it has been sent already. -/
def State.laneRetired (lane seq : Nat) (s : State) : State :=
  let lost := s.span.remap.foldl (fun m x => m ||| BitVec.ofNat 18 (2 ^ x.1)) (s.span.failed ||| BitVec.ofNat 18 (2 ^ lane))
  let n := (goodLanes lost).length
  if n < s.span.width then
    let s := { s with span := { s.span with failed := lost, remap := [], lane := lane } }
    if n < 4 then s.portDown [0] else { s with span := { s.span with st := .retrain } }
  else
    let ahead := (seq + 65536 - s.span.txSeq) % 65536
    if 0 < ahead && ahead < 32768 then { s with span := { s.span with remap := s.span.remap ++ [(lane, seq)] } }
    else s.remapLane lane

/-! ### The far half is given up (R404) -/

/-- R404: agents of the other half that the route table lists and that are not down. -/
def State.farAgents (s : State) : List Nat :=
  (List.range s.cfg.route.length).filter fun a => (s.routeOf a).present && s.isFar a && !s.isDown a

/-- R404: the port has been `DOWN` for 10 ms: the far agents are down, and open relay entries end with `TIMEOUT`. Nothing
is left to send. -/
def State.giveUp (s : State) : State :=
  let s := s.farAgents.foldl (fun t a => t.downPoint a true) s
  let s := s.span.relays.foldl (fun t r =>
    if r.timedOut || r.ackWait then t else t.respond r.port r.txid none .timeout) s
  State.tidy { s with waiting := s.waiting.filter (·.rtag.isNone), span := { s.span with relays := [], waitTx := [], replay := [], farDown := true } }

/-! ### Records (R406 to R413) -/

/-- A record that arrives: it is kept while the slice sleeps or relocks (R415, R418), and answered by `off` where the slice is not
in `SERVICE`. -/
def State.spanIn (i : Instr) (act off : State → State) (s : State) : State :=
  match s.gate with
  | .drop => s
  | .hold => s.keepFor i
  | .refuse | .recover => off s
  | .serve => (act s).tidy

/-- R407, R408: a relayed request at the home; the span is one port, and the relay tag its `TXID`. -/
def State.relayIn (op : ReqOp) (q : Req) (s : State) : State :=
  let q := { q with port := 0 }
  let w := s.accepted op q (some q.txid)
  (s.charge w).lookup w false

/-- A relayed request outside `SERVICE`: R459 in `RECOVERY`, `ABORTED` in `CONFIG` and `TEST`. -/
def State.relayOff (op : ReqOp) (q : Req) (s : State) : State :=
  let q := { q with port := 0 }
  if s.power.state == .recovery then s.recoveryReq op q (some q.txid) else s.respond 0 q.txid (some q.txid) .aborted

/-- The relay entry of a tag. -/
def State.relayAt (s : State) (tag : Nat) : Option Relay := s.span.relays.find? (·.tag == tag)

/-- R159, R408: a relayed grant waits for the agent's `COMP_ACK`, which a down agent owes no more (R180). -/
def State.relayGrant (r : Relay) (s : State) : State :=
  if s.isDown r.agent then (s.spanSend (.snr 4 r.tag 0 false [])).dropRelay r.tag
  else { s with span := { s.span with relays := s.span.relays.map fun (x : Relay) =>
    if x.tag == r.tag then { x with ackWait := true } else x } }

/-- R457: the answer to a request that has timed out is discarded, and its tag is free again; a grant is given back. -/
def State.relayLate (r : Relay) (granted : Bool) (s : State) : State :=
  State.dropRelay r.tag (if granted then s.spanSend (.snr 4 r.tag 0 false []) else s)

/-- R143, R458: the provisional read of a relay entry is `OPEN` at its home. -/
def State.openRelay (tag : Nat) (s : State) : State :=
  { s with span := { s.span with relays := s.span.relays.map fun (x : Relay) => if x.tag == tag then { x with opened := true } else x } }

/-- R407, R408, R457: a response from the home. -/
def State.rspIn (tag status grant : Nat) (isOpen : Bool) (dat : List DatFlit) (partialAttr : Bool) (s : State) : State :=
  match s.relayAt tag with
  | none => s
  | some r =>
    let s := s.runAs (some r.grp) (some r.agent)
    if r.timedOut then (if isOpen then s else s.relayLate r (grant != 0))
    else
      let fl := dat.map fun (f : DatFlit) => (f.sector, f.data, f.poison)
      let s := s.respondData r.port r.txid none (Status.ofCode status) grant isOpen partialAttr fl
      if isOpen then s.openRelay tag else if grant != 0 then s.relayGrant r else s.dropRelay tag

/-- R409: a snoop of the far home goes to the agent under a snoop ID of this slice, or waits for one. An agent that this
half does not have holds nothing. -/
def State.snpFwd (op line id agent : Nat) (s : State) : State :=
  if s.isDown agent then s
  else if !(s.routeOf agent).present then (s.runAs (some (s.groupOf agent 0)) (some agent)).spanSend (.snr 0 id 0 false [])
  else
    let port := (s.routeOf agent).port
    let sid := s.freeSnoopId port
    let f : FwdSnoop := { homeId := id, agent := agent, port := port, id := sid.getD 0, op := op, line := line,
                          sent := sid.isSome }
    let s := { s with span := { s.span with fwd := s.span.fwd ++ [f] } }
    match sid with
    | some i => (s.count Ev.snpSent none).emit (.snp port op line i agent)
    | none => s

/-- R409: an `SNP` record; a `PROV_VOID` goes out with the original `TXID` of its relay entry. -/
def State.snpIn (op line id agent : Nat) (s : State) : State :=
  if op == 4 then
    let s := s.entryRead (.relay id) 4 id
    match s.relayAt id with
    | some r => if s.isDown r.agent || r.timedOut then s else s.emit (.snp r.port 4 line r.txid r.agent)
    | none => s
  else if op == 0 || 4 < op then s
  else s.snpFwd op line id agent

/-- R409: an `SNR` record: a `COMP_ACK` for a relayed grant, or a far agent's answer with its data. -/
def State.snrIn (code id notice : Nat) (pd : Bool) (dat : List DatFlit) (s : State) : State :=
  if code == 4 then s.ackTaken 0 id 1
  else match s.snoopTxn 8 id with
    | none => s
    | some t =>
      if code == 3 then (if 3 ≤ notice then s else s.inflightFor t 8 id notice)
      else if 4 < code then s
      else
        let s := dat.foldl (fun u f => u.setSnoop t.id 8 id fun k => k.addFlit f) s
        s.takeAnswer t 8 id code (!dat.isEmpty) pd

/-- R412: the home's answer to a holder record. -/
def State.hackIn (tag : Nat) (refused : Bool) (s : State) : State :=
  match s.relayAt tag with
  | none => s
  | some r =>
    let s := s.runAs (some r.grp) (some r.agent)
    if r.timedOut then s.relayLate r (!refused)
    else if refused then
      let s := s.count Ev.mirrorRefused (some (s.descOf r.lens).part)
      (s.respond r.port r.txid none .aborted).dropRelay tag
    else (s.respond r.port r.txid none .done 1).relayGrant r

/-- R411: a `FILL` record is installed unless the line is present, a miss register holds it, or its lens is at its quota. The lens
is the one that holds the line here; a line that lies in no `MIRROR` lens of the active set has no place (log entry 139). -/
def State.fillOk (line : Nat) (s : State) : Bool :=
  let l := s.lensAt (line * 128)
  (s.descOf l).mirror && (s.homed line || s.relayed line) && (s.lineOf line).isNone && (s.wbSec line 0).isNone &&
  (s.wbSec line 1).isNone && (s.mrOf line).isNone && !s.atQuota l

/-- R85, R131, R411: a `FILL` record, whose line is looked up in the tags; one whose victim must be written back first waits for it. -/
def State.fillIn (line : Nat) (dat : List DatFlit) (s : State) : State :=
  let s := s.readTag line
  if s.power.state == .recovery then s
  else match dat.find? (·.sector == 0), dat.find? (·.sector == 1) with
  | some a, some b =>
    if !s.fillOk line then s
    else
      let l := s.lensAt (line * 128)
      s.installSoon 3 line (s.descOf l).part l (some (a.data, a.poison)) (some (b.data, b.poison))
  | _, _ => s

/-- R413: a `VER` record verifies the mirrored slots that name the same window with an equal hash. -/
def State.verIn (base size hash : Nat) (s : State) : State :=
  { s with lens := { s.lens with slots := s.lens.slots.mapIdx fun i l =>
      match l.desc with
      | some d => if s.verifies i l && d.base == base && d.size == size && d.hash == hash
          then { l with unverified := false } else l
      | none => l } }

/-! ### The records of a frame (R401, R405, R406) -/

/-- R402: a `RETIRE` record; one for a lane that is failed already changes nothing. -/
def State.retireIn (lane seq : Nat) (s : State) : State :=
  if s.span.st == .active && lane < 18 && !s.span.failed.getLsbD lane then s.laneRetired lane seq else s

/-- R407 to R413: a record takes effect. -/
def State.recIn (r : SpanRec) (s : State) : State :=
  match r with
  | .req op q => s.spanIn (.spanReqRecord op q) (State.relayIn op q) (State.relayOff op q)
  | .rsp tag st g o d p =>
    s.spanIn (.spanRspRecord tag st g o d p) (fun t => (t.entryRead (.relay tag) 4 tag).rspIn tag st g o d p) id
  | .snp op line n agent => s.spanIn (.spanSnpRecord op line n agent) (State.snpIn op line n agent) id
  | .snr code n notice pd d => s.spanIn (.spanSnrRecord code n notice pd d) (State.snrIn code n notice pd d) id
  | .hrec line agent tag =>
    s.spanIn (.hrec line agent tag)
      (fun t => { t with span := { t.span with holders := t.span.holders ++ [(line, agent, tag)] } }) id
  | .hack tag refused => s.spanIn (.hack tag refused) (fun t => (t.entryRead (.relay tag) 4 tag).hackIn tag refused) id
  | .fill line slot d => s.spanIn (.fill line slot d) (State.fillIn line d) id
  | .ver slot base size hash => s.spanIn (.ver slot base size hash) (State.verIn base size hash) id
  | .retire lane seq => s.retireIn lane seq

/-- R405, R431: `n` slots of a channel arrive; their credit is owed. -/
def State.owe (chan n : Nat) (s : State) : State :=
  State.act 15 n { s with span := { s.span with owed := s.span.owed.modify chan (· + n) } }

/-- R406: a slot of a channel goes to the records that lack data, or brings up to four records. -/
def putSlot (q : List (Nat × List Sector)) (d : Sector) : List (Nat × List Sector) :=
  match q.findIdx? (fun x => x.2.length < recNeed x.1) with
  | some i => q.modify i fun x => (x.1, x.2 ++ [d])
  | none => q ++ (((List.range 4).map fun i => (d.toNat >>> (128 * i)) % 2 ^ 128).filter fun n => bits n 127 124 != 0).map fun n => (n, [])

/-- R405, R406: a slot arrives; the records that are complete take effect in their order. -/
def State.slotIn (x : Nat × Sector) (s : State) : State :=
  let q := putSlot (s.span.rxRecs.getD x.1 []) x.2
  let done := q.takeWhile fun r => recNeed r.1 ≤ r.2.length
  let s := s.owe x.1 1
  let s := { s with span := { s.span with rxRecs := s.span.rxRecs.set x.1 (q.drop done.length) } }
  done.foldl (fun t r => match SpanRec.ofBits r.1 r.2 with
    | some v => t.recIn v
    | none => t) s

/-- R401: a frame that is accepted: its acknowledgement, its credits, its slots, and the records that may leave now. -/
def State.frameGood (f : SpanFrame) (s : State) : State :=
  let h := headerOf f
  let s := { s with span := { s.span with rxNext := (s.span.rxNext + 1) % 65536, rxNaks := 0, credits := addCredits h s.span.credits, ctl := 1 } }
  let s := match bits h 33 32 with
    | 1 => State.spanAcked (bits h 31 16) { s with span := { s.span with naks := 0 } }
    | 2 => s.nak (bits h 31 16)
    | _ => s
  let s := ((frameSlots f h).foldl (fun t x => t.slotIn x) s).spanFlush
  if s.span.ctl == 0 then s else s.ackFrame s.span.ctl

/-- R402: the frame that is expected next has failed once more: the 16th failed replay starts a retrain. DEDUCED (log entry 149): a frame
is that one when its `SEQ` says so, or when unit 0, which carries the `SEQ`, has failed. -/
def State.rxFails (unit : Option Nat) (seq : Nat) (s : State) : State :=
  if unit.isNone || !(unit == some 0 || seq == s.span.rxNext) then s
  else if 16 < s.span.rxNaks + 1 then { s with span := { s.span with rxNaks := 0, lane := 0, rx := .retrain } }
  else { s with span := { s.span with rxNaks := s.span.rxNaks + 1 } }

/-- R401: a frame that is rejected is naked, for its replay, which is counted and logged with its first failing lane. DESIGN
CHOICE (log entry 140): of a frame whose `SEQ` alone is wrong it is the lane of unit 0, which carries that field. -/
def State.frameBad (unit : Option Nat) (seq : Nat) (s : State) : State :=
  let s := s.rxFails unit seq
  let s := (s.count Ev.spanReplay none).logSpan 0x020 (s.laneOf (unit.getD 0)) s.span.rxWidth 0
  s.ackFrame 2

/-- R401, R402, R415: a frame arrives, so that the twin is awake; lanes that have failed too often are retired. -/
def State.frame (f : SpanFrame) (s : State) : State :=
  let s := s.countUnits f
  let s := { s with span := { s.span with farRests := false } }
  let s := if (badUnit f).isNone && bits (headerOf f) 15 0 == s.span.rxNext then s.frameGood f
    else s.frameBad (badUnit f) (bits (headerOf f) 15 0)
  s.badLanes.foldl (fun t i => if t.span.rx == .active then t.laneFails i else t) s

/-! ### The commands -/

/-- R397: detection is attempted, by this slice, or by a twin that a warm reset has taken out of a link that was up (DEDUCED, log entry
140). -/
def execSpanDetect (lanes : BitVec 18) (s : State) : Res :=
  if s.detectDue then finish (s.fresh0.detect lanes)
  else if s.twinDetects then
    let s := s.fresh0.setLink .retrain
    finish { s with span := { s.span with twinReset := true } }
  else s.notDue

/-- R399: training from `DOWN` ends. -/
def execSpanTrainingComplete (lanes : BitVec 18) (caps : Caps) (s : State) : Res :=
  if s.span.st == .align then finish (s.fresh0.trainEnd true lanes caps) else s.notDue

/-- R397, R402: a retrain ends. After the one that a warm reset of the twin has caused the link is as fresh as after a training from
`DOWN` (DEDUCED, log entry 140). -/
def execSpanRetrainComplete (lanes : BitVec 18) (caps : Caps) (s : State) : Res :=
  if s.span.st == .retrain || s.span.rx == .retrain then finish (s.fresh0.trainEnd s.span.twinReset lanes caps)
  else s.notDue

/-- R401: a frame; nothing is received without a link, nor while the slice sleeps (R415). -/
def execSpanFrame (f : SpanFrame) (s : State) : Res :=
  let s := s.fresh0
  finish (if s.span.rx == .active && !s.asleep then s.frame f else s)

/-- R401: a nak. -/
def execSpanNak (ack : Nat) (s : State) : Res :=
  let s := s.fresh0
  finish (if s.span.rx == .active && !s.asleep then (s.nak ack).spanFlush else s)

/-- R402: a lane of the receiving direction that was not failed loses lock. -/
def execLaneFailure (lane : Nat) (s : State) : Res :=
  if s.span.rx == .active && lane < 18 && !s.span.rxFailed.getLsbD lane then finish (s.fresh0.laneFails lane)
  else s.notDue

/-- A record that arrives by itself: one slot for it and one for each data flit (log entry 101). -/
def recRow (r : SpanRec) (s : State) : Res :=
  let s := s.fresh0
  finish (if s.linkUp then (s.owe r.chan r.slots).recIn r else s)

/-- R402: a `RETIRE` record. -/
def execRetire (lane seq : Nat) (s : State) : Res := recRow (.retire lane seq) s

/-- R404: the port has been `DOWN` in service for 10 ms without a return to `ACTIVE`; an attempt to train does not end that time. In a
relock nothing acts (R417). -/
def execSpanDownTimeout (s : State) : Res :=
  if s.power.straps.split && s.gate == .serve && !s.span.st.trained && !s.span.farDown then
    finish s.fresh0.giveUp
  else s.notDue

/-- A relayed `REQ` record (R407). -/
def execSpanReqRecord (op : ReqOp) (q : Req) (s : State) : Res := recRow (.req op q) s

/-- An `RSP` record (R408); the relay entry it reads is checked (R448). -/
def execSpanRspRecord (tag status grant : Nat) (isOpen : Bool) (dat : List DatFlit) (partialAttr : Bool) (s : State) : Res :=
  recRow (.rsp tag status grant isOpen dat partialAttr) s

/-- An `SNP` record (R409). -/
def execSpanSnpRecord (op line id agent : Nat) (s : State) : Res := recRow (.snp op line id agent) s

/-- An `SNR` record (R409). -/
def execSpanSnrRecord (code id notice : Nat) (pd : Bool) (dat : List DatFlit) (s : State) : Res := recRow (.snr code id notice pd dat) s

/-- A holder record (R412): it takes its turn behind those that wait. -/
def execHrec (line agent tag : Nat) (s : State) : Res := recRow (.hrec line agent tag) s

/-- A holder acknowledgement (R412); the relay entry it reads is checked (R448). -/
def execHack (tag : Nat) (refused : Bool) (s : State) : Res := recRow (.hack tag refused) s

/-- A replica fill record (R411). -/
def execFill (line slot : Nat) (dat : List DatFlit) (s : State) : Res := recRow (.fill line slot dat) s

/-- A verification record (R413). -/
def execVer (slot base size hash : Nat) (s : State) : Res := recRow (.ver slot base size hash) s

/-- R413: a mirrored slot is still unverified 1 ms after its swap point. -/
def execMirrorMismatch (slot : Nat) (s : State) : Res :=
  if s.verifies slot (s.lensSlot slot) && (s.lensSlot slot).unverified then
    finish (s.fresh0.count Ev.mirrorMismatch (some (s.descOf (some slot)).part))
  else s.notDue

/-- R33, R54, R415: the level of `SPAN_WAKE_O`: high while the slice holds a record for its sleeping twin. -/
def State.spanWakeO (s : State) : Bool :=
  s.drives && s.power.straps.split && s.span.farRests &&
  !(s.span.waitTx.isEmpty && s.span.replay.all fun (x : FrameHdr × Option SpanRec) => x.2.isNone)

/-- R415, R427: `SPAN_WAKE_I` wakes a sleeping slice of a split package; any other ignores it. -/
def execSpanWakeI (s : State) : Res :=
  let s := s.fresh0
  finish (if s.power.straps.split && s.asleep then s.wakeUp else s)

end Sys2Proof.Machine
end

