-- ==== Sys2Proof/Machine/Power.lean ====
section
/-! DEFINITION. Power: the estimate and the cap, operating points and the relock, sleep and its depths, wakes, and what
arrived while the slice could not serve it (R27, R36, R41, R416 to R436, R471). -/

namespace Sys2Proof.Machine

open Sys2Proof

/-! ### Arrivals that were kept (R27, R41, R418, R428) -/

/-- A record that was kept; its credit is owed already (R405). -/
def heldRec (r : SpanRec) (s : State) : Res := finish (s.fresh0.recIn r)

/-- The meaning of an arrival that a sleep or a relock has kept. -/
def runHeld (i : Instr) (s : State) : Res :=
  match i with
  | .rdShared q => execRdShared q s
  | .rdOnce q => execRdOnce q s
  | .rdUnique q => execRdUnique q s
  | .upgrade q => execUpgrade q s
  | .wrFull q => execWrFull q s
  | .wrPartial q => execWrPartial q s
  | .zeroLine q => execZeroLine q s
  | .append q => execAppend q s
  | .writeback q => execWriteback q s
  | .writeclean q => execWriteclean q s
  | .evictClean q => execEvictClean q s
  | .provisionalRead once q => execProvisionalRead once q s
  | .confirm q => execConfirm q s
  | .cancel q => execCancel q s
  | .reservedOpcodeRequest o q => execReservedOpcodeRequest o q s
  | .atAdd q => execAtAdd q s
  | .atCadd q => execAtCadd q s
  | .atMin q => execAtMin q s
  | .atMax q => execAtMax q s
  | .atAnd q => execAtAnd q s
  | .atOr q => execAtOr q s
  | .atXor q => execAtXor q s
  | .atSwap q => execAtSwap q s
  | .atCas64 q => execAtCas64 q s
  | .atCas128 q => execAtCas128 q s
  | .accumulate q => execAccumulate q s
  | .rdFused q => execRdFused q s
  | .winArrive q => execWinArrive q s
  | .winFold q => execWinFold q s
  | .winCollect q => execWinCollect q s
  | .cueRing q => execCueRing q s
  | .datInData p t f => execDatInData p t f s
  | .snoopResponse r => execSnoopResponse r s
  | .snoopData p d l => execSnoopData p d l s
  | .snpInflight r => execSnpInflight r s
  | .compAck r => execCompAck r s
  | .memReadData f => execMemReadData f s
  | .tdcFetchComplete f => execTdcFetchComplete f s
  | .wack p t n => execWack p t n s
  | .agentDown a => execAgentDown a s
  | .cuePost m => execCuePost m s
  | .armSlot c w l => execArmSlot c w l s
  | .disarmSlot c w n => execDisarmSlot c w n s
  | .flushRange m => execFlushRange m s
  | .invalidateRange m => execInvalidateRange m s
  | .discardRange m => execDiscardRange m s
  | .zeroRange m => execZeroRange m s
  | .tileFill m => execTileFill m s
  | .pinLoad m => execPinLoad m s
  | .unpin m => execUnpin m s
  | .armWindowArm m => execArmWindowArm m s
  | .armWindowRearm m => execArmWindowRearm m s
  | .armWindowRelease m => execArmWindowRelease m s
  | .seal m => execSeal m s
  | .finalize m => execFinalize m s
  | .collect m => execCollect m s
  | .lensSwap m => execLensSwap m s
  | .resilverDrain m => execResilverDrain m s
  | .resilverZero m => execResilverZero m s
  | .resilverRelease m => execResilverRelease m s
  | .handoverClaim m => execHandoverClaim m s
  | .handoverRelease m => execHandoverRelease m s
  | .handoverCommit m => execHandoverCommit m s
  | .handoverRelay m => execHandoverRelay m s
  | .tdcPreload t => execTdcPreload t s
  | .tdcPreloadLock t => execTdcPreloadLock t s
  | .tdcUnlock t => execTdcUnlock t s
  | .tdcWrite t => execTdcWrite t s
  | .tdcZeroEntry t => execTdcZeroEntry t s
  | .tdcInvalAddr t => execTdcInvalAddr t s
  | .tdcInvalPart t => execTdcInvalPart t s
  | .xltDescWrite c p v => execXltDescWrite c p v s
  | .fqConsWrite c v => execFqConsWrite c v s
  | .fqRingConfigWrite c b v => execFqRingConfigWrite c b v s
  | .hotConfigWrite c b v => execHotConfigWrite c b v s
  | .pkgIdentWrite c v => execPkgIdentWrite c v s
  | .prescGo c => execPrescGo c s
  | .cfgReq c => execCfgReq c s
  | .cfgReqClear c => execCfgReqClear c s
  | .shadowEditInsert c n => execShadowEditInsert c n s
  | .shadowEditRemove c n => execShadowEditRemove c n s
  | .elogClear c n => execElogClear c n s
  | .registerWrite c o v => execRegisterWrite c o v s
  | .csrpReadInSleep c o => execCsrpReadInSleep c o s
  | .testReq c => execTestReq c s
  | .testExit c => execTestExit c s
  | .spanReqRecord o q => heldRec (.req o q) s
  | .spanRspRecord t st g o d p => heldRec (.rsp t st g o d p) s
  | .spanSnpRecord o l n a => heldRec (.snp o l n a) s
  | .spanSnrRecord c n k p d => heldRec (.snr c n k p d) s
  | .hrec l a t => heldRec (.hrec l a t) s
  | .hack t r => heldRec (.hack t r) s
  | .fill l n d => heldRec (.fill l n d) s
  | .ver n b z h => heldRec (.ver n b z h) s
  | _ => finish s

/-- Serve one kept arrival, of its age (R430); what it sends leaves in this step. An answer to a request that is gone is not
taken. -/
def State.replay (s : State) (x : Instr × Nat) : State :=
  match runHeld x.1 { s with power := { s.power with heldAge := x.2 } } with
  | .next t => { t with out := s.out ++ t.out, sig := t.sig ++ s.sig, acks := s.acks ++ t.acks, power := { t.power with heldAge := 0 } }
  | _ => s

/-- R27, R418, R428: the kept arrivals are served in the order of their arrival. -/
def State.replayAll (s : State) : State :=
  s.power.held.foldl (fun t i => t.replay i) { s with power := { s.power with held := [] } }

/-! ### The estimate, the cap and the power window (R431 to R434, R471) -/

/-- R394, R431: the span lanes that are active: those of each direction that is `ACTIVE`. -/
def State.lanesActive (s : State) : Nat :=
  (if s.span.st == .active then s.span.width else 0) + (if s.span.rx == .active then s.span.rxWidth else 0)

/-- R431: the counts of the 24 classes over an interval: those of what commands did and `given`, what no command did. DESIGN CHOICE (log
entry 141): the lane-intervals are the lanes active as the interval ends. -/
def State.activity (given : List Nat) (s : State) : List Nat :=
  (s.acts.zipIdx.map fun (n, i) => n + given.getD i 0).modify 16 (· + s.lanesActive)

/-- R431: the estimate in units of 1/1,024 W, in the 16 bits of `PWRC_EST` (log entry 50). -/
def Fuses.estimate (f : Fuses) (op : Nat) (activity : List Nat) : Nat :=
  min 65535 (f.pStatic.getD op 0 + (((f.weights.getD op []).zip activity).map fun (w, n) => w * n).sum)

/-- R432: `PWRC_EST`. -/
def State.estimate (given : List Nat) (s : State) : Nat :=
  if s.power.state == .sleep then 922
  else if s.asleep then 51
  else if s.power.relock then s.power.est
  else s.fuses.estimate s.power.op (s.activity given)

/-- R433, R434: the issue duty after an estimate `e` under the cap. -/
def Power.adjust (p : Power) (e : Nat) : Power :=
  let c := p.cap * 16
  if p.cap == 0 || p.op != 0 then { p with duty := 8, capUnreach := false, overRun := 0, underRun := 0 }
  else if c < e then
    if 2 < p.duty then { p with duty := p.duty - 1, overRun := 0, underRun := 0 }
    else { p with overRun := min 8 (p.overRun + 1), underRun := 0, capUnreach := p.capUnreach || 7 ≤ p.overRun }
  else if p.duty < 8 then
    let run := if e * (p.duty + 1) ≤ c * p.duty then p.underRun + 1 else 0
    if run == 8 then { p with duty := p.duty + 1, capUnreach := false, overRun := 0, underRun := 0 }
    else { p with capUnreach := false, overRun := 0, underRun := run }
  else { p with capUnreach := false, overRun := 0, underRun := 0 }

/-- R431, R434, R436: an estimate is formed, and the next interval begins; a slice at rest or in a relock keeps its duty. -/
def State.powerEstimate (given : List Nat) (cap : Nat) (s : State) : State :=
  let e := s.estimate given
  let p := { s.power with cap := cap, est := e, winSum := s.power.winSum + e, winCnt := s.power.winCnt + 1 }
  let p' := if s.asleep || p.relock then p else p.adjust e
  let s := { s with power := p', acts := List.replicate 24 0 }
  if p'.capUnreach && !p.capUnreach then s.count Ev.capUnreachable none else s

/-- R471: the mean of a window of `n` estimates that sum to `sum`, as `PWR_VIEW` shows it. -/
def windowView (sum n : Nat) : Nat := 1024 * (sum / (1024 * n))

/-- R471: a power window ends. -/
def State.powerWindow (s : State) : State :=
  let v := windowView s.power.winSum s.power.winCnt
  let s := if s.power.winCnt == 0 then s
    else { s with pws := s.pws.map fun (w : PWin) => { w with pwrView := v } }
  { s with power := { s.power with winSum := 0, winCnt := 0 } }

/-! ### Operating points (R416 to R419) -/

/-- R417, R419: the change to the point on `PWRC_OP` begins with the relock, where that value names another point. -/
def State.opDue (s : State) : State :=
  let p := { s.power with opLate := false }
  if p.opWire < 6 && p.opWire != p.op then
    { s with power := { p with relock := true, nextOp := some p.opWire, opAge := 0 } }
  else { s with power := p }

/-- R417, R419: a new value on `PWRC_OP`: a slice at rest records it, and one that is in `INIT` or has changed its point less than 50 us ago
lets it wait (log entry 93). -/
def State.opChange (op : Nat) (s : State) : State :=
  if s.power.rstLow then s
  else
    let p := { s.power with opWire := op }
    if s.asleep then
      { s with power := if 6 ≤ op then p else { p with nextOp := if op == p.op then none else some op } }
    else if p.state == .init || p.relock || p.opAge < 2500 then { s with power := { p with opLate := true } }
    else State.opDue { s with power := p }

/-- R419: one ACLK of the interval passes, and at its end the change that has waited begins. -/
def State.opTick (s : State) : State :=
  let s := { s with power := { s.power with opAge := min 2500 (s.power.opAge + 1) } }
  if s.power.opLate && s.power.opAge == 2500 && s.fclkRuns && s.power.state != .init then s.opDue else s

/-- R417, R419: the recorded point comes into force, with its `PWRC_ACK`. -/
def State.takeOp (s : State) : State :=
  match s.power.nextOp with
  | some op => State.emit .pwrcAck { s with power := { s.power with op := op, nextOp := none } }
  | none => s

/-- R298, R417 to R419: issue resumes after the kept beats have been applied, with the round that a level has asked for. -/
def State.relockDone (s : State) : State :=
  let s := State.takeOp { s with power := { s.power with relock := false } }
  let s := if s.power.state == .service then s.applyKept else s
  let s := s.flush.replayAll
  let s := (if s.reg.owed && s.regRuns then s.grantRound else s).granted
  if s.power.opLate && s.power.opAge == 2500 then s.opDue else s

/-! ### Sleep (R146, R258, R285, R329, R355, R422 to R424, R464) -/

/-- R258: a window arms, drains, finalises, folds or collects. -/
def State.winsWork (s : State) : Bool :=
  !s.folds.isEmpty || s.wins.any fun w =>
    w.arming.isSome || (w.st == .sealed && !w.drained) || w.finalising || w.col.isSome || !w.after.isEmpty

/-- R422: a command, an operation or a handover is in progress; a change of operating point that waits counts (log entry 141). -/
def State.inProgress (s : State) : Bool :=
  s.mbs.any (·.st == 1) || s.xlt.opBusy.any (·.isSome) || s.xlt.change.any (· == true) || s.presc.phase != .idle ||
  s.lens.rebuild || s.power.relock || s.power.opLate || !s.hand.buckets.isEmpty || s.res.active || s.power.cfgDrain

/-- R423: the windows and buckets that `OFF` allows. -/
def State.offOk (s : State) : Bool := s.wins.all fun w => w.st == .idle || w.st == .collected

/-- R415: no record sent to the twin awaits acknowledgement. -/
def State.spanAwaits (s : State) : Bool := s.span.replay.any fun (x : FrameHdr × Option SpanRec) => x.2.isSome

/-- R422, R423, R452: the slice has been idle for `SLEEP_DELAY` ACLK, or has cleared the deficit that alone woke it, and nothing holds it
awake; no record and no acknowledgement of either direction of the span is owed (R415). -/
def State.sleepDue (s : State) : Bool :=
  s.power.state == .service && s.power.sleepPh == .none && s.cfg.inForce && s.cfg.power.sleepEn && s.power.sleepOk &&
  (s.cfg.power.sleepDelay ≤ s.power.idle || (s.power.scrubWake && s.power.scrubDef == 0)) && !s.spanAwaits && s.span.ctl == 0 &&
  s.mrs.isEmpty && s.wbb.isEmpty && s.prov.isEmpty && !s.winsWork && s.walks.isEmpty && s.cue.beats.isEmpty &&
  !s.cue.slots.any (fun a => a.st == .due || a.st == .running) && !s.inProgress && (!s.cfg.power.offEn || s.offOk)

/-- R424 steps 2 to 4: the last grant round, and the commit point. -/
def State.commitSleep (dest : SliceState) (s : State) : State :=
  let s := s.sleepRound
  State.sign 0x60 0x100 0x100 none
    { s with power := { s.power with state := dest, sleepPh := .committed, wakeReq := false, wakeDue := false, scrubWake := false } }

/-- R424: a sleep is entered; the entry to `OFF` drains first. -/
def State.sleepEntry (s : State) : State :=
  if s.cfg.power.offEn then State.tidy { s with power := { s.power with sleepPh := .offDrain } }
  else s.commitSleep .sleep

/-- R424 step 1: the off drain has left nothing. -/
def State.offDrained (s : State) : Bool :=
  s.power.sleepPh == .offDrain && s.quiet && s.txns.isEmpty && s.drainLeft.2.isEmpty && s.wbb.isEmpty

/-- R424 step 5: the slice rests; a wake event that came after the commit point begins the wake. -/
def State.restNow (s : State) : State :=
  { s with power := { s.power with sleepPh := .none, wakeDue := s.power.wakeReq, wakeReq := false } }

/-! ### Wake (R40, R419, R426, R428, R429) -/

/-- R40, R428: the slice enters `SERVICE` from its rest; the level in force of each urgency input is the one its wires show. One that has
lost its lock on the way goes on to `RECOVERY` (R420, R421). -/
def State.awake (s : State) : State :=
  let s := State.urgSample { s with power := { s.power with state := .service, wakeDue := false, idle := 0 } }
  let s := s.sign 0x60 0x200 0x200 none
  if s.elog.fatal then s.takeOp.fatal.replayAll
  else ((s.takeOp.applyKept).grantRound).replayAll.granted

/-- R106, R426: the ring of an append lens after `OFF`. -/
def LensSlot.afterOff (l : LensSlot) : LensSlot :=
  if (l.desc.map (·.append)).getD false then { l with tail := l.head, stopped := false } else l

/-- R426: the entry that is damaged is kept across `OFF`. -/
def Damage.survivesOff : Damage → Bool
  | .slot _ => true
  | _ => false

/-- R426: what `OFF` loses; R452: the scrub pass begins again. -/
def State.offLosses (s : State) : State :=
  let s := s.initPass
  { s with wbb := [], mrs := [],
           lens := { s.lens with slots := s.lens.slots.map LensSlot.afterOff, deadDrop := [], thrash := List.replicate 16 {} },
           xlt := { s.xlt with tdc := List.replicate 48 none, side := [] },
           ctr := List.replicate 48 0, hist := List.replicate 64 0, hot := { s.hot with ctrs := [], epochNo := 0 },
           reg := { s.reg with bal := List.replicate 64 (List.replicate 5 {}), debtor := List.replicate 64 false },
           bad := s.bad.filter Damage.survivesOff, power := { s.power with scrubDef := 0, scrubNext := 0 } }

/-! ### The commands -/

/-- R54, R431: an estimate; in reset and in `INIT` the slice forms none, and drives `PWRC_EST` to zero. -/
def execPowerEstimate (activity : List Nat) (cap : Nat) (s : State) : Res :=
  let s := s.fresh0
  finish (if s.drives then s.powerEstimate activity cap else s)

/-- R471: a power window ends. -/
def execPowerWindow (s : State) : Res := finish s.fresh0.powerWindow

/-- R417: a new operating point has been sampled twice. -/
def execOpChange (op : Nat) (s : State) : Res := finish (s.fresh0.opChange op)

/-- R417: the generator has locked. -/
def execRelockComplete (s : State) : Res :=
  if s.power.relock then finish s.fresh0.relockDone else s.notDue

/-- R422, R427: `PWRC_SLEEP` changes; its fall is a wake event. -/
def execPwrcSleepChange (high : Bool) (s : State) : Res :=
  let s := s.fresh0
  let was := s.power.sleepOk
  let s := { s with power := { s.power with sleepOk := high } }
  finish (if was && !high then s.wakeUp else s)

/-- R424: a sleep is entered. -/
def execSleepEntry (s : State) : Res :=
  if s.sleepDue then finish s.fresh0.sleepEntry else s.notDue

/-- R424: the off drain ends. -/
def execOffDrainComplete (s : State) : Res :=
  if s.fclkRuns && s.offDrained then finish (s.fresh0.commitSleep .off) else s.notDue

/-- R424: the entry ends. -/
def execSleepEntryComplete (s : State) : Res :=
  if s.power.sleepPh == .committed then finish s.fresh0.restNow else s.notDue

/-- R428: a wake from `SLEEP` ends. -/
def execWakeComplete (s : State) : Res :=
  if s.power.state == .sleep && s.power.sleepPh == .none && s.power.wakeDue then finish s.fresh0.awake
  else s.notDue

/-- R429: a wake from `OFF` ends. -/
def execOffWakeComplete (s : State) : Res :=
  if s.power.state == .off && !s.power.rstLow && s.power.sleepPh == .none && s.power.wakeDue then
    finish s.fresh0.offLosses.awake
  else s.notDue

end Sys2Proof.Machine
end

