-- ==== Sys2Proof/Machine/Reset.lean ====
section
/-! DEFINITION. Cold and warm resets and the start-up (R44, R46, R47, R437 to R440). -/

namespace Sys2Proof.Machine

open Sys2Proof

/-- What no reset touches: the fuses, the levels of the input pins, the queue of commands and the model's own counter. -/
def State.blank (s : State) : State :=
  { State.reset with fuses := s.fuses, pending := s.pending, fresh := s.fresh,
                     reg := { State.reset.reg with urgWire := s.reg.urgWire },
                     test := { State.reset.test with wrstn := s.test.wrstn },
                     power := { State.reset.power with sleepOk := s.power.sleepOk, dbgSel := s.power.dbgSel } }

/-- R437: `RST_N` low on 64 or more edges. -/
def State.coldReset (s : State) : State := s.blank

/-- R437: `RST_N` low on 1 to 63 edges: what a warm reset keeps; the pair level is that of the last training since the cold reset
(R352). -/
def State.warmReset (s : State) : State :=
  let b := s.blank
  { b with
    regs := { b.regs with pkgIdent := s.regs.pkgIdent, pkgSet := s.regs.pkgSet },
    elog := { s.elog with fatal := false },
    lanes := s.lanes,
    meas := { b.meas with locked := s.meas.locked, edited := s.meas.edited, testUsed := s.meas.testUsed,
                          epochs := s.meas.epochs },
    span := { b.span with failed := s.span.failed, rxFailed := s.span.rxFailed, pairLevel := s.span.pairLevel },
    power := { b.power with straps := s.power.straps, strapsTaken := s.power.strapsTaken, winSum := s.power.winSum,
                            winCnt := s.power.winCnt } }

/-- R46, R47: the index is valid for the strapped configuration. -/
def strapsValid (t : Straps) : Bool := t.index < (if t.split then 32 else 16)

/-- R32, R439: `RST_N` is released: the straps are sampled after a cold reset, `INIT` begins, and every memory port is granted 64
credits for read data. -/
def State.release (straps : Straps) (op : Nat) (s : State) : State :=
  let t := if s.power.strapsTaken then s.power.straps else straps
  { s with mem := s.mem.map fun (c : MemPort) => { c with rdata := 64 },
           power := { s.power with rstLow := false, state := .init, straps := t, strapsTaken := true,
                                   strapErr := if strapsValid t then 0 else 1, op := if op < 6 then op else 0, opWire := op } }

/-- `RST_N` low for a cold reset (R437). -/
def execColdReset (s : State) : Res := finish s.fresh0.coldReset

/-- `RST_N` low for a warm reset (R437); after power-up only a cold reset ends the loss of everything. -/
def execWarmReset (s : State) : Res := finish s.fresh0.warmReset

/-- `RST_N` is released (R439). -/
def execResetRelease (straps : Straps) (op : Nat) (s : State) : Res :=
  if s.power.rstLow then finish (s.fresh0.release straps op) else s.notDue

/-- R417, R439: the initialisation pass ends; a strap error keeps the slice in `INIT` (R47). A change of operating point that was sampled in
`INIT` begins where R419 lets it. -/
def execInitComplete (s : State) : Res :=
  if s.power.state == .init && s.power.strapErr != 1 then
    let s := s.fresh0.initPass.urgSample
    let s := { s with power := { s.power with state := .config } }
    finish (if s.power.opLate && s.power.opAge == 2500 then s.opDue else s)
  else s.notDue

end Sys2Proof.Machine
end

