-- ==== Sys2Proof/Machine/Errors.lean ====
section
/-! DEFINITION. The patrol scrubber, the check of configuration words, and the loss of lock (R420, R447, R450 to R452). -/

namespace Sys2Proof.Machine

open Sys2Proof

/-! ### The scrubber (R450 to R452) -/

/-- R450: the scrubber runs. -/
def State.scrubs (s : State) : Bool := s.fclkRuns && (s.power.state == .config || s.power.state == .service)

/-- R450: the scrubber reads sector `i` of a line, unless it is poisoned; `readData` skips zero sectors. -/
def State.scrubSec (key i : Nat) (s : State) : State :=
  match s.arr.find? (·.key == key) with
  | some c => if (c.sec i).poison then s else s.readData c i
  | none => s

/-- R450: the scrubber visits a set: its tags, its directory entries and its valid sectors. -/
def State.scrubSet (set : Nat) (s : State) : State :=
  let s := (s.readTags set).readDirSet set
  (List.range 32).foldl (fun t w => (t.scrubSec (set * 32 + w) 0).scrubSec (set * 32 + w) 1) s

/-- R450, R452: a visit: the next set, and one less of the deficit. -/
def State.scrubStep (s : State) : State :=
  let set := s.power.scrubNext
  let s := s.scrubSet set
  { s with power := { s.power with scrubNext := (set + 1) % 65536, scrubDef := s.power.scrubDef - 1 } }

/-- R452: the schedule of a visit comes up: the scrubber reads the set, or a sleeping slice adds it to the deficit. -/
def State.scrubVisit (s : State) : State :=
  if s.scrubs then s.scrubStep
  else if s.power.state == .sleep then { s with power := { s.power with scrubDef := min 4096 (s.power.scrubDef + 1) } }
  else s

/-! ### Errors (R420, R447, R459) -/

/-- R459: what a sleep or a relock has kept meets the rules of `RECOVERY` once a fatal error has ended it. -/
def State.endRest (s : State) : State :=
  if s.power.state == .recovery then
    State.replayAll { s with power := { s.power with sleepPh := .none, wakeReq := false, wakeDue := false } }
  else s

/-- The damage is of a configuration word of this region. -/
def Damage.inRegion (region : Nat) : Damage → Bool
  | .cfg w _ => w.region == region % 256
  | _ => false

/-- R447, R491: a configuration or header word is read: an armed injection of kind 7 shows as a single-bit error, and damage of the
region that waits to be found shows with what the read itself brings. -/
def State.configWord (region flips : Nat) (s : State) : State :=
  let (n, s) := match s.fault (·.kind == 7) with
    | some j => (max 1 flips, s.metFault j)
    | none => (flips, s)
  let (n, s) := match s.bad.find? (Damage.inRegion region) with
    | some d => (max n (1 + b2n d.double), { s with bad := s.bad.erase d })
    | none => (n, s)
  if n == 0 then s else (s.cfgError region (2 ≤ n)).endRest

/-! ### The commands -/

/-- R450: a scrub visit. -/
def execScrubVisit (s : State) : Res := finish s.fresh0.scrubVisit

/-- R451: a visit that has waited takes its banks ahead of other traffic. -/
def execScrubForce (s : State) : Res := finish s.fresh0.scrubVisit

/-- R452: the deficit of a sleeping slice reaches 4,096 sets, which wakes it; `scrubWake` says that no other event has. -/
def execScrubDeficitWake (s : State) : Res :=
  if s.power.state == .sleep then
    let alone := !s.power.wakeDue && !s.power.wakeReq
    let s := State.wakeUp { s.fresh0 with power := { s.power with scrubDef := 4096 } }
    finish { s with power := { s.power with scrubWake := alone } }
  else s.notDue

/-- R447: the periodic read of a configuration or header word; there is none in reset and in `OFF`. -/
def execConfigWordCheck (region flips : Nat) (s : State) : Res :=
  let s := s.fresh0
  finish (if s.power.state == .off then s else s.configWord region flips)

/-- R420, R428, R429: the generator loses its lock outside a relock; in a wake it has one from 6 us on. A wake from `OFF` ends first, for
R421 has no way from `OFF` to `RECOVERY` (DESIGN CHOICE, log entry 154). -/
def execLockLoss (s : State) : Res :=
  let wakes := s.asleep && s.power.sleepPh == .none && s.power.wakeDue
  if s.power.rstLow || (s.asleep && !wakes) || s.power.relock then s.notDue else finish s.fresh0.fatal.endRest

end Sys2Proof.Machine
end

