-- ==== Sys2Proof/Machine/Wrapper.lean ====
section
/-! DEFINITION. The IEEE 1500 wrapper: its instructions, the boundary register, the self-test and the injection register (R53, R488 to
R491). -/

namespace Sys2Proof.Machine

open Sys2Proof

/-! ### Instructions (R53, R488) -/

/-- R53, R488: the instruction that a command loads while `WRSTN` has this level: with `WRSTN` low every code gives `WS_BYPASS`, and outside
`TEST` every one but `FZ_ID` acts as it. -/
def State.loadWir (w : WirInstr) (wrstn : Bool) (s : State) : State :=
  let acts := wrstn && (s.power.state == .test || w == .fzId)
  { s with test := { s.test with wir := if acts then w else .bypass, wrstn := wrstn } }

/-- Shift bits through the bypass register: what leaves at `WSO`, and the register. -/
def shiftBypass : List Bool → Bool → List Bool × Bool
  | [], b => ([], b)
  | x :: l, b => let (o, r) := shiftBypass l x; (b :: o, r)

/-- Shift bits through the boundary register, from `WSI` at its high end to `WSO` at bit 0. -/
def shiftWbr : List Bool → BitVec 16346 → List Bool × BitVec 16346
  | [], r => ([], r)
  | x :: l, r =>
    let (o, r') := shiftWbr l ((r >>> 1) ||| (BitVec.ofNat 16346 (b2n x) <<< 16345))
    (r.getLsbD 0 :: o, r')

/-- The low `n` bits of a number, lowest first. -/
def bitsOf (n v : Nat) : List Bool := (List.range n).map (bit v)

/-- The bypass register is selected and shifts. -/
def State.bypass (wsi : List Bool) (s : State) : State :=
  let (o, r) := shiftBypass wsi s.test.byp
  State.emit (.wso o) { s with test := { s.test with byp := r } }

/-! ### The boundary register (R489) -/

/-- The signals that the wrapper encloses (R53), by their port and channel. -/
inductive WbrPin where
  | req (port : Nat) | datIn (port : Nat) | datOut (port : Nat) | rsp (port : Nat) | snp (port : Nat) | snr (port : Nat)
  | memReq (port : Nat) | memWrite (port : Nat) | memRead (port : Nat)
  | cuei | cueo | rego | urg | csrpReq | csrpRsp | pwrcOp | pwrcSleep | pwrcCap | pwrcWake | pwrcAck | pwrcEst
deriving DecidableEq, Repr

/-- A cell's kind: the valid cell of a channel or flit port, the credit cell of a channel, or a signal bit. -/
inductive CellKind where
  | valid | credit | bits
deriving DecidableEq, Repr

/-- A run of cells of one signal; `out` says that the slice drives it. -/
structure WbrRun where
  pin : WbrPin
  kind : CellKind
  width : Nat
  out : Bool
deriving DecidableEq, Repr

/-- R489: the cells of a channel: its valid cell, its credit cell, which runs the other way, and its bits. -/
def chanRuns (pin : WbrPin) (out : Bool) (n : Nat) : List WbrRun := [⟨pin, .valid, 1, out⟩, ⟨pin, .credit, 1, !out⟩, ⟨pin, .bits, n, out⟩]

/-- R489: the cells of a flit port: its valid cell and its bits. -/
def portRuns (pin : WbrPin) (out : Bool) (n : Nat) : List WbrRun := [⟨pin, .valid, 1, out⟩, ⟨pin, .bits, n, out⟩]

/-- R489: the segment of a fabric port. -/
def fabRuns (p : Nat) : List WbrRun :=
  chanRuns (.req p) false 128 ++ chanRuns (.datIn p) false 544 ++ chanRuns (.datOut p) true 544 ++ chanRuns (.rsp p) true 32 ++
  chanRuns (.snp p) true 96 ++ chanRuns (.snr p) false 32

/-- R489: the segment of a memory port. -/
def memRuns (p : Nat) : List WbrRun := chanRuns (.memReq p) true 128 ++ chanRuns (.memWrite p) true 544 ++ chanRuns (.memRead p) false 544

/-- R489: the cells of the boundary register from the one next to `WSO` upward. The signals of `PWRC` stand in the order of R43
(log entry 24). -/
def wbrRuns : List WbrRun :=
  (List.range 8).flatMap fabRuns ++ (List.range 4).flatMap memRuns ++ portRuns .cuei false 48 ++ portRuns .cueo true 48 ++
  portRuns .rego true 24 ++ [⟨.urg, .bits, 32, false⟩] ++ portRuns .csrpReq false 83 ++ portRuns .csrpRsp true 80 ++
  [⟨.pwrcOp, .bits, 3, false⟩, ⟨.pwrcSleep, .bits, 1, false⟩, ⟨.pwrcCap, .bits, 12, false⟩,
   ⟨.pwrcWake, .bits, 1, true⟩, ⟨.pwrcAck, .bits, 1, true⟩, ⟨.pwrcEst, .bits, 16, true⟩]

/-- The runs with the number of the first cell of each. -/
def placeRuns : Nat → List WbrRun → List (Nat × WbrRun)
  | _, [] => []
  | n, r :: l => (n, r) :: placeRuns (n + r.width) l

/-- The run in which cell `i` lies. -/
def runOfCell (i : Nat) : Option WbrRun := ((placeRuns 0 wbrRuns).find? fun (n, r) => n ≤ i && i < n + r.width).map (·.2)

/-- What the cells of a signal hold. -/
def wbrField (r : BitVec 16346) (pin : WbrPin) (kind : CellKind) : Nat :=
  match (placeRuns 0 wbrRuns).find? fun (_, x) => x.pin == pin && x.kind == kind with
  | some (n, x) => (r.toNat >>> n) % 2 ^ x.width
  | none => 0

/-! ### Capture and drive (R488) -/

/-- The value of the signals that the state fixes: the levels of the input wires that it holds, the estimate, and what a slice in `TEST`
does not send: credits (R22, R486), beats and tokens. Any other signal is a free value (log entry 24). -/
def State.wbrKnown (s : State) (r : WbrRun) : Option Nat :=
  match r.pin, r.kind with
  | .urg, _ => some ((List.range 16).map fun i => s.reg.urgWire.getD i 0 * 4 ^ i).sum
  | .pwrcOp, _ => some s.power.opWire
  | .pwrcSleep, _ => some (b2n s.power.sleepOk)
  | .pwrcEst, _ => some s.power.est
  | .req _, .credit | .datIn _, .credit | .snr _, .credit => some 0
  | .cueo, .valid | .rego, .valid => some 0
  | _, _ => none

/-- R488: the cells of one direction capture their signals, and the others keep what they hold. -/
def State.capture (out : Bool) (s : State) : BitVec 16346 :=
  let free := (Config.freePins s.fresh).toNat
  BitVec.ofNat 16346 (((placeRuns 0 wbrRuns).map fun (n, r) =>
    let v := if r.out == out then (s.wbrKnown r).getD (free >>> n) else s.test.wbr.toNat >>> n
    v % 2 ^ r.width * 2 ^ n).sum)

/-- R53, R488: the level that the wrapper drives on the signal of a cell: the slice's outputs under `WS_EXTEST` and `WS_CLAMP`,
its inputs under `WS_INTEST`, and under `WS_SAFE` its outputs at the 0 of R54; where it is transparent, none. -/
def State.wbrDrives (s : State) (i : Nat) : Option Bool :=
  let out := ((runOfCell i).map (·.out)).getD false
  if s.power.state != .test then none
  else match s.test.wir with
    | .extest | .clamp => if out then some (s.test.wbr.getLsbD i) else none
    | .intest => if out then none else some (s.test.wbr.getLsbD i)
    | .safe => if out then some false else none
    | _ => none

/-! ### One FCLK of input (R488) -/

/-- The command that a request of this opcode is. -/
def reqCommand (op : ReqOp) (q : Req) : Instr :=
  match op with
  | .rdShared => if q.provisional then .provisionalRead false q else .rdShared q
  | .rdOnce => if q.provisional then .provisionalRead true q else .rdOnce q
  | .rdUnique => .rdUnique q | .upgrade => .upgrade q | .wrFull => .wrFull q | .wrPartial => .wrPartial q
  | .zeroLine => .zeroLine q | .append => .append q | .writeback => .writeback q | .writeclean => .writeclean q
  | .evictClean => .evictClean q | .confirm => .confirm q | .cancel => .cancel q
  | .atAdd => .atAdd q | .atCadd => .atCadd q | .atMin => .atMin q | .atMax => .atMax q | .atAnd => .atAnd q
  | .atOr => .atOr q | .atXor => .atXor q | .atSwap => .atSwap q | .atCas64 => .atCas64 q | .atCas128 => .atCas128 q
  | .accumulate => .accumulate q | .rdFused => .rdFused q | .winArrive => .winArrive q | .winFold => .winFold q
  | .winCollect => .winCollect q | .cueRing => .cueRing q
  | .other n => .reservedOpcodeRequest n q

/-- The command that an `SNR` flit is (R162). -/
def snrCommand (r : Snr) : Instr :=
  match r.code with
  | 3 => .snpInflight r
  | 4 => .compAck r
  | _ => .snoopResponse r

/-- The wrong bits that the check bits above the low `k` bits of a presented word show; of two different check values how many bits differ
is a free value (log entry 24). -/
def State.flipsOf (k w : Nat) (s : State) : Nat :=
  if w / 2 ^ k == (Config.checkBits k (w % 2 ^ k)).toNat then 0 else 1 + (Config.syndrome s.fresh).toNat % 2

/-- R13, R26, R488: what the cells of a fabric port bring. -/
def State.fabInput (r : BitVec 16346) (p : Nat) (s : State) : List Instr :=
  let f (pin : WbrPin) := wbrField r pin .bits
  let on (pin : WbrPin) (k : CellKind) : Bool := wbrField r pin k == 1
  let (op, q) := reqOf p (BitVec.ofNat 128 (f (.req p)))
  let (id, d) := datOf (BitVec.ofNat 32 (f (.datIn p) / 2 ^ 512)) (BitVec.ofNat 512 (f (.datIn p)))
  let snr := snrOf p (BitVec.ofNat 32 (f (.snr p)))
  (if on (.req p) .valid then [reqCommand op { q with flips := s.flipsOf 120 (f (.req p)) }] else []) ++
  (if on (.datIn p) .valid then [.datInData p id { d with flips := s.flipsOf 24 (f (.datIn p) / 2 ^ 512) }] else []) ++
  (if on (.snr p) .valid then [snrCommand { snr with flips := s.flipsOf 24 (f (.snr p)) }] else []) ++
  (if on (.snp p) .credit || on (.rsp p) .credit || on (.datOut p) .credit then
    [.fabCreditReturn p (wbrField r (.snp p) .credit) (wbrField r (.rsp p) .credit) (wbrField r (.datOut p) .credit)] else [])

/-- R31, R488: what the cells of a memory port bring. -/
def State.memInput (r : BitVec 16346) (p : Nat) (s : State) : List Instr :=
  let w := wbrField r (.memRead p) .bits
  let side := w / 2 ^ 512
  (if wbrField r (.memRead p) .valid == 1 then
    [match memOf p (BitVec.ofNat 32 side) (BitVec.ofNat 512 w) with
     | some f => .memReadData { f with flips := s.flipsOf 24 side }
     | none => .wack p (bits side 11 0) (s.flipsOf 24 side)] else []) ++
  (if wbrField r (.memReq p) .credit == 1 || wbrField r (.memWrite p) .credit == 1 then
    [.memCreditReturn p (wbrField r (.memReq p) .credit) (wbrField r (.memWrite p) .credit)] else [])

/-- R41, R488: what the cells of `CSRP` bring; the offset counts registers (R365), and a set read/write bit writes (log entry 24). -/
def csrpInput (r : BitVec 16346) : List Instr :=
  let w := wbrField r .csrpReq .bits
  let src : Csrp := { part := bits w 17 14, mgmt := bit w 18 }
  let offset := bits w 12 0 * 8
  if wbrField r .csrpReq .valid != 1 then []
  else if bit w 13 then [.registerWrite src offset (BitVec.ofNat 64 (bits w 82 19))] else [.csrpReadInSleep src offset]

/-- R40, R488: an urgency level comes into force when two presented FCLK in turn show it. -/
def State.urgInput (old r : BitVec 16346) (s : State) : List Instr :=
  let lvl (x : BitVec 16346) (i : Nat) : Nat := wbrField x .urg .bits / 4 ^ i % 4
  ((List.range 16).filter fun i => lvl old i == lvl r i && lvl r i != s.reg.urgLvl.getD i 0).map fun i => .urgChange i (lvl r i)

/-- R34, R488: what the cells of `CUEI` bring. -/
def State.cueInput (r : BitVec 16346) (s : State) : List Instr :=
  let w := wbrField r .cuei .bits
  let (part, chan, count) := beatOf (BitVec.ofNat 48 w)
  if wbrField r .cuei .valid == 1 then [.cueBeat part chan count (s.flipsOf 40 w)] else []

/-- R488: what one FCLK of input brings. The levels of `PWRC` need two edges of ACLK (R417), which one FCLK does not span. -/
def State.inputs (old r : BitVec 16346) (s : State) : List Instr :=
  (List.range 8).flatMap (fun p => s.fabInput r p) ++ (List.range 4).flatMap (fun p => s.memInput r p) ++ s.cueInput r ++
  s.urgInput old r ++ csrpInput r

/-- The meaning of an input that `WS_INTEST` presents. -/
def runInput (i : Instr) (s : State) : Res :=
  match i with
  | .cueBeat p c n k => execCueBeat p c n k s
  | .urgChange n l => execUrgChange n l s
  | .fabCreditReturn p a b c => execFabCreditReturn p a b c s
  | .memCreditReturn p a b => execMemCreditReturn p a b s
  | _ => runHeld i s

/-- One presented input; what it sends leaves in this step. -/
def State.present (s : State) (i : Instr) : State :=
  match runInput i s with
  | .next t => { t with out := s.out ++ t.out, sig := t.sig ++ s.sig, acks := s.acks ++ t.acks }
  | _ => s

/-- R488: load an instruction and shift the register that it selects once. `WS_EXTEST` captures the inputs first and `WS_INTEST` the
outputs, which at the end presents its inputs for one FCLK; `WS_CLAMP` and `WS_SAFE` select the bypass register. -/
def State.wrapper (w : WirInstr) (x : WirShift) (s : State) : State :=
  let was := s.test.wir
  let s := s.loadWir w x.wrstn
  match s.test.wir with
  | .extest =>
    let (o, r) := shiftWbr x.wsi (s.capture false)
    State.emit (.wso o) { s with test := { s.test with wbr := r }, fresh := s.fresh + 1 }
  | .intest =>
    let old := if was == .intest then s.test.wbr else 0
    let (o, r) := shiftWbr x.wsi (s.capture true)
    let s := State.emit (.wso o) { s with test := { s.test with wbr := r }, fresh := s.fresh + 1 }
    (s.inputs old r).foldl State.present s
  | .preload =>
    let (o, r) := shiftWbr x.wsi s.test.wbr
    State.emit (.wso o) { s with test := { s.test with wbr := r } }
  | _ => s.bypass x.wsi

/-! ### `FZ_ID`, self-test and injection (R370, R490, R491) -/

/-- R488: a register of 32 bits with the low 22 bits of `ID` leaves at `WSO`, lowest bit first. DESIGN CHOICE (log entry 5): 32 zeros
enter, and `WRSTN` keeps its level. -/
def State.idRegister (s : State) : State :=
  let s := s.loadWir .fzId s.test.wrstn
  if s.test.wir != .fzId then s.bypass (List.replicate 32 false) else s.emit (.wso (bitsOf 32 (s.idWord % 2 ^ 22)))

/-- R490: the self-test register. -/
def State.mbistReg (s : State) : Nat :=
  let t := s.test
  packAt [(t.mbTarget, 0), (b2n t.mbStart, 2), (b2n t.mbDone, 3), (b2n t.mbFail, 4), (t.mbBank, 5), (t.mbRow, 11)]

/-- R490: an update of the self-test register: the march begins where `START` is set. -/
def State.mbistUpdate (n : Nat) (s : State) : State :=
  let target := bits n 1 0
  let s := { s with test := { s.test with mbTarget := target, mbStart := bit n 2 } }
  if !bit n 2 then s
  else
    { s with test := { s.test with mbRun := true, mbDone := false, mbFail := false, mbBank := 0, mbRow := 0 },
             arr := if target == 2 then s.arr else [],
             dir := if target == 2 || target == 3 then [] else s.dir }

/-- R490: `FZ_MBIST`: the register leaves at `WSO`, lowest bit first, as the new word enters, and is updated with it. -/
def State.mbist (x : WirReg) (s : State) : State :=
  let s := s.loadWir .fzMbist x.wrstn
  if s.test.wir != .fzMbist then s.bypass (bitsOf 32 x.reg.toNat)
  else State.mbistUpdate x.reg.toNat (s.emit (.wso (bitsOf 32 s.mbistReg)))

/-- R491: the fields of an injection are allowed for its kind. -/
def injectOk (n : Nat) : Bool :=
  let kind := bits n 2 0
  let set := bits n 20 5
  let way := bits n 25 21
  let word := bits n 28 26
  match kind with
  | 0 | 1 => true
  | 2 | 3 => word == 0 && !bit n 29
  | 4 | 5 => way < 16 && word < 3 && !bit n 29
  | 6 => set < 16 && way == 0 && word == 0 && !bit n 29
  | _ => set == 0 && way == 0 && word == 0 && !bit n 29

/-- R491: the injection register. -/
def State.injectReg (s : State) : Nat := (s.test.injReg ||| BitVec.ofNat 32 (b2n s.test.fired * 2 ^ 4)).toNat

/-- R491: an update of the injection register. -/
def State.injectUpdate (r : BitVec 32) (s : State) : State :=
  let n := r.toNat
  let arms := bit n 3 && injectOk n
  let j : Inject := { kind := bits n 2 0, set := bits n 20 5, way := bits n 25 21, word := bits n 28 26,
                      sector := bits n 29 29 }
  { s with test := { s.test with
      inject := if arms then some j else none,
      injReg := r &&& (if arms then 0x3FFFFFEF else 0x3FFFFFE7), fired := if arms then false else s.test.fired } }

/-- R491: `FZ_INJECT`: as `State.mbist`. -/
def State.injection (x : WirReg) (s : State) : State :=
  let s := s.loadWir .fzInject x.wrstn
  if s.test.wir != .fzInject then s.bypass (bitsOf 32 x.reg.toNat)
  else State.injectUpdate x.reg (s.emit (.wso (bitsOf 32 s.injectReg)))

/-! ### The commands -/

/-- `WS_BYPASS`, by its own code or a reserved one (R488). -/
def execWsBypass (x : WirBypass) (s : State) : Res := finish (s.fresh0.wrapper (WirInstr.ofCode x.code.toNat) x.toWirShift)
/-- `WS_EXTEST` (R488). -/
def execWsExtest (x : WirShift) (s : State) : Res := finish (s.fresh0.wrapper .extest x)
/-- `WS_INTEST` (R488). -/
def execWsIntest (x : WirShift) (s : State) : Res := finish (s.fresh0.wrapper .intest x)
/-- `WS_PRELOAD` (R488). -/
def execWsPreload (x : WirShift) (s : State) : Res := finish (s.fresh0.wrapper .preload x)
/-- `WS_CLAMP` (R488). -/
def execWsClamp (x : WirShift) (s : State) : Res := finish (s.fresh0.wrapper .clamp x)
/-- `WS_SAFE` (R488). -/
def execWsSafe (x : WirShift) (s : State) : Res := finish (s.fresh0.wrapper .safe x)

/-- `FZ_ID` (R488). -/
def execFzId (s : State) : Res := finish s.fresh0.idRegister

/-- `FZ_MBIST` (R490). -/
def execFzMbist (x : WirReg) (s : State) : Res := finish (s.fresh0.mbist x)

/-- R490: the march test ends. -/
def execMbistComplete (fail : Bool) (bank row : Nat) (s : State) : Res :=
  if s.fclkRuns && s.test.mbRun then
    let s := s.fresh0
    finish { s with test := { s.test with mbRun := false, mbDone := true, mbFail := fail,
                                          mbBank := if fail then bank else 0, mbRow := if fail then row else 0 } }
  else s.notDue

/-- `FZ_INJECT` (R491). -/
def execFzInject (x : WirReg) (s : State) : Res := finish (s.fresh0.injection x)

end Sys2Proof.Machine
end

