-- ==== Sys2Proof/Machine/Dispatch.lean ====
section
/-! DEFINITION. The dispatch of a command to its meaning, one arm per constructor of `Instr`. -/

namespace Sys2Proof.Machine

open Sys2Proof

def exec (i : Instr) (s : State) : Host.Outcome State Fault Refusal :=
  match i with
  | .rdShared q => Sys2Proof.Machine.execRdShared q s
  | .rdOnce q => Sys2Proof.Machine.execRdOnce q s
  | .rdUnique q => Sys2Proof.Machine.execRdUnique q s
  | .upgrade q => Sys2Proof.Machine.execUpgrade q s
  | .wrFull q => Sys2Proof.Machine.execWrFull q s
  | .wrPartial q => Sys2Proof.Machine.execWrPartial q s
  | .zeroLine q => Sys2Proof.Machine.execZeroLine q s
  | .append q => Sys2Proof.Machine.execAppend q s
  | .writeback q => Sys2Proof.Machine.execWriteback q s
  | .writeclean q => Sys2Proof.Machine.execWriteclean q s
  | .evictClean q => Sys2Proof.Machine.execEvictClean q s
  | .provisionalRead once q => Sys2Proof.Machine.execProvisionalRead once q s
  | .confirm q => Sys2Proof.Machine.execConfirm q s
  | .cancel q => Sys2Proof.Machine.execCancel q s
  | .reservedOpcodeRequest opc q => Sys2Proof.Machine.execReservedOpcodeRequest opc q s
  | .atAdd q => Sys2Proof.Machine.execAtAdd q s
  | .atCadd q => Sys2Proof.Machine.execAtCadd q s
  | .atMin q => Sys2Proof.Machine.execAtMin q s
  | .atMax q => Sys2Proof.Machine.execAtMax q s
  | .atAnd q => Sys2Proof.Machine.execAtAnd q s
  | .atOr q => Sys2Proof.Machine.execAtOr q s
  | .atXor q => Sys2Proof.Machine.execAtXor q s
  | .atSwap q => Sys2Proof.Machine.execAtSwap q s
  | .atCas64 q => Sys2Proof.Machine.execAtCas64 q s
  | .atCas128 q => Sys2Proof.Machine.execAtCas128 q s
  | .accumulate q => Sys2Proof.Machine.execAccumulate q s
  | .rdFused q => Sys2Proof.Machine.execRdFused q s
  | .winArrive q => Sys2Proof.Machine.execWinArrive q s
  | .winFold q => Sys2Proof.Machine.execWinFold q s
  | .winCollect q => Sys2Proof.Machine.execWinCollect q s
  | .cueRing q => Sys2Proof.Machine.execCueRing q s
  | .datInData port txid f => Sys2Proof.Machine.execDatInData port txid f s
  | .snoopResponse r => Sys2Proof.Machine.execSnoopResponse r s
  | .snoopData port id fl => Sys2Proof.Machine.execSnoopData port id fl s
  | .snpInflight r => Sys2Proof.Machine.execSnpInflight r s
  | .compAck r => Sys2Proof.Machine.execCompAck r s
  | .sendWaitingSnoop port => Sys2Proof.Machine.execSendWaitingSnoop port s
  | .memReadData f => Sys2Proof.Machine.execMemReadData f s
  | .wack port mtag flips => Sys2Proof.Machine.execWack port mtag flips s
  | .waitingRequestRestart => Sys2Proof.Machine.execWaitingRequestRestart s
  | .agentDown agent => Sys2Proof.Machine.execAgentDown agent s
  | .reclaimWalkEnd => Sys2Proof.Machine.execReclaimWalkEnd s
  | .provDeadline port txid => Sys2Proof.Machine.execProvDeadline port txid s
  | .watchdogTimeout port txid => Sys2Proof.Machine.execWatchdogTimeout port txid s
  | .cueBeat part chan count flips => Sys2Proof.Machine.execCueBeat part chan count flips s
  | .beatEmit => Sys2Proof.Machine.execBeatEmit s
  | .actionTileFill => Sys2Proof.Machine.execActionTileFill s
  | .actionFlushRange => Sys2Proof.Machine.execActionFlushRange s
  | .actionDiscardRange => Sys2Proof.Machine.execActionDiscardRange s
  | .actionUnpin => Sys2Proof.Machine.execActionUnpin s
  | .actionSeal => Sys2Proof.Machine.execActionSeal s
  | .actionFinalize => Sys2Proof.Machine.execActionFinalize s
  | .actionLensSwap => Sys2Proof.Machine.execActionLensSwap s
  | .actionSetPers => Sys2Proof.Machine.execActionSetPers s
  | .actionComplete slot => Sys2Proof.Machine.execActionComplete slot s
  | .cueLagLimit chan => Sys2Proof.Machine.execCueLagLimit chan s
  | .cueWatchdog chan => Sys2Proof.Machine.execCueWatchdog chan s
  | .cuePost m => Sys2Proof.Machine.execCuePost m s
  | .armSlot src window words => Sys2Proof.Machine.execArmSlot src window words s
  | .disarmSlot src window slot => Sys2Proof.Machine.execDisarmSlot src window slot s
  | .grantRound => Sys2Proof.Machine.execGrantRound s
  | .urgChange input level => Sys2Proof.Machine.execUrgChange input level s
  | .flushRange m => Sys2Proof.Machine.execFlushRange m s
  | .invalidateRange m => Sys2Proof.Machine.execInvalidateRange m s
  | .discardRange m => Sys2Proof.Machine.execDiscardRange m s
  | .zeroRange m => Sys2Proof.Machine.execZeroRange m s
  | .tileFill m => Sys2Proof.Machine.execTileFill m s
  | .pinLoad m => Sys2Proof.Machine.execPinLoad m s
  | .unpin m => Sys2Proof.Machine.execUnpin m s
  | .walkComplete window => Sys2Proof.Machine.execWalkComplete window s
  | .rangeOpComplete window => Sys2Proof.Machine.execRangeOpComplete window s
  | .armWindowArm m => Sys2Proof.Machine.execArmWindowArm m s
  | .armWindowRearm m => Sys2Proof.Machine.execArmWindowRearm m s
  | .armWindowRelease m => Sys2Proof.Machine.execArmWindowRelease m s
  | .armComplete win => Sys2Proof.Machine.execArmComplete win s
  | .seal m => Sys2Proof.Machine.execSeal m s
  | .finalize m => Sys2Proof.Machine.execFinalize m s
  | .collect m => Sys2Proof.Machine.execCollect m s
  | .windowDrained win => Sys2Proof.Machine.execWindowDrained win s
  | .finaliseComplete win => Sys2Proof.Machine.execFinaliseComplete win s
  | .foldComplete win => Sys2Proof.Machine.execFoldComplete win s
  | .collectComplete win => Sys2Proof.Machine.execCollectComplete win s
  | .lensSwap m => Sys2Proof.Machine.execLensSwap m s
  | .swapPoint => Sys2Proof.Machine.execSwapPoint s
  | .shadowRebuildComplete => Sys2Proof.Machine.execShadowRebuildComplete s
  | .appendSpillComplete port txid => Sys2Proof.Machine.execAppendSpillComplete port txid s
  | .thrashWindowEnd part => Sys2Proof.Machine.execThrashWindowEnd part s
  | .resilverDrain m => Sys2Proof.Machine.execResilverDrain m s
  | .resilverDrainComplete => Sys2Proof.Machine.execResilverDrainComplete s
  | .resilverZero m => Sys2Proof.Machine.execResilverZero m s
  | .resilverZeroComplete => Sys2Proof.Machine.execResilverZeroComplete s
  | .resilverRelease m => Sys2Proof.Machine.execResilverRelease m s
  | .handoverClaim m => Sys2Proof.Machine.execHandoverClaim m s
  | .handoverRelease m => Sys2Proof.Machine.execHandoverRelease m s
  | .handoverReleaseComplete bucket => Sys2Proof.Machine.execHandoverReleaseComplete bucket s
  | .handoverCommit m => Sys2Proof.Machine.execHandoverCommit m s
  | .handoverRelay m => Sys2Proof.Machine.execHandoverRelay m s
  | .tdcPreload t => Sys2Proof.Machine.execTdcPreload t s
  | .tdcPreloadLock t => Sys2Proof.Machine.execTdcPreloadLock t s
  | .tdcUnlock t => Sys2Proof.Machine.execTdcUnlock t s
  | .tdcWrite t => Sys2Proof.Machine.execTdcWrite t s
  | .tdcZeroEntry t => Sys2Proof.Machine.execTdcZeroEntry t s
  | .tdcInvalAddr t => Sys2Proof.Machine.execTdcInvalAddr t s
  | .tdcInvalPart t => Sys2Proof.Machine.execTdcInvalPart t s
  | .tdcChangeComplete part => Sys2Proof.Machine.execTdcChangeComplete part s
  | .tdcFetchComplete f => Sys2Proof.Machine.execTdcFetchComplete f s
  | .xltDescWrite src part value => Sys2Proof.Machine.execXltDescWrite src part value s
  | .faultRingWrite => Sys2Proof.Machine.execFaultRingWrite s
  | .fqOvf cls => Sys2Proof.Machine.execFqOvf cls s
  | .fqConsWrite src value => Sys2Proof.Machine.execFqConsWrite src value s
  | .fqRingConfigWrite src ctl value => Sys2Proof.Machine.execFqRingConfigWrite src ctl value s
  | .hotConfigWrite src ctl value => Sys2Proof.Machine.execHotConfigWrite src ctl value s
  | .hotEpoch => Sys2Proof.Machine.execHotEpoch s
  | .pkgIdentWrite src value => Sys2Proof.Machine.execPkgIdentWrite src value s
  | .prescGo src => Sys2Proof.Machine.execPrescGo src s
  | .prescOutcome => Sys2Proof.Machine.execPrescOutcome s
  | .fullPrescApplyComplete => Sys2Proof.Machine.execFullPrescApplyComplete s
  | .cfgReq src => Sys2Proof.Machine.execCfgReq src s
  | .cfgReqClear src => Sys2Proof.Machine.execCfgReqClear src s
  | .configDrainComplete => Sys2Proof.Machine.execConfigDrainComplete s
  | .shadowEditInsert src slot => Sys2Proof.Machine.execShadowEditInsert src slot s
  | .shadowEditRemove src slot => Sys2Proof.Machine.execShadowEditRemove src slot s
  | .measLock src => Sys2Proof.Machine.execMeasLock src s
  | .elogClear src entry => Sys2Proof.Machine.execElogClear src entry s
  | .registerWrite src offset value => Sys2Proof.Machine.execRegisterWrite src offset value s
  | .scrubVisit => Sys2Proof.Machine.execScrubVisit s
  | .scrubForce => Sys2Proof.Machine.execScrubForce s
  | .scrubDeficitWake => Sys2Proof.Machine.execScrubDeficitWake s
  | .configWordCheck region flips => Sys2Proof.Machine.execConfigWordCheck region flips s
  | .lockLoss => Sys2Proof.Machine.execLockLoss s
  | .powerEstimate activity cap => Sys2Proof.Machine.execPowerEstimate activity cap s
  | .powerWindow => Sys2Proof.Machine.execPowerWindow s
  | .opChange op => Sys2Proof.Machine.execOpChange op s
  | .relockComplete => Sys2Proof.Machine.execRelockComplete s
  | .pwrcSleepChange high => Sys2Proof.Machine.execPwrcSleepChange high s
  | .sleepEntry => Sys2Proof.Machine.execSleepEntry s
  | .offDrainComplete => Sys2Proof.Machine.execOffDrainComplete s
  | .sleepEntryComplete => Sys2Proof.Machine.execSleepEntryComplete s
  | .wakeComplete => Sys2Proof.Machine.execWakeComplete s
  | .offWakeComplete => Sys2Proof.Machine.execOffWakeComplete s
  | .spanWakeI => Sys2Proof.Machine.execSpanWakeI s
  | .coldReset => Sys2Proof.Machine.execColdReset s
  | .warmReset => Sys2Proof.Machine.execWarmReset s
  | .resetRelease straps op => Sys2Proof.Machine.execResetRelease straps op s
  | .initComplete => Sys2Proof.Machine.execInitComplete s
  | .spanDetect lanes => Sys2Proof.Machine.execSpanDetect lanes s
  | .spanTrainingComplete lanes caps => Sys2Proof.Machine.execSpanTrainingComplete lanes caps s
  | .spanRetrainComplete lanes caps => Sys2Proof.Machine.execSpanRetrainComplete lanes caps s
  | .spanFrame f => Sys2Proof.Machine.execSpanFrame f s
  | .spanNak ack => Sys2Proof.Machine.execSpanNak ack s
  | .laneFailure lane => Sys2Proof.Machine.execLaneFailure lane s
  | .retire lane seq => Sys2Proof.Machine.execRetire lane seq s
  | .spanDownTimeout => Sys2Proof.Machine.execSpanDownTimeout s
  | .spanReqRecord op q => Sys2Proof.Machine.execSpanReqRecord op q s
  | .spanRspRecord tag status grant isOpen dat partialAttr => Sys2Proof.Machine.execSpanRspRecord tag status grant isOpen dat partialAttr s
  | .spanSnpRecord op line id agent => Sys2Proof.Machine.execSpanSnpRecord op line id agent s
  | .spanSnrRecord code id notice pd dat => Sys2Proof.Machine.execSpanSnrRecord code id notice pd dat s
  | .hrec line agent tag => Sys2Proof.Machine.execHrec line agent tag s
  | .hack tag refused => Sys2Proof.Machine.execHack tag refused s
  | .fill line slot dat => Sys2Proof.Machine.execFill line slot dat s
  | .ver slot base size hash => Sys2Proof.Machine.execVer slot base size hash s
  | .mirrorMismatch slot => Sys2Proof.Machine.execMirrorMismatch slot s
  | .dbgSelChange sel => Sys2Proof.Machine.execDbgSelChange sel s
  | .testReq src => Sys2Proof.Machine.execTestReq src s
  | .testExit src => Sys2Proof.Machine.execTestExit src s
  | .wsBypass x => Sys2Proof.Machine.execWsBypass x s
  | .wsExtest x => Sys2Proof.Machine.execWsExtest x s
  | .wsIntest x => Sys2Proof.Machine.execWsIntest x s
  | .wsPreload x => Sys2Proof.Machine.execWsPreload x s
  | .wsClamp x => Sys2Proof.Machine.execWsClamp x s
  | .wsSafe x => Sys2Proof.Machine.execWsSafe x s
  | .fzId => Sys2Proof.Machine.execFzId s
  | .fzMbist x => Sys2Proof.Machine.execFzMbist x s
  | .mbistComplete fail bank row => Sys2Proof.Machine.execMbistComplete fail bank row s
  | .fzInject x => Sys2Proof.Machine.execFzInject x s
  | .fabCreditReturn port snp rsp dat => Sys2Proof.Machine.execFabCreditReturn port snp rsp dat s
  | .memCreditReturn port req wdata => Sys2Proof.Machine.execMemCreditReturn port req wdata s
  | .csrpReadInSleep src offset => Sys2Proof.Machine.execCsrpReadInSleep src offset s

end Sys2Proof.Machine
end

