-- ==== Sys2Proof/Machine/Tick.lean ====
section
/-! DEFINITION. One ACLK that passes while no command waits (R281, R422, R455; log entry 1). -/

namespace Sys2Proof.Machine

open Sys2Proof

/-- R455: one ACLK more in the age of a waiting request. -/
def WaitReq.older (w : WaitReq) : WaitReq := { w with age := w.age + 1 }

/-- One ACLK more in the age of a collect that waits. -/
def WinOp.older : WinOp → WinOp
  | .collect c => .collect { c with age := c.age + 1 }
  | o => o

/-- R418, R430, R455: the ages of the requests that the slice has accepted, those it holds over a sleep or a relock among them. -/
def State.ageAll (s : State) : State :=
  { s with folds := s.folds.map fun (f : FoldRun) => { f with age := f.age + 1 },
           waiting := s.waiting.map WaitReq.older, hand := { s.hand with hold := s.hand.hold.map WaitReq.older },
           txns := s.txns.map fun (t : Txn) => { t with age := t.age + 1 },
           wins := s.wins.map fun (w : Window) =>
             { w with after := w.after.map WinOp.older, col := w.col.map fun (c : ColArgs) => { c with age := c.age + 1 } },
           span := { s.span with relays := s.span.relays.map fun (r : Relay) => { r with age := r.age + 1 } },
           power := { s.power with held := s.power.held.map fun (x : Instr × Nat) => (x.1, x.2 + 1) } }

/-- R422: an ACLK without an event that starts the idle count again. -/
def State.idleTick (s : State) : State :=
  if s.power.state == .service then { s with power := { s.power with idle := s.power.idle + 1 } } else s

/-! ### FCLK (R416, R435, R476, R478) -/

/-- R435: the slots of a group of 8 FCLK in which a slice at a duty issues. -/
def issueSlots (duty : Nat) : List Nat :=
  match duty with
  | 8 => [0, 1, 2, 3, 4, 5, 6, 7]
  | 7 => [0, 1, 2, 3, 4, 5, 6]
  | 6 => [0, 1, 2, 4, 5, 6]
  | 5 => [0, 1, 3, 4, 6]
  | 4 => [0, 2, 4, 6]
  | 3 => [0, 3, 6]
  | _ => [0, 4]

/-- R478: an occupancy, of everything or of a partition. -/
def State.occupancy (code : Nat) (p : Option Nat) (s : State) : Nat :=
  let txns (f : Txn → Bool) : Nat := (s.txns.filter fun t => f t && shows p t.part).length
  let slots (f : ActSlot → Bool) : Nat := (s.cue.slots.filter fun a => f a && shows p a.part).length
  match code with
  | 0x100 => (s.mrs.filter fun m => shows p m.part).length
  | 0x101 => txns fun t => t.waiter && !t.served && !t.timedOut
  | 0x102 => txns fun t => (t.busy || t.trk) && !t.kind.isEvict
  | 0x103 => txns (·.kind.isEvict)
  | 0x104 => (s.wbb.filter fun e => shows p e.part).length
  | 0x105 => (s.prov.filter fun e => shows p e.part).length
  | 0x106 => (s.span.relays.filter fun r => shows p r.part).length
  | 0x107 => (s.hand.hold.filter fun w => shows p w.q.part).length
  | 0x108 => (s.cue.beats.filter fun b => shows p b.part).length
  | 0x109 => slots (·.st == .due)
  | 0x10A => slots fun a => a.st == .running && walking a.act
  | 0x10B => (s.xlt.staged.filter fun r => shows p r.part).length
  | 0x10C => (s.waiting.filter fun w => w.tag.isNone && shows p w.q.part).length
  | 0x10D => s.span.replay.length
  | _ => 0

/-- R476: what counter `i` in mode 1 or 3 gains in `n` FCLK that pass with the slice as it is. In the debug modes it sees the bit that
`DBG_OUT` would show, and none outside `TEST` and `RECOVERY`. -/
def State.gained (n i : Nat) (s : State) : Nat :=
  let c := s.cfg.ctrs.getD i {}
  match c.mode with
  | 1 => if c.thresh < s.occupancy c.event (if c.partEn then some c.part else none) then n else 0
  | 3 => if s.debugRuns && s.ctrSees i then n else 0
  | _ => 0

/-- R476: the counters in modes 1 and 3 over `n` FCLK; the edges are counted at the end of the step (`State.edges`). -/
def State.countModes (n : Nat) (s : State) : State :=
  (s.cfg.ctrs.zipIdx).foldl (fun (t : State) (x : CtrCfg × Nat) =>
    if s.gained n x.2 == 0 then t
    else
      let t := t.ctrParity x.2
      { t with ctr := t.ctr.modify x.2 (· + BitVec.ofNat 48 (s.gained n x.2)) }) s

/-- The FCLK of one ACLK: `FCLK_CYCLE`, the slots that the duty in effect skips (R434, R435), `URG_CRIT`, and the counters that
look at the slice in each FCLK (log entry 57). A new duty takes effect at the first boundary of 8 FCLK. -/
def State.fclkTick (s : State) : State :=
  if !s.fclkRuns then s
  else
    let p := s.power
    let f := p.fclkPart + opMHz p.op
    let n := f / 50
    let edge := (8 - p.fclkSlot) % 8
    let duty (k : Nat) : Nat := if k < edge then p.dutyNow else p.duty
    let skips := ((List.range n).filter fun k => !((issueSlots (duty k)).contains ((p.fclkSlot + k) % 8))).length
    let s := { s with power := { p with fclkPart := f % 50, fclkSlot := (p.fclkSlot + n) % 8,
                                        dutyNow := if edge < n then p.duty else p.dutyNow } }
    let s := State.act 22 (n - skips) (s.act 23 skips)
    let s := (s.countN Ev.fclkCycle none n).countN Ev.issueSkip none skips
    let s := if (List.range 64).any (fun g => s.level g == 3) then s.countN Ev.urgCrit none n else s
    s.countModes n

/-- R415: whether the twin sleeps is no state of this slice: a free value, a fresh one each ACLK (log entry 26). The records that
were held for a twin leave once it is awake. -/
def State.twinTick (s : State) : State :=
  if s.power.straps.split && s.span.st == .active && s.span.rx == .active then
    let s := { s with span := { s.span with farRests := Config.twinRests s.fresh }, fresh := s.fresh + 1 }
    if s.gate == .serve then s.spanFlush else s
  else s

/-- One ACLK: `SINCE` and `CUE_LAG`, the ages, the idle count, the FCLK that pass in it, the twin, and the interval of R419. -/
def State.tick (s : State) : State := s.lagTick.ageAll.idleTick.fclkTick.twinTick.opTick

end Sys2Proof.Machine
end

