-- ==== Sys2Proof/Safety.lean ====
section
/-! DEFINITION. What claims about the slice speak of: a slice at rest, a request that meets its checks, what left the ports,
and the facts that hold between commands. -/

namespace Sys2Proof.Machine

open Sys2Proof

/-! ### A slice at rest -/

/-- No work of the slice's own is under way, whatever state it is in: no transaction, waiting request, fill, walk, fold or range
command, no holder record, no bucket on the move, nothing that waits for a port, for a window or for the clock, no dead agent, no
drain, no resilver and no relock, with `RST_N` high, no armed injection and no fault of its storage that waits to be found. -/
structure State.Still (s : State) : Prop where
  txns : s.txns = []
  holders : s.span.holders = []
  buckets : s.hand.buckets = []
  after : ∀ w ∈ s.wins, w.after = []
  config : s.power.cfgDrain = false
  phase : s.power.sleepPh = .none
  resilver : s.res.active = false
  clock : s.power.relock = false
  reset : s.power.rstLow = false
  waiting : s.waiting = []
  mrs : s.mrs = []
  down : s.down = []
  listed : s.hand.listed = []
  hold : s.hand.hold = []
  walks : s.walks = []
  ranges : s.ranges = []
  folds : s.folds = []
  ports : s.memWait = []
  posts : s.cue.postWait = []
  records : s.span.waitTx = []
  held : s.power.held = []
  inject : s.test.inject = none
  upsets : s.upsets = []
  bad : s.bad = []

/-- A slice in `SERVICE` with no work under way. -/
structure State.AtRest (s : State) : Prop extends s.Still where
  service : s.power.state = .service

/-- A request that arrives whole and undamaged at its home slice at rest and passes R16 and R156. -/
structure State.Arrives (s : State) (op : ReqOp) (q : Req) : Prop extends s.AtRest where
  whole : q.dataIn op = true
  flips : q.flips = 0
  clean : ∀ f ∈ q.dat, f.flips = 0
  header : s.badHeader op q = false
  home : s.homed q.line = true

/-- An arriving request that also passes R204 and the checks of R97. -/
structure State.Allowed (s : State) (op : ReqOp) (q : Req) : Prop extends s.Arrives op q where
  scratch : s.inScratch q.addr = false
  allowed : s.check97 op q (s.lensAt q.addr) = none

/-- An allowed request to a line that is no header line, no bell line and in no sum plane, and that no provisional entry
concerns. -/
structure State.Admits (s : State) (op : ReqOp) (q : Req) : Prop extends s.Allowed op q where
  prov : s.prov = []
  noHeader : s.hdrWin q.line = none
  noBell : s.bellOf q.line = none
  noPlane : s.sumWin q.line = none

/-- An allowed request to the header line of window `w`, which is in use and not being armed (R243, R247). -/
structure State.AdmitsWin (s : State) (op : ReqOp) (q : Req) (w : Nat) : Prop extends s.Allowed op q where
  window : s.hdrWin q.line = some w
  here : q.addr = (s.win w).hdr
  settled : (s.win w).arming = none
  used : (s.win w).st ≠ .idle
  fields : winResv op q.payload = false

/-- An allowed request to a line of the sum plane of window `w` (R222), with the line in the array (R90). -/
structure State.AdmitsSum (s : State) (op : ReqOp) (q : Req) (w : Nat) (c : CLine) : Prop extends s.Allowed op q where
  prov : s.prov = []
  noHeader : s.hdrWin q.line = none
  noBell : s.bellOf q.line = none
  plane : s.sumWin q.line = some w
  line : s.lineOf q.line = some c
  valid : c.lo.v = true ∧ c.hi.v = true
  noHolder : s.dirAt q.line = none

/-- A command that a mailbox accepts: the access reaches it, its `MB_STAT.STATE` is not 1, and R375's checks pass. -/
structure State.Accepts (s : State) (op : Nat) (m : MbCmd) : Prop where
  reach : Csrp.reaches { mgmt := m.mgmt, part := m.srcPart } m.window = true
  there : mbIdx m.window < s.mbs.length
  free : (s.mbs.getD (mbIdx m.window) {}).st ≠ 1
  ok : s.mbCheck op m = .ok
  powered : s.power.rstLow = false
  phase : s.power.sleepPh = .none

/-- What a mailbox shows once its command has completed with a status and results (R374). -/
def MbShows (op : Nat) (m : MbCmd) (st : Status) (res : List Word) : Mailbox :=
  { args := m.words, st := 2, isErr := false, code := st.code, seq := m.seq, opcode := op,
    res := (res ++ List.replicate 4 0).take 4 }

/-- What a mailbox shows while its command runs. -/
def MbRuns (op : Nat) (m : MbCmd) : Mailbox :=
  { args := m.words, st := 1, isErr := false, code := 0, seq := m.seq, opcode := op, res := List.replicate 4 0 }

/-- R297: the balance of a group covers one access of the slice's own to each of some lines that this slice homes. -/
def State.CoversLines (s : State) (g : Nat) (lines : List Nat) : Prop :=
  (∀ l ∈ lines, s.relayed l = false) ∧ ((s.grp g).weight = 0 ∨ (64 * lines.length : Int) ≤ (s.balOf g 2).mirr)

/-- The same collect, whatever its place in the order of its window and the group it is charged to. -/
structure ColArgs.Same (k c : ColArgs) : Prop where
  outDesc : k.d0 = c.d0 ∧ k.d1 = c.d1
  place : k.dst = c.dst ∧ k.noOut = c.noOut
  gen : k.gen = c.gen
  source : k.mb = c.mb ∧ k.req = c.req

/-- R240, R249: the window takes contributions. -/
def Window.takes (x : Window) : Bool := x.st == .armed || x.st == .opened

/-! ### What leaves the ports -/

/-- The flit has left its port in this step, or waits for a credit of the hub (R24). -/
def State.Sends (t : State) (f : Out) : Prop := f ∈ t.out ∨ ∃ h ∈ t.heldOut, h.flit = f

/-- The record has left on the span in this step, or waits for the link or the twin's credits (R403, R405). -/
def State.Crosses (t : State) (r : SpanRec) : Prop := (∃ h, Out.span h (some r) ∈ t.out) ∨ ∃ w ∈ t.span.waitTx, w.item = r

/-! ### What a command leaves alone -/

/-- The configuration, the special registers and the units that a request of the fabric does not touch. A counter may change only
when it is bound to an event (R476), a histogram only when one is bound to a source (R482), and counting of hot pages may count an
access and set its `STATUS` bit (R331, R332). -/
structure State.Frame (s t : State) : Prop where
  cfg : t.cfg = s.cfg
  cue : t.cue = s.cue
  xlt : t.xlt = s.xlt
  presc : t.presc = s.presc
  mbs : t.mbs = s.mbs
  pws : t.pws = s.pws
  elog : t.elog = s.elog
  meas : t.meas = s.meas
  regs : t.regs = s.regs ∨ s.hot.en = true ∧ t.regs = { s.regs with status := s.regs.status ||| 2 }
  hot : s.hot.en = false → t.hot.ctrs = s.hot.ctrs
  lanes : t.lanes = s.lanes
  hist : (∀ c ∈ s.cfg.hists, c.src = 0) → t.hist = s.hist
  ctr : ∀ i : Nat, (∀ c : CtrCfg, s.cfg.ctrs[i]? = some c → c.mode ≠ 0 ∨ c.event = 0) → t.ctr[i]? = s.ctr[i]?
  fuses : t.fuses = s.fuses
  res : t.res = s.res
  hand : t.hand = s.hand
  down : t.down = s.down
  ranges : t.ranges = s.ranges
  walks : t.walks = s.walks
  span : t.span = s.span
  test : t.test = s.test
  folds : t.folds = s.folds
  pending : t.pending = s.pending
  mode : t.power.state = s.power.state
  tint : t.lens.tintAct = s.lens.tintAct ∧ t.lens.tintSh = s.lens.tintSh

/-- No line of the array or of the write-back buffer has changed but one. -/
def State.OtherLines (s t : State) (line : Nat) : Prop :=
  (∀ n, n ≠ line → t.lineOf n = s.lineOf n) ∧ t.wbb = s.wbb

/-- R123, R287: the sets and tints of `s` have been exchanged in `t`. -/
def State.SwapsTo (s t : State) : Prop :=
  t.lens.tintAct = s.lens.tintSh ∧ t.lens.tintSh = s.lens.tintAct ∧
  ∀ i < s.lens.slots.length, (t.lensSlot i).inAct = (s.lensSlot i).inSh ∧ (t.lensSlot i).inSh = (s.lensSlot i).inAct

/-! ### Between commands -/

/-- R119: every lens slot with a descriptor stands in a set, keeps a line, or is carried by something in flight. -/
def State.Settled (s : State) : Prop :=
  ∀ i, (s.lensSlot i).desc.isSome = true →
    (s.lensSlot i).inAct = true ∨ (s.lensSlot i).inSh = true ∨ s.ownCount i ≠ 0 ∨ s.lensInFlight i = true

/-- The canonical forms of the array (R79, R80), the directory (R166) and the write-back buffer (R131). -/
structure State.InForm (s : State) : Prop where
  arr : arrWf s.arr = true
  dir : ∀ e ∈ s.dir, e.way < 16
  wbb : (s.wbb.map (·.line)).Nodup

/-- How many of each of its parts the slice has. -/
structure State.Shaped (s : State) : Prop where
  fab : s.fab.length = 8
  mem : s.mem.length = 4
  wins : s.wins.length = 64
  lens : s.lens.slots.length = 256
  chans : s.cue.chans.length = 16
  slots : s.cue.slots.length = 512
  tdc : s.xlt.tdc.length = 48
  ops : s.xlt.opBusy.length = 16
  change : s.xlt.change.length = 16
  mbs : s.mbs.length = 17
  pws : s.pws.length = 16
  scale : s.reg.scale.length = 5
  ctr : s.ctr.length = 48
  hist : s.hist.length = 64

end Sys2Proof.Machine
end

