-- ==== Sys2Proof/WellFormed.lean ====
section
/-! DEFINITION. Well-formed commands: every operand fits the field of the flit, register or port that carries it. -/

namespace Sys2Proof

/-- R26: at most one flit for each sector of the line. -/
def DatFlit.wf (f : DatFlit) : Bool := f.sector < 2 && f.reserved < 256

/-- The flits of one line: at most one for each sector. -/
def datWf (l : List DatFlit) : Bool :=
  l.all DatFlit.wf && l.length ≤ 2 && (l.map (·.sector)).Nodup

/-- R11, R14: the widths of the request header. -/
def Req.wf (q : Req) : Bool :=
  q.port < 8 && q.agent < 1024 && q.txid < 4096 && q.addr < 2 ^ 52 && q.size < 8 && q.part < 16 && q.tint < 16 &&
  q.scope < 8 && q.reserved < 2 ^ 21 && datWf q.dat

/-- R41, R390: a source partition of 4 bits. -/
def Csrp.wf (c : Csrp) : Bool := c.part < 16

/-- R373, R391: a window of 0 to 15, the 8-bit `SEQ`, at most eight argument words. -/
def MbCmd.wf (m : MbCmd) : Bool :=
  (match m.window with | some p => p < 16 | none => true) && m.srcPart < 16 && m.seq < 256 && m.resv < 2 ^ 49 &&
  m.args.length ≤ 8

/-- R319. -/
def TdcCmd.wf (t : TdcCmd) : Bool := t.part < 16 && t.srcPart < 16 && t.kind < 2 && t.addr < 2 ^ 52 && t.resv < 2 ^ 64

/-- R162. -/
def Snr.wf (r : Snr) : Bool := r.port < 8 && r.id < 4096 && r.code < 8 && r.notice < 4

/-- R31. -/
def MemFlit.wf (f : MemFlit) : Bool := f.port < 4 && f.mtag < 4096 && f.sector < 2 && f.reserved < 256

/-- R11, R46. -/
def Straps.wf (t : Straps) : Bool := t.index < 64 && t.half < 2

/-- The opcodes R155, R216, R247 and R265 assign. -/
def assignedOpcode (n : Nat) : Bool :=
  (1 ≤ n && n ≤ 0xD) || (0x10 ≤ n && n ≤ 0x1B) || (0x20 ≤ n && n ≤ 0x22) || n == 0x28

/-- An opcode of a record: `other` names only opcodes that are not assigned. -/
def ReqOp.wf : ReqOp → Bool
  | .other n => n < 256 && !assignedOpcode n
  | _ => true

/-- R488: the codes of the wrapper's instructions but `WS_BYPASS`; every other one acts as it. -/
def assignedWir (n : Nat) : Bool := (1 ≤ n && n ≤ 5) || (0x10 ≤ n && n ≤ 0x12)

/-- Every operand fits its field. -/
def Instr.wf : Instr → Bool
  | .rdShared q | .rdOnce q | .rdUnique q | .upgrade q | .wrFull q | .wrPartial q | .zeroLine q | .append q
  | .writeback q | .writeclean q | .evictClean q | .provisionalRead _ q | .confirm q | .cancel q
  | .atAdd q | .atCadd q | .atMin q | .atMax q | .atAnd q | .atOr q | .atXor q | .atSwap q | .atCas64 q
  | .atCas128 q | .accumulate q | .rdFused q | .winArrive q | .winFold q | .winCollect q | .cueRing q => q.wf
  | .reservedOpcodeRequest opc q => q.wf && opc < 256 && !assignedOpcode opc
  | .datInData port txid f => port < 8 && txid < 4096 && f.wf
  | .snoopResponse r | .snpInflight r | .compAck r => r.wf
  | .snoopData port id fl => port < 8 && id < 4096 && datWf fl
  | .sendWaitingSnoop port => port < 9
  | .memReadData f | .tdcFetchComplete f => f.wf
  | .wack port mtag _ => port < 4 && mtag < 4096
  | .agentDown a => a < 1024
  | .provDeadline port txid | .watchdogTimeout port txid | .appendSpillComplete port txid => port < 8 && txid < 4096
  | .cueBeat part chan _ _ => part < 16 && chan < 16
  | .actionComplete slot => slot < 512
  | .cueLagLimit chan | .cueWatchdog chan => chan < 16
  | .armSlot src window words => src.wf && (match window with | some p => p < 16 | none => true) && words.length ≤ 8
  | .disarmSlot src window slot => src.wf && (match window with | some p => p < 16 | none => true) && slot < 512
  | .urgChange input level => input < 16 && level < 4
  | .cuePost m | .flushRange m | .invalidateRange m | .discardRange m | .zeroRange m | .tileFill m | .pinLoad m
  | .unpin m | .armWindowArm m | .armWindowRearm m | .armWindowRelease m | .seal m | .finalize m | .collect m
  | .lensSwap m | .resilverDrain m | .resilverZero m | .resilverRelease m | .handoverClaim m | .handoverRelease m
  | .handoverCommit m | .handoverRelay m => m.wf
  | .walkComplete window | .rangeOpComplete window => (match window with | some p => p < 16 | none => true)
  | .armComplete w | .windowDrained w | .finaliseComplete w | .foldComplete w | .collectComplete w => w < 64
  | .thrashWindowEnd part | .tdcChangeComplete part => part < 16
  | .handoverReleaseComplete b => b < 1024
  | .tdcPreload t | .tdcPreloadLock t | .tdcUnlock t | .tdcWrite t | .tdcZeroEntry t | .tdcInvalAddr t
  | .tdcInvalPart t => t.wf
  | .xltDescWrite src part _ => src.wf && part < 16
  | .fqOvf cls => cls < 8
  | .fqConsWrite src _ | .fqRingConfigWrite src _ _ | .hotConfigWrite src _ _ | .pkgIdentWrite src _ => src.wf
  | .prescGo src | .cfgReq src | .cfgReqClear src | .measLock src | .testReq src | .testExit src => src.wf
  | .shadowEditInsert src slot | .shadowEditRemove src slot => src.wf && slot < 256
  | .elogClear src entry => src.wf && entry < 32
  | .registerWrite src offset _ | .csrpReadInSleep src offset => src.wf && offset < 2 ^ 16 && offset % 8 == 0
  | .configWordCheck region _ => region < 2 ^ 16
  | .powerEstimate activity cap => cap < 4096 && activity.length ≤ 24
  | .opChange op => op < 8
  | .resetRelease straps op => straps.wf && op < 8
  | .spanNak ack => ack < 2 ^ 16
  | .laneFailure lane => lane < 18
  | .retire lane seq => lane < 18 && seq < 2 ^ 16
  | .spanReqRecord op q => op.wf && q.wf
  | .spanRspRecord tag status grant _ dat _ => tag < 4096 && status < 16 && grant < 4 && datWf dat
  | .spanSnpRecord op line id agent => op < 16 && line < 2 ^ 45 && id < 4096 && agent < 1024
  | .spanSnrRecord code id notice _ dat => code < 8 && id < 4096 && notice < 4 && datWf dat
  | .hrec line agent tag => line < 2 ^ 45 && agent < 1024 && tag < 4096
  | .hack tag _ => tag < 4096
  | .fill line slot dat => line < 2 ^ 45 && slot < 256 && datWf dat
  | .ver slot _ _ _ | .mirrorMismatch slot => slot < 256
  | .dbgSelChange sel => sel < 8
  | .fabCreditReturn port _ _ _ => port < 8
  | .memCreditReturn port _ _ => port < 4
  | .spanFrame f => f.units.length == 16
  | .wsBypass x => !assignedWir x.code.toNat
  | .mbistComplete _ bank row => bank < 64 && row < 2 ^ 16
  | .waitingRequestRestart | .reclaimWalkEnd | .beatEmit | .actionTileFill | .actionFlushRange
  | .actionDiscardRange | .actionUnpin | .actionSeal | .actionFinalize | .actionLensSwap | .actionSetPers
  | .grantRound | .swapPoint | .shadowRebuildComplete | .resilverDrainComplete | .resilverZeroComplete
  | .faultRingWrite | .hotEpoch | .prescOutcome | .fullPrescApplyComplete | .configDrainComplete | .scrubVisit
  | .scrubForce | .scrubDeficitWake | .lockLoss | .powerWindow | .relockComplete | .pwrcSleepChange _ | .sleepEntry
  | .offDrainComplete | .sleepEntryComplete | .wakeComplete | .offWakeComplete | .spanWakeI | .coldReset | .warmReset
  | .initComplete | .spanDetect _ | .spanTrainingComplete .. | .spanRetrainComplete .. | .spanDownTimeout
  | .wsExtest .. | .wsIntest .. | .wsPreload .. | .wsClamp .. | .wsSafe .. | .fzId .. | .fzMbist .. | .fzInject .. => true

end Sys2Proof
end

