-- ==== Sys2Proof/Certificates/Slice0/Obligations.lean ====
section
/-! DEFINITION. The statements about the slice that the provers prove: what each command does when it completes, what it leaves
alone, what the queue and the registers do, and the invariants of every step. -/

open Sys2Proof Sys2Proof.Machine

/-! ### The queue of commands -/

/-- The command at the front of the queue runs with the rest of the queue (the row's rule for a block). -/
def Obligations.StepRunsFront : Prop :=
  ∀ (s : State) (c : Instr) (rest : List Instr), s.pending = c :: rest → step s = exec c { s with pending := rest }

/-- The model's choice (log entries 1 and 57): on an empty queue, where no record waits for the span and no command waits for a
window, one `ACLK` passes. R281: `SINCE` of every channel advances by 1 and saturates, in `SERVICE` and `SLEEP`. R422: the idle
count advances in `SERVICE`. R455: the ages of the requests grow by 1. R435: where FCLK runs, its edges pass through the groups of
8 slots. No port, line, window or register changes. -/
def Obligations.EmptyQueueIsOneTick : Prop :=
  ∀ s : State, s.pending = [] → s.span.waitTx = [] → (∀ w ∈ s.wins, w.after = []) →
    ∃ t, step s = .next t ∧ t.pending = [] ∧ t.out = [] ∧ t.acks = [] ∧
    t.cue = (if s.power.state = .service ∨ s.power.state = .sleep
      then { s.cue with chans := s.cue.chans.map fun x => { x with since := min (x.since + 1) (2 ^ 28 - 1) } } else s.cue) ∧
    t.power.idle = (if s.power.state = .service then s.power.idle + 1 else s.power.idle) ∧
    t.power.fclkSlot = (if s.fclkRuns then (s.power.fclkSlot + (s.power.fclkPart + opMHz s.power.op) / 50) % 8
      else s.power.fclkSlot) ∧
    t.power.state = s.power.state ∧ t.power.duty = s.power.duty ∧ t.power.op = s.power.op ∧
    t.waiting = s.waiting.map (fun w => { w with age := w.age + 1 }) ∧
    t.txns = s.txns.map (fun x => { x with age := x.age + 1 }) ∧ t.prov = s.prov ∧
    t.arr = s.arr ∧ t.dir = s.dir ∧ t.wbb = s.wbb ∧
    t.wins = s.wins.map (fun w => { w with col := w.col.map fun c => { c with age := c.age + 1 } }) ∧
    t.cfg = s.cfg ∧ t.regs = s.regs ∧ t.pws = s.pws ∧
    t.hist = s.hist ∧ t.memOut = s.memOut ∧ t.fab = s.fab ∧ (s.bad = [] → t.elog = s.elog)

/-! ### Places of an address -/

/-- R55: the bucket of an address. R65: its set, and the line that the set and the address bits [51:23] determine. -/
def Obligations.AddressHashes : Prop :=
  ∀ a : BitVec 52,
    bucketOf (addrLine a.toNat) =
      (a.extractLsb' 7 10 ^^^ a.extractLsb' 17 10 ^^^ a.extractLsb' 27 10 ^^^ a.extractLsb' 37 10 ^^^
        (a.extractLsb' 47 5).setWidth 10).toNat ∧
    setOf (addrLine a.toNat) =
      (a.extractLsb' 7 16 ^^^ a.extractLsb' 23 16 ^^^ (a.extractLsb' 39 13).setWidth 16).toNat ∧
    ∀ b : BitVec 52, a.extractLsb' 23 29 = b.extractLsb' 23 29 → setOf (addrLine a.toNat) = setOf (addrLine b.toNat) →
      addrLine a.toNat = addrLine b.toNat

/-! ### Reads -/

/-- R171: `RD_ONCE` of a line that no agent owns, with its covered sectors in the array: the data and the completion leave without
a grant, and neither the directory nor any data changes. R84, R159: `POISON` when a covered sector is poisoned. -/
def Obligations.ReadOnceHit : Prop :=
  ∀ (s : State) (q : Req) (c : CLine), s.Admits .rdOnce q → q.provisional = false → arrWf s.arr = true →
    s.lineOf q.line = some c → (∀ i < 2, q.covers i = true → (c.sec i).v = true) →
    (∀ e, s.dirAt q.line = some e → e.owner = none) →
    ∃ t, exec (.rdOnce q) s = .next t ∧
      t.Sends (.rsp q.port q.txid
        (if (List.range 2).any fun i => q.covers i && (c.sec i).poison then .poison else .done) 0 false false) ∧
      (∀ i < 2, q.covers i = true → ∃ last, t.Sends (.dat q.port q.txid i (c.sec i).value (c.sec i).poison false last)) ∧
      (∀ i, t.cached q.line i = s.cached q.line i) ∧ t.dir = s.dir ∧ t.txns = [] ∧ s.OtherLines t q.line ∧ t.wins = s.wins ∧
      s.Frame t

/-- R171: `RD_SHARED` and `RD_UNIQUE` of a line without a directory entry, in the array and not poisoned, in a lens that allows E:
both sectors leave with a grant of E, the entry becomes `DE` of the requester in the lowest free way (R175), and the line stays
busy until the `COMP_ACK` (R169). -/
def Obligations.ReadGrantsExclusive : Prop :=
  ∀ (s : State) (q : Req) (c : CLine) (w : Nat),
    ∀ p ∈ [(Instr.rdShared q, ReqOp.rdShared), (Instr.rdUnique q, ReqOp.rdUnique)],
    s.Admits p.2 q → q.provisional = false → arrWf s.arr = true → (∀ x ∈ s.dir, x.way < 16) →
    s.lineOf q.line = some c → c.lo.v = true → c.hi.v = true → c.lo.poison = false → c.hi.poison = false →
    (s.descOf (s.lensAt q.addr)).reduction = false → s.onlyShared (s.lensAt q.addr) = false →
    s.dirAt q.line = none → s.dirPlace (setOf q.line) = .free w →
    ∃ t x, exec p.1 s = .next t ∧
      t.Sends (.rsp q.port q.txid .done 2 false true) ∧
      (∀ i < 2, ∃ last, t.Sends (.dat q.port q.txid i (c.sec i).value false false last)) ∧
      t.dirAt q.line = some { set := setOf q.line, way := w, line := q.line, part := q.part, owner := some q.agent, excl := true } ∧
      (∀ n, n ≠ q.line → t.dirAt n = s.dirAt n) ∧
      t.txns = [x] ∧ x.line = q.line ∧ x.ack = some (q.port, q.txid, 0) ∧ t.busy q.line = true ∧
      (∀ i, t.cached q.line i = s.cached q.line i) ∧ s.OtherLines t q.line ∧ t.wins = s.wins ∧ s.Frame t

/-- R171: `UPGRADE` by a recorded sharer of a `DS` entry that records no other holder: a grant of E without data, and the entry
becomes `DE` of the requester. R169: the `COMP_ACK` of a grant ends its transaction, and the line is no longer busy. -/
def Obligations.UpgradesAndCompAcks : Prop :=
  (∀ (s : State) (q : Req) (e : DirEnt), s.Admits .upgrade q → q.provisional = false →
     (s.descOf (s.lensAt q.addr)).reduction = false → s.dirAt q.line = some e → e.owner = none → e.records q.agent = true →
     s.holders e (some q.agent) = [] →
     ∃ t x, exec (.upgrade q) s = .next t ∧ t.Sends (.rsp q.port q.txid .done 2 false true) ∧
       t.dirAt q.line = some { e with owner := some q.agent, excl := true, sharers := [], vec := 0 } ∧
       t.txns = [x] ∧ x.line = q.line ∧ x.ack = some (q.port, q.txid, 0) ∧ t.arr = s.arr ∧ t.wbb = s.wbb ∧ t.wins = s.wins ∧
       s.Frame t) ∧
  (∀ (s : State) (r : Snr) (x : Txn), State.AtRest { s with txns := [] } → r.flips = 0 → s.txns = [x] → x.served = true →
     x.ack = some (r.port, r.id, 0) →
     ∃ t, exec (.compAck r) s = .next t ∧ t.txns = [] ∧ (∀ n, t.busy n = false) ∧ t.arr = s.arr ∧ t.dir = s.dir ∧
       t.wbb = s.wbb ∧ t.out = [] ∧ t.wins = s.wins ∧ s.Frame t)

/-! ### Writes and atomics -/

/-- R82, R84, R171: `WR_FULL`, `ZERO_LINE` and `WR_PARTIAL` of a line in the array that no agent holds: the bytes they name are
written, every other byte stays, and they complete with `DONE`; a `WR_PARTIAL` of a poisoned sector leaves it poisoned and
completes with `POISON`. -/
def Obligations.WriteHit : Prop :=
  ∀ (s : State) (q : Req) (c : CLine), arrWf s.arr = true → s.lineOf q.line = some c → s.dirAt q.line = none →
    q.provisional = false →
    (s.Admits .wrFull q →
      ∃ t, exec (.wrFull q) s = .next t ∧ t.Sends (.rsp q.port q.txid .done 0 false false) ∧
        (∀ i < 2, t.cached q.line i = if q.covers i then some (q.dataAt i) else s.cached q.line i) ∧
        s.OtherLines t q.line ∧ t.dir = s.dir ∧ t.txns = [] ∧ t.wins = s.wins ∧ s.Frame t) ∧
    (s.Admits .zeroLine q →
      ∃ t, exec (.zeroLine q) s = .next t ∧ t.Sends (.rsp q.port q.txid .done 0 false false) ∧
        (∀ i < 2, t.cached q.line i = some (0, false)) ∧
        s.OtherLines t q.line ∧ t.dir = s.dir ∧ t.txns = [] ∧ t.wins = s.wins ∧ s.Frame t) ∧
    (s.Admits .wrPartial q → (c.sec q.sector).v = true →
      ∃ t, exec (.wrPartial q) s = .next t ∧
        t.Sends (.rsp q.port q.txid (if (c.sec q.sector).poison || (q.dataAt q.sector).2 then .poison else .done) 0 false false) ∧
        t.cached q.line q.sector = some (merge (c.sec q.sector).value (q.dataAt q.sector).1 (q.addr % 64) (sizeBytes q.size),
          (c.sec q.sector).poison || (q.dataAt q.sector).2) ∧
        t.cached q.line (1 - q.sector) = s.cached q.line (1 - q.sector) ∧
        s.OtherLines t q.line ∧ t.dir = s.dir ∧ t.txns = [] ∧ t.wins = s.wins ∧ s.Frame t)

/-- R107: an `APPEND` to a line that is in the array writes its data there, completes with `DONE`, and moves `HEAD_BLK` past its
block. R107, R108: once its spill has ended with the lens below its quota, the append that waited writes its data, in the array or on
the way to memory (R102), moves `HEAD_BLK` and completes with `DONE`. R88: dirty data of a line that makes room for it go to the
write-back buffer, and every other line stays. -/
def Obligations.AppendsComplete : Prop :=
  (∀ (s : State) (q : Req) (c : CLine) (i : Nat) (d : Desc), s.Admits .append q → arrWf s.arr = true → q.provisional = false →
     s.lineOf q.line = some c → s.dirAt q.line = none → s.lensAt q.addr = some i → (s.lensSlot i).desc = some d →
     ∃ t, exec (.append q) s = .next t ∧ t.Sends (.rsp q.port q.txid .done 0 false false) ∧
       (∀ k < 2, t.cached q.line k = if q.covers k then some (q.dataAt k) else s.cached q.line k) ∧
       (t.lensSlot i).desc = some d ∧ (t.lensSlot i).head = max (s.lensSlot i).head (d.blockOf q.addr + 1) ∧
       (t.lensSlot i).tail = (s.lensSlot i).tail ∧
       s.OtherLines t q.line ∧ t.dir = s.dir ∧ t.txns = [] ∧ t.wins = s.wins ∧ s.Frame t) ∧
  (∀ (s : State) (x : Txn) (q : Req) (i : Nat) (d : Desc), State.AtRest { s with txns := [] } → s.txns = [x] →
     x.kind = .req .append q none → x.opAsked = true → x.timedOut = false → x.snoops = [] → x.line = q.line → x.lens = some i →
     s.prov = [] → x.prov = false → x.served = false →
     (s.lensSlot i).desc = some d → d.append = true → (s.lensSlot i).inAct = true → s.lineCount i < d.quota →
       s.lineOf q.line = none → arrWf s.arr = true → s.wbb = [] →
     (s.lensSlot i).tail ≤ d.blockOf q.addr →
     let gone : Option CLine := match s.place q.line q.part (some i) with | .way _ _ v _ _ => v | _ => none
     ∃ t, exec (.appendSpillComplete q.port q.txid) s = .next t ∧ t.Sends (.rsp q.port q.txid .done 0 false false) ∧ t.txns = [] ∧
       (∀ k < 2, t.cached q.line k = if q.covers k then some (q.dataAt k) else none) ∧
       (∀ n, n ≠ q.line → (∀ c, gone = some c → c.line ≠ n) → ∀ k < 2, t.cached n k = s.cached n k) ∧
       (∀ c, gone = some c → c.resid = false → c.dead = false → ∀ k < 2, (c.sec k).d = true →
         t.cached c.line k = some ((c.sec k).value, (c.sec k).poison)) ∧ t.dir = s.dir ∧
       (t.lensSlot i).head = max (s.lensSlot i).head (d.blockOf q.addr + 1) ∧ (t.lensSlot i).tail = (s.lensSlot i).tail ∧
       t.wins = s.wins ∧ t.cfg = s.cfg ∧ t.mbs = s.mbs)

/-- R219, R221: an atomic on a valid sector of a line in the array that no agent holds and no window covers: the element takes the
value of R219, every other byte stays, the old value leaves when `F` is set, and the atomic completes with `DONE`. Poison of the
request's own payload does not count (log entry 129, the model's choice). -/
def Obligations.AtomicHit : Prop :=
  ∀ (s : State) (q : Req) (c : CLine),
    ∀ p ∈ [(Instr.atAdd q, ReqOp.atAdd), (.atMin q, .atMin), (.atMax q, .atMax), (.atAnd q, .atAnd), (.atOr q, .atOr),
      (.atXor q, .atXor), (.atSwap q, .atSwap), (.atCas64 q, .atCas64), (.atCas128 q, .atCas128)],
    s.Admits p.2 q → q.provisional = false → arrWf s.arr = true → s.lineOf q.line = some c → s.dirAt q.line = none →
    (c.sec q.sector).v = true → (c.sec q.sector).poison = false →
    (atOperand p.2 q.payload).resvOk = true → atTypeOk p.2 (atOperand p.2 q.payload).typ q.size = true →
    ∃ t, exec p.1 s = .next t ∧ t.Sends (.rsp q.port q.txid .done 0 false false) ∧
      ((atOperand p.2 q.payload).fetch = true →
        ∃ last, t.Sends (.dat q.port q.txid q.sector
          (BitVec.ofNat 512 (getBytes (c.sec q.sector).value (q.addr % 64) (sizeBytes q.size))) false false last)) ∧
      t.cached q.line q.sector = some (setBytes (c.sec q.sector).value (q.addr % 64) (sizeBytes q.size)
        (atCompute p.2 (atOperand p.2 q.payload).typ q.size
          (getBytes (c.sec q.sector).value (q.addr % 64) (sizeBytes q.size))
          (atOperand p.2 q.payload).opa (atOperand p.2 q.payload).opb), false) ∧
      t.cached q.line (1 - q.sector) = s.cached q.line (1 - q.sector) ∧
      s.OtherLines t q.line ∧ t.dir = s.dir ∧ t.txns = [] ∧ t.wins = s.wins ∧ s.Frame t

/-! ### Reduction windows -/

/-- R214, R219, R222: an `AT_CADD` on an FP32C sum line whose window takes contributions adds its operand to the pair of its element,
the sum and where the line has one the error term of its residual, opens an `ARMED` window, and completes with `DONE`. R223: an
`ACCUMULATE` adds the decoded addends of its payload to the elements of its span in the same way. No other element, sector or line
changes. Poison of the request's own payload does not count (log entry 129, the model's choice). -/
def Obligations.ContributionsApply : Prop :=
  (∀ (s : State) (q : Req) (w : Nat) (c : CLine), s.AdmitsSum .atCadd q w c → q.provisional = false → arrWf s.arr = true →
     w < s.wins.length → (s.win w).acc = 1 → (s.win w).takes = true → (atOperand .atCadd q.payload).resvOk = true →
     (atOperand .atCadd q.payload).typ = 4 → (s.sumPair q.line q.sector).2.2 = false →
     let r := addSector 1 [(atOperand .atCadd q.payload).opa % 2 ^ 32] (q.addr % 64) (s.sumPair q.line q.sector).1
       (s.sumPair q.line q.sector).2.1 false false
     ∃ t, exec (.atCadd q) s = .next t ∧ t.Sends (.rsp q.port q.txid .done 0 false false) ∧ (t.win w).st = .opened ∧
       (t.sumPair q.line q.sector).1 = r.1 ∧ (t.sumPair q.line q.sector).2.2 = false ∧
       ((s.residOf q.line).isSome = true → (t.sumPair q.line q.sector).2.1 = r.2.1) ∧
       t.sumPair q.line (1 - q.sector) = s.sumPair q.line (1 - q.sector) ∧
       s.OtherLines t q.line ∧ (∀ n, n ≠ q.line → t.residOf n = s.residOf n) ∧
       (t.win w).gen = (s.win w).gen ∧ (t.win w).count = (s.win w).count ∧ (∀ v, v ≠ w → t.win v = s.win v) ∧ t.dir = s.dir ∧
       t.txns = [] ∧ s.Frame t) ∧
  (∀ (s : State) (q : Req) (w : Nat) (c : CLine) (xs : List Nat), s.AdmitsSum .accumulate q w c → q.provisional = false →
     arrWf s.arr = true → w < s.wins.length → (s.win w).takes = true →
     q.addr % ifmtSpan (s.win w).ifmt = 0 → q.addr + ifmtSpan (s.win w).ifmt ≤ (s.win w).base + (s.win w).size * 2 ^ 21 →
     decodePayload (s.win w).ifmt q.payload = some xs →
     (s.sumPair q.line 0).2.2 = false → (s.sumPair q.line 1).2.2 = false →
     let off := q.addr % 128
     let n0 := if off < 64 then (64 - off) / accBytes (s.win w).acc else 0
     let r0 := addSector (s.win w).acc (xs.take n0) off (s.sumPair q.line 0).1 (s.sumPair q.line 0).2.1 false false
     let r1 := addSector (s.win w).acc (xs.drop n0) (if off < 64 then 0 else off - 64) (s.sumPair q.line 1).1
       (s.sumPair q.line 1).2.1 false false
     ∃ t, exec (.accumulate q) s = .next t ∧ t.Sends (.rsp q.port q.txid .done 0 false false) ∧ (t.win w).st = .opened ∧
       (t.sumPair q.line 0).1 = (if off < 64 then r0.1 else (s.sumPair q.line 0).1) ∧ (t.sumPair q.line 1).1 = r1.1 ∧
       (t.sumPair q.line 0).2.2 = false ∧ (t.sumPair q.line 1).2.2 = false ∧
       ((s.win w).acc ≠ 1 ∨ (s.residOf q.line).isSome = true →
         (t.sumPair q.line 0).2.1 = (if off < 64 then r0.2.1 else (s.sumPair q.line 0).2.1) ∧ (t.sumPair q.line 1).2.1 = r1.2.1) ∧
       s.OtherLines t q.line ∧ (∀ n, n ≠ q.line → t.residOf n = s.residOf n) ∧
       (t.win w).gen = (s.win w).gen ∧ (t.win w).count = (s.win w).count ∧ (∀ v, v ≠ w → t.win v = s.win v) ∧ t.dir = s.dir ∧
       t.txns = [] ∧ s.Frame t)

/-- R226, R228: a `RD_FUSED` without an operand answers with the outflow of its sum line, `POISON` when a sector is poisoned, and
changes no sum. Poison of the request's own payload does not count (log entry 129, the model's choice). -/
def Obligations.FusedReadAnswers : Prop :=
  ∀ (s : State) (q : Req) (w : Nat) (c : CLine), s.AdmitsSum .rdFused q w c → q.provisional = false → arrWf s.arr = true →
    outDescBad (getBytes q.payload 0 8) (getBytes q.payload 8 8) = false → q.payload.toNat >>> 128 = 0 →
    let d := outDesc (getBytes q.payload 0 8) (getBytes q.payload 8 8)
    d.fuse = 0 → ((s.win w).acc = 2 → d.scaleEn = false) →
    let n := (outLine (s.win w) d (both128 (s.sumPair q.line 0).1 (s.sumPair q.line 1).1)
      (both128 (s.sumPair q.line 0).2.1 (s.sumPair q.line 1).2.1) (both128 0 0)).1
    let p0 := (s.sumPair q.line 0).2.2
    let p1 := (s.sumPair q.line 1).2.2
    ∃ t, exec (.rdFused q) s = .next t ∧
      t.Sends (.rsp q.port q.txid (if p0 || p1 then .poison else .done) 0 false false) ∧
      (∀ j, j = 0 ∨ (j = 1 ∧ outBytes (s.win w) = 128) →
        ∃ last, t.Sends (.dat q.port q.txid j (part128 n j) (outPoison (s.win w) p0 p1 (64 * j) 64) (s.win w).st.running last)) ∧
      (∀ i, t.sumPair q.line i = s.sumPair q.line i) ∧ t.wins = s.wins ∧ t.dir = s.dir ∧ t.txns = [] ∧ s.Frame t

/-- R249, R250: a `WIN_ARRIVE` of the window's generation, while it takes arrivals, counts one arrival (saturating), opens an
`ARMED` window, seals it with cause 1 when `EXPECT` is reached, and completes with `DONE`. -/
def Obligations.WinArriveCounts : Prop :=
  ∀ (s : State) (q : Req) (w : Nat), s.AdmitsWin .winArrive q w → q.provisional = false → w < s.wins.length →
    (s.win w).takes = true → getBytes q.payload 0 4 = (s.win w).gen.toNat →
    let n := min ((s.win w).count + 1) (2 ^ 24 - 1)
    let full := (s.win w).expect ≠ 0 ∧ (s.win w).expect ≤ n
    ∃ t, exec (.winArrive q) s = .next t ∧ t.Sends (.rsp q.port q.txid .done 0 false false) ∧ (t.win w).count = n ∧
      (full → (t.win w).st = .sealed ∧ (t.win w).cause = 1 ∧ (t.win w).drained = false) ∧ (¬full → (t.win w).st = .opened) ∧
      (t.win w).gen = (s.win w).gen ∧ (∀ v, v ≠ w → t.win v = s.win v) ∧ t.arr = s.arr ∧ t.wbb = s.wbb ∧ t.dir = s.dir ∧
      t.txns = [] ∧ s.Frame t

/-- R255: a `WIN_FOLD` that passes its checks counts as an arrival and begins the walk that will fold its source; it completes
when the walk has ended. R230, R235, R255: where the balance of the slice's own group covers the walk, which then ends at once (R297;
log entries 52 and 118, the model's choice), every line that was left is folded: both parts of its sums take what R230 gives, a
poisoned sum stays, and a poisoned source poisons its sum. The fold completes with `POISON` exactly when a sector it met was poisoned,
else with `DONE`; the destination has the sticky flags of its source, and no other line changes. -/
def Obligations.FoldsRun : Prop :=
  (∀ (s : State) (q : Req) (w j : Nat), s.AdmitsWin .winFold q w → q.provisional = false → w < s.wins.length →
     (s.win w).takes = true → getBytes q.payload 8 4 = (s.win w).gen.toNat → s.foldCheck w s.foldSrcs q.payload = .ok j →
     ∃ t, exec (.winFold q) s = .next t ∧
       t.folds = [{ src := j, dst := w, port := q.port, txid := q.txid, agent := q.agent }] ∧
       (t.win w).count = min ((s.win w).count + 1) (2 ^ 24 - 1) ∧ (∀ v, v ≠ w → t.win v = s.win v) ∧ t.arr = s.arr ∧
       t.wbb = s.wbb ∧ t.dir = s.dir ∧ t.txns = [] ∧ t.cfg = s.cfg ∧ t.mbs = s.mbs ∧ t.elog = s.elog) ∧
  (∀ (s : State) (w : Nat) (f : FoldRun), State.AtRest { s with folds := [] } → s.folds = [f] → s.prov = [] → f.dst = w →
     f.src ≠ w → f.tag = none → f.timedOut = false → w < s.wins.length → arrWf s.arr = true →
     let acc := (s.win w).acc
     let src (l : Nat) : Nat := ((s.win f.src).base + (l * 128 - (s.win w).base)) / 128
     let lines := (s.planeLines (s.win w).base (s.win w).size).drop f.pos
     s.CoversLines (s.selfGroup (s.win w).part) (s.planeLines (s.win w).base (s.win w).size) →
     (∀ l ∈ lines, src l ∉ lines) → (∀ l ∈ lines, (s.lineOf l).isSome = true) →
     let bad := f.bad || lines.any fun l => (List.range 2).any fun i => (s.sumPair (src l) i).2.2 || (s.sumPair l i).2.2
     ∃ t, exec (.foldComplete w) s = .next t ∧ t.Sends (.rsp f.port f.txid (if bad then .poison else .done) 0 false false) ∧
       t.folds = [] ∧
       (∀ l ∈ lines, ∀ i < 2,
         let a := s.sumPair l i
         let b := s.sumPair (src l) i
         let r := foldSector acc a.1 a.2.1 b.1 b.2.1
         (b.2.2 = true → (t.sumPair l i).1 = a.1 ∧ (t.sumPair l i).2.1 = a.2.1 ∧ (t.sumPair l i).2.2 = true) ∧
         (b.2.2 = false → a.2.2 = true → t.sumPair l i = a) ∧
         (b.2.2 = false → a.2.2 = false → (t.sumPair l i).1 = r.1 ∧ (t.sumPair l i).2.2 = false ∧
           (acc ≠ 1 ∨ (s.residOf l).isSome = true → (t.sumPair l i).2.1 = r.2.1))) ∧
       (∀ n, n ∉ lines → t.lineOf n = s.lineOf n ∧ t.residOf n = s.residOf n) ∧ t.wbb = s.wbb ∧
       ((s.win f.src).ovf = true → (t.win w).ovf = true) ∧
       ((s.win f.src).nan = true → (t.win w).nan = true) ∧ (t.win w).st = (s.win w).st ∧ (∀ v, v ≠ w → t.win v = s.win v) ∧
       t.dir = s.dir ∧ t.cfg = s.cfg)

/-- R253, R254: `WIN_COLLECT` and `COLLECT` of a `FINAL` window that pass their checks, without an operand: the window becomes
`COLLECTED` at once, and the collect waits for its output writes. R253: once its walk has ended and its writes are acknowledged, a
collect completes with `DONE`, or `POISON` when a line was poisoned. -/
def Obligations.CollectsRun : Prop :=
  (∀ (s : State) (q : Req) (w : Nat), s.AdmitsWin .winCollect q w → q.provisional = false → w < s.wins.length →
    let c : ColArgs := { d0 := getBytes q.payload 0 8, d1 := getBytes q.payload 8 8, dst := bits (getBytes q.payload 16 8) 51 0,
                         noOut := bit (getBytes q.payload 16 8) 52, gen := getBytes q.payload 24 4,
                         req := some (q.port, q.txid, none) }
    s.colCheck w (s.win w).st (s.win w).gen.toNat c = .go → (outDesc c.d0 c.d1).fuse = 0 →
    ∃ t, exec (.winCollect q) s = .next t ∧ (t.win w).st = .collected ∧ (∃ k, (t.win w).col = some k ∧ k.Same c) ∧
      (∀ v, v ≠ w → t.win v = s.win v) ∧ t.dir = s.dir ∧ ∀ x ∈ t.txns, x.kind = .collectOp w) ∧
  (∀ (s : State) (m : MbCmd) (w : Nat), s.AtRest → s.Accepts 0x09 m → bits (m.arg 3) 5 0 = w → w < s.wins.length →
    (s.win w).arming = none → (∀ p, m.window = some p → p = (s.win w).part) →
    let c : ColArgs := { d0 := m.arg 0, d1 := m.arg 1, dst := bits (m.arg 2) 51 0, noOut := bit (m.arg 2) 52,
                         gen := bits (m.arg 3) 37 6, mb := some m.window }
    s.colCheck w (s.win w).st (s.win w).gen.toNat c = .go → (outDesc c.d0 c.d1).fuse = 0 →
    ∃ t, exec (.collect m) s = .next t ∧ t.Sends (.csrp .ok 0) ∧ (t.win w).st = .collected ∧ (∃ k, (t.win w).col = some k ∧
      k.Same c) ∧
      t.mbs[mbIdx m.window]? = some (MbRuns 0x09 m) ∧ (∀ v, v ≠ w → t.win v = s.win v) ∧ t.dir = s.dir ∧
        ∀ x ∈ t.txns, x.kind = .collectOp w) ∧
  (∀ (s : State) (w : Nat) (c : ColArgs), s.AtRest → w < s.wins.length → s.colDue w = true → (s.win w).col = some c →
     ∃ t, exec (.collectComplete w) s = .next t ∧ t.win w = { s.win w with col := none } ∧
       (∀ p i, c.mb = none → c.req = some (p, i, none) →
         t.Sends (.rsp p i (if (s.win w).colPoison then .poison else .done) 0 false false)) ∧
       (∀ m b, c.mb = some m → s.mbs[mbIdx m]? = some b →
         let st : Status := if (s.win w).colPoison then .poison else .done
         t.mbs[mbIdx m]? = some
           { b with st := 2, isErr := false, code := st.code, res := [BitVec.ofNat 64 (s.win w).colLines, 0, 0, 0] }) ∧
       (∀ v, v ≠ w → t.win v = s.win v) ∧ t.arr = s.arr ∧ t.dir = s.dir)

/-- R249, R250: `SEAL` of an `ARMED` or `OPEN` window by its partition or the management mailbox seals it with cause 2 and
completes with the ready word. R251: `FINALIZE` of such a window seals it with cause 3 and waits for `FINAL`. R251: a sealed
window whose contributions have all been applied has drained, and its finalisation begins when `AUTO_FIN` is set or `FINALIZE`
waits. R232: the end of a finalisation makes it `FINAL` and completes whoever waits; in an FP32C window every element that was left
has become fl(`S` + `C`) with its residual +0, and a poisoned sector stays. R297: a finalisation that the balance of the slice's own
group covers ends at once (log entries 52 and 118, the model's choice). -/
def Obligations.WindowsSealAndFinalise : Prop :=
  (∀ (s : State) (m : MbCmd) (w : Nat), s.AtRest → bits (m.arg 0) 5 0 = w → w < s.wins.length → (s.win w).arming = none →
     (s.win w).takes = true → (∀ p, m.window = some p → p = (s.win w).part) →
     (bit (m.arg 0) 6 = true → bits (m.arg 0) 38 7 = (s.win w).gen.toNat) →
     (s.Accepts 0x07 m →
       ∃ t, exec (.seal m) s = .next t ∧ t.Sends (.csrp .ok 0) ∧
         t.win w = { s.win w with st := .sealed, cause := 2, drained := false } ∧
         t.mbs[mbIdx m.window]? = some (MbShows 0x07 m .done [BitVec.ofNat 64 (t.win w).ready]) ∧
         (∀ v, v ≠ w → t.win v = s.win v) ∧ t.arr = s.arr ∧ t.wbb = s.wbb ∧ t.dir = s.dir ∧ t.txns = []) ∧
     (s.Accepts 0x08 m →
       ∃ t, exec (.finalize m) s = .next t ∧ t.Sends (.csrp .ok 0) ∧ (t.win w).st = .sealed ∧ (t.win w).cause = 3 ∧
         (t.win w).finReq = true ∧ t.mbs[mbIdx m.window]? = some (MbRuns 0x08 m) ∧
         (∀ v, v ≠ w → t.win v = s.win v) ∧ t.arr = s.arr ∧ t.wbb = s.wbb ∧ t.dir = s.dir ∧ t.txns = [])) ∧
  (∀ (s : State) (w : Nat), s.AtRest → w < s.wins.length →
     ((s.win w).st = .sealed → (s.win w).drained = false → s.unapplied w = false →
       ∃ t, exec (.windowDrained w) s = .next t ∧
         t.win w = { s.win w with drained := true,
                                  finalising := (s.win w).finalising || (s.win w).autoFin || (s.win w).finReq } ∧
         (∀ v, v ≠ w → t.win v = s.win v) ∧ t.arr = s.arr ∧ t.dir = s.dir ∧ t.mbs = s.mbs ∧ s.Frame t) ∧
     ((s.win w).finalising = true → (s.win w).finNeed ≤ s.lens.done → arrWf s.arr = true →
       let lines := (s.planeLines (s.win w).base (s.win w).size).drop (s.win w).finPos
       s.CoversLines (s.selfGroup (s.win w).part) (s.planeLines (s.win w).base (s.win w).size) →
       ∃ t, exec (.finaliseComplete w) s = .next t ∧ (t.win w).st = .final ∧ (t.win w).finalising = false ∧
         (t.win w).finReq = false ∧ (t.win w).gen = (s.win w).gen ∧ (t.win w).count = (s.win w).count ∧
         (∀ m ∈ (s.win w).finMbs, ∀ b, t.mbs[mbIdx m]? = some b → b.st = 2 ∧ b.isErr = false ∧ b.code = 0) ∧
         ((s.win w).acc ≠ 1 → t.arr = s.arr) ∧
         ((s.win w).acc = 1 → ∀ l ∈ lines, (s.lineOf l).isSome = true → (s.residOf l).isSome = true → ∀ i < 2,
           let a := s.sumPair l i
           (a.2.2 = true → t.sumPair l i = a) ∧
           (a.2.2 = false → (∀ k < 16, getBytes (t.sumPair l i).1 (4 * k) 4 =
               (finElem (getBytes a.1 (4 * k) 4) (getBytes a.2.1 (4 * k) 4)).s) ∧
             (t.sumPair l i).2.1 = 0 ∧ (t.sumPair l i).2.2 = false)) ∧
         (∀ n, n ∉ lines → t.lineOf n = s.lineOf n ∧ t.residOf n = s.residOf n) ∧ t.wbb = s.wbb ∧ (∀ v, v ≠ w → t.win v = s.win v) ∧ t.dir = s.dir ∧ t.cfg = s.cfg))

/-- R245, R246, R493: an `ARM_WINDOW` that passes its checks begins the placing pass and keeps its mailbox; `REARM` does the same
with the header's own fields and a new `EXPECT`. R246: `RELEASE` of a window that is quiet makes it `IDLE`, drops its residual
lines and completes; the end of a placing pass writes the header, with `GEN` one higher and the window `ARMED`. -/
def Obligations.WindowsArmAndRelease : Prop :=
  (∀ (s : State) (m : MbCmd) (w : Nat), s.AtRest → arrWf s.arr = true → s.prov = [] → w < s.wins.length →
     (let m' := m.force 2 7 6 0
      s.Accepts 0x06 m' → armWin m' = w → bits (m'.arg 2) 7 6 = 0 → (s.win w).arming = none →
      s.armCheck w m.window (s.armArgs m') = .ok → (∀ l ∈ s.planeLines (s.armArgs m').base (s.armArgs m').size, s.dirAt l = none) →
      ∃ t, exec (.armWindowArm m) s = .next t ∧ t.Sends (.csrp .ok 0) ∧ (t.win w).arming = some (s.armArgs m') ∧
        (t.win w).armMb = m.window ∧ t.mbs[mbIdx m.window]? = some (MbRuns 0x06 m') ∧
        (∀ v, v ≠ w → t.win v = s.win v) ∧ t.dir = s.dir ∧ ∀ x ∈ t.txns, x.kind = .rangeOp 5 w) ∧
     (let m' := m.force 2 7 6 1
      let a := (s.win w).args (bits (m'.arg 2) 31 8)
      s.Accepts 0x06 m' → armWin m' = w → bits (m'.arg 2) 7 6 = 1 → (s.win w).arming = none → (s.win w).col = none →
      ((s.win w).st = .final ∨ (s.win w).st = .collected) → (∀ p, m.window = some p → p = (s.win w).part) →
      (∀ l ∈ s.planeLines a.base a.size, s.dirAt l = none) →
      ∃ t, exec (.armWindowRearm m) s = .next t ∧ t.Sends (.csrp .ok 0) ∧ (t.win w).arming = some a ∧
        t.mbs[mbIdx m.window]? = some (MbRuns 0x06 m') ∧ (∀ v, v ≠ w → t.win v = s.win v) ∧ t.dir = s.dir ∧
          ∀ x ∈ t.txns, x.kind = .rangeOp 5 w)) ∧
  (∀ (s : State) (w : Nat), s.AtRest → w < s.wins.length →
     (∀ m : MbCmd, let m' := m.force 2 7 6 2
       s.Accepts 0x06 m' → armWin m' = w → bits (m'.arg 2) 7 6 = 2 → (s.win w).arming = none →
       (s.win w).st ≠ .idle → (s.win w).col = none → (s.win w).finalising = false →
       ((s.win w).st = .sealed → (s.win w).drained = true) → (∀ p, m.window = some p → p = (s.win w).part) →
       ∃ t, exec (.armWindowRelease m) s = .next t ∧ t.Sends (.csrp .ok 0) ∧ (t.win w).st = .idle ∧
         t.arr = s.arr.filter (fun c => !(c.resid && (s.win w).holds c.line)) ∧
         t.mbs[mbIdx m.window]? = some (MbShows 0x06 m' .done [BitVec.ofNat 64 (s.win w).gen.toNat]) ∧
         (∀ v, v ≠ w → t.win v = s.win v) ∧ t.dir = s.dir) ∧
     (∀ a b, (s.win w).arming = some a → s.mbs[mbIdx (s.win w).armMb]? = some b →
       ∃ t, exec (.armComplete w) s = .next t ∧ (t.win w).st = .armed ∧ (t.win w).gen = (s.win w).gen + 1 ∧
         (t.win w).base = a.base ∧ (t.win w).size = a.size ∧ (t.win w).expect = a.expect ∧ (t.win w).acc = a.acc ∧
         (t.win w).hdr = a.hdr ∧ (t.win w).count = 0 ∧ (t.win w).arming = none ∧
         t.mbs[mbIdx (s.win w).armMb]? = some
           { b with st := 2, isErr := false, code := 0, res := [BitVec.ofNat 64 ((s.win w).gen + 1).toNat, 0, 0, 0] } ∧
         (∀ v, v ≠ w → t.win v = s.win v) ∧ t.arr = s.arr ∧ t.dir = s.dir))

/-! ### Notices, provisional reads and requests that are turned away -/

/-- R170, R171, R173: a `WRITEBACK` or `WRITECLEAN` by the recorded owner of a line in the array installs its data dirty and
completes with `DONE`; the entry loses the agent, or for `WRITECLEAN` keeps an exclusive owner and demotes any other to a sharer.
An `EVICT_CLEAN` by a recorded holder that is not an owner in O removes it from an exact entry, while a coarse entry keeps a sharer
(R167), and changes no data. -/
def Obligations.NoticesOfHolders : Prop :=
  ∀ (s : State) (q : Req) (e : DirEnt), q.provisional = false → arrWf s.arr = true → s.dirAt q.line = some e →
    (∀ c, s.lineOf q.line = some c → c.dead = false → e.owner = some q.agent → s.Admits .writeback q →
      ∃ t, exec (.writeback q) s = .next t ∧ t.Sends (.rsp q.port q.txid .done 0 false false) ∧
        (∀ i < 2, t.cached q.line i = some (q.dataAt i)) ∧
        (∃ x, t.lineOf q.line = some x ∧ x.lo.d = true ∧ x.hi.d = true) ∧ t.dir = (s.putDir (e.remove q.agent)).dir ∧ t.txns = [] ∧
        s.OtherLines t q.line ∧ t.wins = s.wins ∧ s.Frame t) ∧
    (∀ c, s.lineOf q.line = some c → c.dead = false → e.owner = some q.agent → s.Admits .writeclean q →
      ∃ t, exec (.writeclean q) s = .next t ∧ t.Sends (.rsp q.port q.txid .done 0 false false) ∧
        (∀ i < 2, t.cached q.line i = some (q.dataAt i)) ∧
        (∃ x, t.lineOf q.line = some x ∧ x.lo.d = true ∧ x.hi.d = true) ∧
        t.dir = (s.putNorm (if e.excl then e else e.demote)).dir ∧ t.txns = [] ∧
        s.OtherLines t q.line ∧ t.wins = s.wins ∧ s.Frame t) ∧
    (e.records q.agent = true → (e.owner = some q.agent → e.excl = true) → s.Admits .evictClean q →
      ∃ t, exec (.evictClean q) s = .next t ∧ t.Sends (.rsp q.port q.txid .done 0 false false) ∧
        t.dir = (s.putDir (if e.coarse && e.owner != some q.agent then e else e.remove q.agent)).dir ∧
        t.arr = s.arr ∧ t.wbb = s.wbb ∧ t.txns = [] ∧ t.wins = s.wins ∧ s.Frame t)

/-- R139, R140: a provisional read of a line that no agent owns, with its sectors in the array and not poisoned, sends its data
with `OPEN`, leaves an entry that is `OPEN` unless a flit of the data still waits for a credit, and makes no grant and no
directory entry. R143: a `CONFIRM` of an `OPEN` entry closes it and completes with `DONE`: without a grant when the read was
`RD_ONCE`, with a grant of E and a `DE` entry when no agent holds the line and both the lens that the read matched and the one that
now covers the line allow E (R112; log entry 46, the model's choice). A `CANCEL` closes the entry and completes with `DONE`. -/
def Obligations.ProvisionalReads : Prop :=
  (∀ (s : State) (once : Bool) (q : Req) (c : CLine),
     let op : ReqOp := if once then .rdOnce else .rdShared
     let q' : Req := { q with provisional := true }
     s.Admits op q' → arrWf s.arr = true → s.lineOf q.line = some c →
     (∀ i < 2, q.covers i = true → (c.sec i).v = true ∧ (c.sec i).poison = false) →
     (∀ e, s.dirAt q.line = some e → e.owner = none) → (s.descOf (s.lensAt q.addr)).reduction = false →
     ∃ t, exec (.provisionalRead once q) s = .next t ∧ t.Sends (.rsp q.port q.txid .done 0 true false) ∧
       (∀ i < 2, q.covers i = true → ∃ last, t.Sends (.dat q.port q.txid i (c.sec i).value false false last)) ∧
       (∃ st g, t.prov = [{ agent := q.agent, port := q.port, txid := q.txid, line := q.line, part := q.part,
                            lens := s.lensAt q.addr, once := once, st := st, sent := true, grp := g }] ∧
         (st = .opened ∨
           (st = .pending ∧ ∃ f ∈ t.heldOut, (match f.flit with | .dat p i .. => p == q.port && i == q.txid | _ => false) = true))) ∧
       (∀ i, t.cached q.line i = s.cached q.line i) ∧ t.dir = s.dir ∧ t.txns = [] ∧ s.OtherLines t q.line ∧ t.wins = s.wins ∧
       s.Frame t) ∧
  (∀ (s : State) (q : Req) (e : ProvEnt), s.prov = [e] → e.port = q.port → e.txid = q.txid → e.tag = none → e.line = q.line →
     q.provisional = false →
     (s.Allowed .confirm q → e.st = .opened → e.once = true →
       ∃ t, exec (.confirm q) s = .next t ∧ t.Sends (.rsp q.port q.txid .done 0 false false) ∧ t.prov = [] ∧ t.dir = s.dir ∧
         t.arr = s.arr ∧ t.txns = [] ∧ t.wbb = s.wbb ∧ t.wins = s.wins ∧ s.Frame t) ∧
     (∀ w, s.Allowed .confirm q → e.st = .opened → e.once = false → (s.descOf e.lens).reduction = false →
       s.onlyShared e.lens = false → s.onlyShared (s.lensAt q.addr) = false → s.dirAt q.line = none → s.dirPlace (setOf q.line) = .free w → (∀ x ∈ s.dir, x.way < 16) →
       ∃ t x, exec (.confirm q) s = .next t ∧ t.Sends (.rsp q.port q.txid .done 2 false true) ∧ t.prov = [] ∧
         t.dirAt q.line = some { set := setOf q.line, way := w, line := q.line, part := e.part, owner := some e.agent, excl := true } ∧
         (∀ n, n ≠ q.line → t.dirAt n = s.dirAt n) ∧ t.txns = [x] ∧ x.ack = some (q.port, q.txid, 0) ∧ t.busy q.line = true ∧
         t.arr = s.arr ∧ t.wbb = s.wbb ∧ t.wins = s.wins ∧ s.Frame t) ∧
     (s.Allowed .cancel q →
       ∃ t, exec (.cancel q) s = .next t ∧ t.Sends (.rsp q.port q.txid .done 0 false false) ∧ t.prov = [] ∧ t.dir = s.dir ∧
         t.arr = s.arr ∧ t.txns = [] ∧ t.wbb = s.wbb ∧ t.wins = s.wins ∧ s.Frame t))

/-- R156: a request whose opcode nothing assigns completes with `ABORTED`, and a `HDR_ABORT` record is placed. -/
def Obligations.ReservedOpcodeAborts : Prop :=
  ∀ (s : State) (opc : Nat) (q : Req), s.AtRest → q.flips = 0 → (∀ f ∈ q.dat, f.flips = 0) → opc < 256 →
    assignedOpcode opc = false →
    ∃ t, exec (.reservedOpcodeRequest opc q) s = .next t ∧ t.Sends (.rsp q.port q.txid .aborted 0 false false) ∧
      t.elog = s.elog.place { source := 0x001, part := q.part, agent := q.agent, port := q.port, addr := q.addr,
                              detail := opc + q.txid * 256 } ∧
      t.arr = s.arr ∧ t.dir = s.dir ∧ t.wbb = s.wbb ∧ t.txns = [] ∧ t.wins = s.wins ∧ t.cfg = s.cfg ∧ t.pending = s.pending

/-! ### Request data, deadlines and waits -/

/-- R26, R142: a flit of request data goes to the waiting request that wants it, and to no other. R136, R169: a request that waits
for a line that a grant's transaction keeps busy keeps waiting; once the line is free, the request restarts its lookup, here a
`ZERO_LINE` of a line in the array, which is then done. -/
def Obligations.RequestsWaitAndRestart : Prop :=
  (∀ (s : State) (port txid : Nat) (f : DatFlit), State.AtRest { s with waiting := [] } → f.flips = 0 →
     (∀ w ∈ s.waiting, w.cause ≠ .span) → s.prov = [] →
     ∃ t, exec (.datInData port txid f) s = .next t ∧
       t.waiting = s.waiting.map (fun w => if wantsFlit w.op w.q w.tag port txid then { w with q := addFlit w.q f } else w) ∧
       t.arr = s.arr ∧ t.dir = s.dir ∧ t.wbb = s.wbb ∧ t.txns = [] ∧ t.out = [] ∧ t.wins = s.wins ∧ s.Frame t) ∧
  (∀ (s : State) (w : WaitReq) (c : CLine), s.waiting = [w] → w.tag = none → w.op = .zeroLine → w.cause = .busyLine →
    State.Admits { s with waiting := [] } .zeroLine w.q → w.q.provisional = false → arrWf s.arr = true →
    s.lineOf w.q.line = some c → s.dirAt w.q.line = none →
    State.freed w { s with waiting := [] } = true →
    ∃ t, exec .waitingRequestRestart s = .next t ∧ t.waiting = [] ∧ t.Sends (.rsp w.q.port w.q.txid .done 0 false false) ∧
      (∀ i < 2, t.cached w.q.line i = some (0, false)) ∧ s.OtherLines t w.q.line ∧ t.dir = s.dir ∧ t.txns = [] ∧
      t.wins = s.wins ∧ s.Frame t) ∧
  (∀ (s : State) (w : WaitReq) (x : Txn) (op : ReqOp) (q : Req), State.AtRest { s with waiting := [], txns := [] } →
    s.waiting = [w] →
    s.txns = [x] → x.kind = .req op q none → x.served = true → w.cause = .busyLine → s.prov = [] →
    s.busy w.q.line = true →
    ∃ t, exec .waitingRequestRestart s = .next t ∧ t.waiting = [w] ∧ t.txns = [x] ∧ t.arr = s.arr ∧ t.dir = s.dir ∧ t.wbb = s.wbb ∧
      t.out = [] ∧ t.wins = s.wins ∧ s.Frame t)

/-- R143: the deadline of a provisional entry that is `OPEN` or `VOIDED` closes it and completes the read with `TIMEOUT`. R455:
the watchdog completes a waiting request with `TIMEOUT`, takes it from its buffer, and places its record. -/
def Obligations.DeadlinesComplete : Prop :=
  (∀ (s : State) (e : ProvEnt), s.AtRest → s.prov = [e] → e.st ≠ .pending → e.tag = none →
    ∃ t, exec (.provDeadline e.port e.txid) s = .next t ∧ t.Sends (.rsp e.port e.txid .timeout 0 false false) ∧ t.prov = [] ∧
      t.arr = s.arr ∧ t.dir = s.dir ∧ t.wins = s.wins ∧ s.Frame t) ∧
  (∀ (s : State) (w : WaitReq), State.AtRest { s with waiting := [] } → s.waiting = [w] → watched w.op = true → w.tag = none →
    s.prov = [] → s.regs.fwdWd ≤ w.age →
    ∃ t, exec (.watchdogTimeout w.q.port w.q.txid) s = .next t ∧ t.Sends (.rsp w.q.port w.q.txid .timeout 0 false false) ∧
      t.waiting = [] ∧ t.elog = s.elog.place { source := 0x017, part := w.q.part, agent := w.q.agent, port := w.q.port,
                                               addr := w.q.addr,
                                               detail := w.op.code % 256 + w.q.txid * 2 ^ 8 +
                                                 (s.waitCause w.cause w.q.line).1 * 2 ^ 20 +
                                                 (s.waitCause w.cause w.q.line).2 * 2 ^ 24 } ∧
      t.arr = s.arr ∧ t.dir = s.dir ∧ t.wins = s.wins ∧ t.cfg = s.cfg)

/-! ### Cues -/

/-- R266, R267: a ring at its keeper by the channel's owner queues one beat: `ISSUED` plus the value for `ADD`, the value for
`SET`; it completes when the beat has left. R267, R269: a `CUE_POST` that passes its checks queues one beat when the queue has
room, and its mailbox runs until the beat has left. R268: the beat at the head of the queue leaves on `CUEO`, and the ring that
queued it completes with `DONE`. -/
def Obligations.BeatsAreSent : Prop :=
  (∀ (s : State) (q : Req) (c : Nat), s.Allowed .cueRing q → q.provisional = false → s.hdrWin q.line = none →
     s.bellOf q.line = some c → q.addr % 128 = 0 → (s.chan c).cfg.owner = q.part → s.beatsFull = false →
     q.payload.toNat >>> 33 = 0 → valueOk (bit (getBytes q.payload 4 1) 0) (getBytes q.payload 0 4) = true →
     let v := BitVec.ofNat 32 (getBytes q.payload 0 4)
     let n := if bit (getBytes q.payload 4 1) 0 then (s.chan c).issued + v else v
     ∃ t, exec (.cueRing q) s = .next t ∧
       t.cue.beats = s.cue.beats ++ [{ part := q.part, chan := c, count := n, src := some (q.port, q.txid, none) }] ∧
       (t.chan c).applied = (s.chan c).applied ∧ (bit (getBytes q.payload 4 1) 0 = true → (t.chan c).issued = n) ∧
       t.cue.slots = s.cue.slots ∧ t.arr = s.arr ∧ t.dir = s.dir ∧ t.wbb = s.wbb ∧ t.txns = [] ∧ t.wins = s.wins ∧ t.cfg = s.cfg ∧
       t.mbs = s.mbs ∧ t.elog = s.elog) ∧
  (∀ (s : State) (m : MbCmd), s.AtRest → s.Accepts 0x0E m → s.beatsFull = false →
     let c := bits (m.arg 0) 3 0
     let add := bit (m.arg 0) 4
     let v := BitVec.ofNat 32 (bits (m.arg 0) 63 32)
     let n := if add then (s.chan c).issued + v else v
     (s.chan c).cfg.en = true → valueOk add (bits (m.arg 0) 63 32) = true → (add = true → s.keeper c = true) →
     (∀ p, m.window = some p → p = (s.chan c).cfg.owner) →
     ∃ t, exec (.cuePost m) s = .next t ∧ t.Sends (.csrp .ok 0) ∧
       t.cue.beats = s.cue.beats ++ [{ part := (s.chan c).cfg.owner, chan := c, count := n, mb := some m.window }] ∧
       t.mbs[mbIdx m.window]? = some (MbRuns 0x0E m) ∧ t.cue.slots = s.cue.slots ∧ t.arr = s.arr ∧ t.dir = s.dir ∧
         t.wins = s.wins) ∧
  (∀ (s : State) (b : BeatQ) (rest : List BeatQ), s.AtRest → s.cue.beats = b :: rest → s.prov = [] →
     ∃ t, exec .beatEmit s = .next t ∧ t.Sends (.cueo b.part b.chan b.count) ∧ t.cue.beats = rest ∧
       (∀ p i, b.src = some (p, i, none) → t.Sends (.rsp p i .done 0 false false)) ∧
       t.cue.chans = s.cue.chans ∧ t.cue.slots = s.cue.slots ∧ t.arr = s.arr ∧ t.dir = s.dir ∧ t.wins = s.wins ∧ t.cfg = s.cfg)

/-- R260, R261, R274, R281: a beat that is after `APPLIED`, on an enabled channel of its owner, becomes `APPLIED`; exactly the
`ARMED` slots of the channel whose target it reaches become `DUE` with it, and `SINCE` restarts when there is one. R281: once
`SINCE` has passed `LAG_LIMIT` the channel is `LAGGING`. R283, R285: the watchdog sets `STALL`, places its record, and in mode 2
makes the channel's armed `SEAL` slots `DUE`. That `SINCE` stands one past `LAG_LIMIT` after the first event, and that the record of
the second carries `WD_LIMIT` or more, is log entry 6 (the model's choice). -/
def Obligations.CueBeatsAndLag : Prop :=
  (∀ (s : State) (part c : Nat) (v : BitVec 32), s.AtRest →
     c < s.cue.chans.length → s.cue.slots.length = 512 → s.beatOk part c = true → isAfter v (s.chan c).applied = true →
     let due := s.armedSlots c (fun a => atOrAfter v a.target)
     ∃ t, exec (.cueBeat part c v 0) s = .next t ∧ (t.chan c).applied = v ∧
       (∀ i, t.slot i = if i ∈ due then { s.slot i with st := .due, fire := v, stalled := false } else s.slot i) ∧
       t.cue.due = s.cue.due ++ due ∧ (due ≠ [] → (t.chan c).since = 0 ∧ (t.chan c).pace = (s.chan c).since) ∧
       (∀ k, k ≠ c → t.chan k = s.chan k) ∧ t.arr = s.arr ∧ t.dir = s.dir ∧ t.wins = s.wins ∧ t.cfg = s.cfg ∧ t.elog = s.elog) ∧
  (∀ (s : State) (c : Nat), s.AtRest → c < s.cue.chans.length → s.cue.slots.length = 512 →
     (s.lagDue c = true →
       ∃ t, exec (.cueLagLimit c) s = .next t ∧ (t.chan c).since = (s.chan c).cfg.lagLimit + 1 ∧ t.lagging c = true ∧
         (∀ k, k ≠ c → t.chan k = s.chan k) ∧ t.cue.slots = s.cue.slots ∧ t.arr = s.arr ∧ t.wins = s.wins ∧ t.elog = s.elog) ∧
     (s.wdDue c = true →
       let due := s.armedSlots c (fun a => a.act == 3)
       ∃ t, exec (.cueWatchdog c) s = .next t ∧ (t.chan c).stall = true ∧ (t.chan c).wdFired = true ∧
         (t.regs.status &&& 8) = 8 ∧
         t.elog = s.elog.place { source := 0x014, part := (s.chan c).cfg.owner,
                                 addr := max (s.chan c).since (s.chan c).cfg.wdLimit,
                                 detail := c + (s.chan c).applied.toNat * 16 } ∧
         (∀ i, t.slot i = if (s.chan c).cfg.wdMode = 2 ∧ i ∈ due
           then { s.slot i with st := .due, fire := (s.chan c).applied, stalled := true } else s.slot i) ∧
         t.arr = s.arr ∧ t.wins = s.wins))

/-- R273, R274: a record that passes R273's checks on a `FREE` slot is armed, `DUE` at once when `APPLIED` has reached its target,
and the write is answered with `OK`. A `DISARM_SLOT` of an `ARMED` or `DUE` slot frees it with the outcome `ABORTED`. -/
def Obligations.ArmAndDisarmSlot : Prop :=
  ∀ (s : State) (src : Csrp) (win : Option Nat), s.AtRest → s.reaches src win = true →
    (∀ (words : List Word), s.cueView.check win words = .ok → 
      let i := bits (words.getD 0 0).toNat 8 0
      let a : ActSlot := { words := (words ++ List.replicate 8 0).take 8, st := .armed }
      let past := atOrAfter (s.chan a.chan).applied a.target
      i < s.cue.slots.length → (s.slot i).st = .free →
      ∃ t, exec (.armSlot src win words) s = .next t ∧ t.Sends (.csrp .ok 0) ∧
        t.slot i = (if past then { a with st := .due, fire := (s.chan a.chan).applied } else a) ∧
        (∀ k, k ≠ i → t.slot k = s.slot k) ∧ (∀ c, (t.chan c).applied = (s.chan c).applied) ∧
        t.arr = s.arr ∧ t.dir = s.dir ∧ t.wins = s.wins ∧ t.elog = s.elog) ∧
    (∀ i, i < s.cue.slots.length → (∀ p, win = some p → inRange s.cue.ranges p i = true) →
      (s.slot i).st = .armed ∨ (s.slot i).st = .due →
      ∃ t, exec (.disarmSlot src win i) s = .next t ∧ t.Sends (.csrp .ok 0) ∧ (t.slot i).st = .free ∧
        (t.slot i).out = some ((s.slot i).outcome 4 false 0) ∧ (∀ k, k ≠ i → t.slot k = s.slot k) ∧
        t.cue.due = s.cue.due.filter (· != i) ∧ t.cue.chans = s.cue.chans ∧
        t.arr = s.arr ∧ t.dir = s.dir ∧ t.wins = s.wins ∧ t.elog = s.elog)

/-! ### Snoops, dead agents and regulation -/

/-- R162, R164, R176: an answer that announces data is kept until its flits have come, a flit is kept with its snoop, and the last
answer of a directory eviction, without data, ends it. R178: `SNP_INFLIGHT` makes the snoop wait for the notice it announces.
R161: a snoop that waits for an ID is sent under a free one, the lowest by log entry 13 (the model's choice). -/
def Obligations.SnoopsAnswered : Prop :=
  (∀ (s : State) (x : Txn) (k : SnoopRec), State.AtRest { s with txns := [] } → s.txns = [x] → x.snoops = [k] → x.served = false →
     x.started = true → k.sent = true → k.notice = none → k.inflight = none → k.lo = none → k.hi = none →
     (∀ (r : Snr) (op : ReqOp) (q : Req), k.port = r.port → k.id = r.id → r.flips = 0 → r.code < 3 → k.ans = none → r.data = true →
       x.kind = .req op q none → op.isCtl = false → op ≠ .rdFused →
       ∃ t, exec (.snoopResponse r) s = .next t ∧
         t.txns = [{ x with snoops := [{ k with ans := some { code := r.code, data := true, pd := r.pd } }] }] ∧
         t.arr = s.arr ∧ t.dir = s.dir ∧ t.out = [] ∧ t.wins = s.wins ∧ s.Frame t) ∧
     (∀ (r : Snr) (e : DirEnt), k.port = r.port → k.id = r.id → r.flips = 0 → r.code = 0 → k.ans = none → r.data = false →
       r.pd = false →
       x.kind = .evict e →
       ∃ t, exec (.snoopResponse r) s = .next t ∧ t.txns = [] ∧ t.arr = s.arr ∧ t.dir = s.dir ∧ t.out = [] ∧ t.wins = s.wins ∧
         s.Frame t) ∧
     (∀ (f : DatFlit) (code : Nat) (pd : Bool) (op : ReqOp) (q : Req), f.flips = 0 →
       k.ans = some { code := code, data := true, pd := pd } →
       x.kind = .req op q none → op.isCtl = false → op ≠ .rdFused →
       ∃ t, exec (.snoopData k.port k.id [f]) s = .next t ∧ t.txns = [{ x with snoops := [k.addFlit f] }] ∧
         t.arr = s.arr ∧ t.dir = s.dir ∧ t.out = [] ∧ t.wins = s.wins ∧ s.Frame t)) ∧
  (∀ (s : State) (x : Txn) (k : SnoopRec), State.AtRest { s with txns := [] } → s.txns = [x] → x.snoops = [k] → x.served = false →
     x.started = true → k.notice = none → k.inflight = none → k.ans = none →
     (∀ (r : Snr) (op : ReqOp) (q : Req), k.sent = true → k.port = r.port → k.id = r.id → r.flips = 0 → r.notice < 2 →
       x.kind = .req op q none → op.isCtl = false → op ≠ .rdFused →
       ∃ t, exec (.snpInflight r) s = .next t ∧ t.txns = [{ x with snoops := [{ k with inflight := some r.notice }] }] ∧
         t.arr = s.arr ∧ t.dir = s.dir ∧ t.out = [] ∧ t.wins = s.wins ∧ s.Frame t) ∧
     (k.sent = false → k.far = false → k.port < 8 → s.span.fwd = [] →
       ∃ t, exec (.sendWaitingSnoop k.port) s = .next t ∧ t.Sends (.snp k.port k.op x.line 0xF00 k.agent) ∧
         t.txns = [{ x with snoops := [{ k with sent := true, id := 0xF00 }] }] ∧ t.arr = s.arr ∧ t.dir = s.dir ∧ t.wins = s.wins))

/-- R180, R181: a report takes the agent down at once, and closes its provisional reads. R184: the end of the walk acknowledges
the report and the agent is no longer down; where no entry records the agent, nothing else changes. -/
def Obligations.AgentDownAndReclaim : Prop :=
  (∀ (s : State) (a : Nat), s.AtRest →
    ∃ t, exec (.agentDown a) s = .next t ∧ t.down = [{ agent := a, inWalk := true }] ∧ t.isDown a = true ∧
      t.prov = s.prov.filter (fun e => e.agent != a) ∧ t.acks = [] ∧ t.arr = s.arr ∧ t.dir = s.dir ∧ t.wins = s.wins ∧
      t.cfg = s.cfg ∧ t.elog = s.elog) ∧
  (∀ (s : State) (r : Report), State.AtRest { s with down := [] } → s.down = [r] → r.inWalk = true → r.silent = false →
    s.prov = [] →
    ∃ t, exec .reclaimWalkEnd s = .next t ∧ t.down = [] ∧ t.acks = [r.agent] ∧ t.cfg = s.cfg ∧ t.wins = s.wins ∧
      ((∀ e ∈ s.dir, e.records r.agent = false) → t.dir = s.dir ∧ t.arr = s.arr ∧ (r.poisoned = 0 → t.elog = s.elog)))

/-- R300 to R302: a grant round takes a REGULATE section that waits, and leaves for every resource the current capacity `D'`, the
bound `G'` = floor(9 × `D'` / 10) and the two scale factors of R302. R40, R298: an awake slice takes the new level of an urgency
input; a bound input that rises to 3 begins such a round at once, any other change touches nothing else. -/
def Obligations.RegulationRounds : Prop :=
  let round (s t : State) : Prop :=
    let u : State := { s with reg := { s.reg with cfg := s.reg.next.getD s.reg.cfg } }
    t.reg.cfg = u.reg.cfg ∧ t.reg.next = none ∧
    ∀ r < 5, (t.reg.scale.getD r {}).dNow = u.capNow r ∧ (t.reg.scale.getD r {}).gNow = 9 * u.capNow r / 10 ∧
      let p := (u.allotted r).1
      let n := (u.allotted r).2
      let g := 9 * u.capNow r / 10
      (p + n ≤ g → (t.reg.scale.getD r {}).s = 1024 ∧ (t.reg.scale.getD r {}).sp = 1024) ∧
      (p ≤ g → g < p + n → (t.reg.scale.getD r {}).s = 1024 * (g - p) / n ∧ (t.reg.scale.getD r {}).sp = 1024) ∧
      (g < p → (t.reg.scale.getD r {}).s = 0 ∧ (t.reg.scale.getD r {}).sp = 1024 * g / p)
  (∀ s : State, s.AtRest → s.prov = [] →
     s.reg.scale.length = 5 →
     ∃ t, exec .grantRound s = .next t ∧ round s t ∧
       t.arr = s.arr ∧ t.dir = s.dir ∧ t.wins = s.wins ∧ t.cfg = s.cfg ∧ t.cue = s.cue ∧ t.power = s.power) ∧
  (∀ (s : State) (i level : Nat), s.AtRest → s.prov = [] →
     ∃ t, exec (.urgChange i level) s = .next t ∧ t.reg.urgLvl = s.reg.urgLvl.set i level ∧
       t.reg.urgWire = s.reg.urgWire.set i level ∧ t.arr = s.arr ∧ t.dir = s.dir ∧
       t.wins = s.wins ∧ t.cfg = s.cfg ∧
       ((s.reg.cfg.urg.getD i (0, false)).2 = true → level = 3 → s.reg.urgLvl.getD i 0 ≠ 3 → s.reg.scale.length = 5 →
         round { s with reg := { s.reg with urgLvl := s.reg.urgLvl.set i level, urgWire := s.reg.urgWire.set i level } } t) ∧
       ((s.reg.cfg.urg.getD i (0, false)).2 = false ∨ level ≠ 3 ∨ s.reg.urgLvl.getD i 0 = 3 →
         t.reg.scale = s.reg.scale ∧ t.reg.bal = s.reg.bal ∧ t.out = [] ∧ t.elog = s.elog))

/-! ### Memory answers and credits -/

/-- R32, R130, R134: the last flit of a discarded speculative read ends the read and frees its register; a first flit of a fill
that may not allocate is kept in its register, which is then in `FILL`. R32: returned credits are added. R32, R131: the
acknowledgement of a write-back with no newer write of its sector takes the sector from the write-back buffer. R24: credits that
the hub returns are added, and with no flit waiting nothing leaves. -/
def Obligations.PortAnswers : Prop :=
  (∀ (s : State) (f : MemFlit) (r : MemReq) (m : MissReg), State.AtRest { s with mrs := [] } → s.prov = [] →
    s.mrs = [m] → s.readAt f.port f.mtag = some r → f.flips = 0 →
    (r.left = 1 → r.spec = true → r.use = .plain → m.line = addrLine r.addr → m.st = .discard →
      ∃ t, exec (.memReadData f) s = .next t ∧ t.mrs = [] ∧ t.memOut = s.memOut.erase r ∧ t.arr = s.arr ∧ t.dir = s.dir ∧
        t.wbb = s.wbb ∧ t.out = [] ∧ t.wins = s.wins ∧ s.Frame t) ∧
    (r.left = 2 → r.use = .fillLine m.line → f.sector = 0 → m.st = .miss → m.alloc = false →
      m.wantLo = true → m.wantHi = true → m.loGot = none → m.hiGot = none → s.lineOf m.line = none →
      ∃ t, exec (.memReadData f) s = .next t ∧
        t.mrs = [{ m with loGot := some (Sec.clean f.data f.poison), st := .fill }] ∧
        t.memOut = s.memOut.map (fun x => if x == r then { x with left := 1 } else x) ∧ t.arr = s.arr ∧ t.dir = s.dir ∧
        t.wbb = s.wbb ∧ t.out = [] ∧ t.wins = s.wins ∧ s.Frame t)) ∧
  (∀ (s : State) (p req wdata : Nat), s.AtRest → s.prov = [] →
    ∃ t, exec (.memCreditReturn p req wdata) s = .next t ∧
      t.mem = s.mem.modify p (fun c => { c with req := c.req + req, wdata := c.wdata + wdata }) ∧ t.memOut = s.memOut ∧
      t.out = [] ∧ t.arr = s.arr ∧ t.wbb = s.wbb ∧ t.wins = s.wins ∧ s.Frame t) ∧
  (∀ (s : State) (p tag line i : Nat) (r : MemReq), s.AtRest → s.prov = [] → i < 2 →
     s.writeAt p tag = some r → r.use = .wback line i →
     (∀ x ∈ s.memOut.erase r, x.isWb line i = false) →
     (s.wbb.map (·.line)).Nodup →
     ∃ t, exec (.wack p tag 0) s = .next t ∧ t.memOut = s.memOut.erase r ∧ t.wbSec line i = none ∧
       t.wbSec line (1 - i) = s.wbSec line (1 - i) ∧ (∀ n j, n ≠ line → t.wbSec n j = s.wbSec n j) ∧ t.arr = s.arr ∧
       t.dir = s.dir ∧ t.out = [] ∧ t.wins = s.wins ∧ s.Frame t) ∧
  (∀ (s : State) (p snp rsp dat : Nat), s.AtRest → s.prov = [] → s.heldOut = [] →
     ∃ t, exec (.fabCreditReturn p snp rsp dat) s = .next t ∧
       t.fab = s.fab.modify p (fun c => { c with oSnp := c.oSnp + snp, oRsp := c.oRsp + rsp, oDat := c.oDat + dat }) ∧
       t.out = [] ∧ t.arr = s.arr ∧ t.dir = s.dir ∧ t.wbb = s.wbb ∧ t.wins = s.wins ∧ s.Frame t)

/-! ### Walks, range commands and actions -/

/-- R147, R312, R318: a `TILE_FILL` or `PIN_LOAD` that passes its checks, and a walking action at the head of the `DUE` queue,
begin a walk; with no value in the TDC it first fetches its partition's descriptor, and it ends with the mailbox or slot still
running. -/
def Obligations.WalksBegin : Prop :=
  ∀ (s : State), s.AtRest → s.lens.queue = [] → s.xlt.tdc = List.replicate 48 none →
    s.xlt.side = [] →
    s.xlt.fetches = [] →
    let waits (part cls : Nat) (w : Walk) : Walk :=
      { w with id := s.nextId, stop := .tdcWait, wait := some (part, true, (s.pws.getD part {}).xltDesc), part := part, cls := cls }
    let fetch (part cls : Nat) : TdcFetch := { cls := cls, part := part, desc := true, addr := (s.pws.getD part {}).xltDesc }
    (∀ m : MbCmd, s.Accepts 0x05 m → 
      let part := bits (m.arg 1) 36 33
      let cls := bits (m.arg 1) 32 30
      let rl := bits (m.arg 1) 13 0
      bits (m.arg 0) 56 0 % 128 = 0 → bits (m.arg 2) 31 0 % 128 = 0 → 0 < rl → rl ≤ 8192 → (s.part part).active = true →
      bits (m.arg 0) 56 0 + bits (m.arg 1) 29 14 * bits (m.arg 2) 31 0 + rl * 128 ≤ 2 ^ 57 → (∀ p, m.window = some p → p = part) →
      ∃ t, exec (.tileFill m) s = .next t ∧ t.Sends (.csrp .ok 0) ∧ t.mbs[mbIdx m.window]? = some (MbRuns 0x05 m) ∧
        t.walks = [waits part cls
          { id := 0, src := .mailbox m.window, act := 0, va := bits (m.arg 0) 56 0, rowLines := rl,
            rows := bits (m.arg 1) 29 14 + 1, stride := bits (m.arg 2) 31 0, part := part, cls := cls }] ∧
        t.xlt.fetches = [fetch part cls] ∧ t.arr = s.arr ∧ t.dir = s.dir ∧ t.wins = s.wins ∧ t.cfg = s.cfg) ∧
    (∀ m : MbCmd, s.Accepts 0x0A m → 
      let part := bits (m.arg 1) 39 36
      let cls := bits (m.arg 1) 35 33
      let n := bits (m.arg 1) 32 0 + 1
      bits (m.arg 0) 56 0 % 128 = 0 → (s.part part).active = true → bits (m.arg 0) 56 0 + n * 128 ≤ 2 ^ 57 →
      (∀ p, m.window = some p → p = part) →
      ∃ t, exec (.pinLoad m) s = .next t ∧ t.Sends (.csrp .ok 0) ∧ t.mbs[mbIdx m.window]? = some (MbRuns 0x0A m) ∧
        t.walks = [waits part cls
          { id := 0, src := .mailbox m.window, act := 16, va := bits (m.arg 0) 56 0, rowLines := n,
            rows := 1, stride := 0, part := part, cls := cls }] ∧
        t.xlt.fetches = [fetch part cls] ∧ t.arr = s.arr ∧ t.dir = s.dir ∧ t.wins = s.wins ∧ t.cfg = s.cfg) ∧
    (∀ (i : Nat) (rest : List Nat), ∀ p ∈ [(Instr.actionTileFill, 0), (.actionFlushRange, 1), (.actionDiscardRange, 2),
      (.actionUnpin, 6)],
      s.cue.due = i :: rest → i ∉ rest → i < s.cue.slots.length → (s.slot i).act = p.2 → s.walkingNow < 8 →
      (p.2 = 0 → 0 < bits ((s.slot i).word 3) 13 0) →
      ∃ t w, exec p.1 s = .next t ∧ t.slot i = { s.slot i with st := .running, out := none } ∧ t.cue.due = rest ∧
        (∀ k, k ≠ i → t.slot k = s.slot k) ∧ t.walks = [w] ∧ w.src = .action i ∧ w.act = p.2 ∧
        w.va = bits ((s.slot i).word 2) 56 0 ∧ w.part = (s.slot i).part ∧ w.cls = bits ((s.slot i).word 0) 23 21 ∧
        (p.2 ≠ 0 → w.total = bits ((s.slot i).word 5) 32 0 + 1) ∧ w.stop = .tdcWait ∧
        t.xlt.fetches = [fetch w.part w.cls] ∧ t.arr = s.arr ∧ t.dir = s.dir ∧ t.wins = s.wins ∧ t.cfg = s.cfg)

/-- R152, R324, R379: a finished `TILE_FILL` or `PIN_LOAD` posts its status, its progress mark and its fills: `PARTIAL` after a
fault, else `ABORTED` for an append lens, `ACCESS_DENIED`, `POISON` or `DONE`. R274, R280: an action with its outcome frees its
slot, and one other than `DONE` sets `PW_STATUS` bit 1. -/
def Obligations.WalksAndActionsEnd : Prop :=
  (∀ (s : State) (win : Option Nat) (w : Walk) (b : Mailbox), State.AtRest { s with walks := [] } → s.prov = [] →
    s.mbWalk win = some w → s.walkDue w = true →
    w.fillsLines = true → w.overflow = false → w.endErr = none → s.mbs[mbIdx win]? = some b →
    let st : Status := if w.faulted then .partialSt else if w.sawAppend then .aborted else if w.denied then .accessDenied
      else if w.sawPoison then .poison else .done
    ∃ t, exec (.walkComplete win) s = .next t ∧ t.walks = s.walks.filter (fun x => x.id != w.id) ∧
      t.mbs[mbIdx win]? = some
        { b with st := 2, isErr := false, code := st.code, res := [if w.faulted then BitVec.ofNat 64 w.mark else 0, BitVec.ofNat 64 w.fills, 0, 0] } ∧
      (∀ k, k ≠ mbIdx win → t.mbs[k]? = s.mbs[k]?) ∧ t.arr = s.arr ∧ t.dir = s.dir ∧ t.wins = s.wins ∧ t.cfg = s.cfg ∧
      t.elog = s.elog) ∧
  (∀ (s : State) (i : Nat) (o : SlotOut), s.AtRest → s.prov = [] → i < s.cue.slots.length →
    (s.slot i).st = .running → (s.slot i).out = some o →
    ∃ t, exec (.actionComplete i) s = .next t ∧ t.slot i = { s.slot i with st := .free, stalled := false } ∧
      (∀ k, k ≠ i → t.slot k = s.slot k) ∧
      (o.isErr = false → o.code = 0 → t.pws = s.pws ∧ t.ctr = s.ctr) ∧
      (o.isErr = true ∨ o.code ≠ 0 → (s.slot i).part < s.pws.length → (t.pws.getD (s.slot i).part {}).status &&& 2 = 2) ∧
      t.arr = s.arr ∧ t.dir = s.dir ∧ t.wins = s.wins ∧ t.cfg = s.cfg ∧ t.mbs = s.mbs)

/-- R174, R378, R88, R91, R113: a range command of one line that the slice homes, that is in the array undead and that no agent
holds: `FLUSH_RANGE` writes its dirty sectors back and keeps it clean, `INVALIDATE_RANGE` writes them back and drops it,
`DISCARD_RANGE` drops it, `ZERO_RANGE` zeroes it, `UNPIN` writes back and drops a pinned line only. The mailbox then runs until
the completion. The balance of the slice's own group covers the access (R297). R174, R379: a range command whose write-backs are
acknowledged posts `DONE` with the lines of its range that this slice homes, and changes no data. -/
def Obligations.RangeCommands : Prop :=
  (∀ (s : State) (m : MbCmd) (c : CLine), s.AtRest → s.wbb = [] → s.prov = [] →
    arrWf s.arr = true →
     let base := bits (m.arg 0) 51 0
     let line := base / 128
     bits (m.arg 1) 52 0 = 128 → s.homed line = true → s.lineOf line = some c → c.dead = false → c.rep = false →
     (∀ x ∈ s.arr, x.line = line → x.resid = false → x = c) → s.dirAt line = none →
     (∀ p, s.selfCovers (s.selfGroup p) line = true) →
     ∀ p ∈ [(Instr.flushRange m, 1, RangeKind.flush), (.invalidateRange m, 2, .invalidate), (.discardRange m, 3, .discard),
       (.zeroRange m, 4, .zero), (.unpin m, 0x0B, .unpin)],
     s.Accepts p.2.1 m → s.rangeCheck p.2.2 m.window base 128 = .ok →
     let drops := p.2.2 = .invalidate ∨ p.2.2 = .discard ∨ (p.2.2 = .unpin ∧ s.pinnedWay c = true)
     let writes := p.2.2 = .flush ∨ p.2.2 = .invalidate ∨ (p.2.2 = .unpin ∧ s.pinnedWay c = true)
     ∃ t, exec p.1 s = .next t ∧ t.Sends (.csrp .ok 0) ∧ t.mbs[mbIdx m.window]? = some (MbRuns p.2.1 m) ∧
       t.ranges = [{ id := s.nextId, kind := p.2.2, window := m.window, lines := 1, lo := line, hi := line + 1, held := false }] ∧
       (drops → t.lineOf line = none) ∧
       (p.2.2 = .flush → t.lineOf line = some { c with lo := { c.lo with d := false }, hi := { c.hi with d := false } }) ∧
       (p.2.2 = .zero → ∀ i < 2, t.cached line i = some (0, false)) ∧
       (p.2.2 = .unpin → s.pinnedWay c = false → t.lineOf line = some c) ∧
       (∀ i < 2, (t.wbSec line i).map (fun x => (x.data, x.poison)) =
         if writes ∧ (c.sec i).d = true then some ((c.sec i).value, (c.sec i).poison) else none) ∧
       (∀ n, n ≠ line → t.lineOf n = s.lineOf n) ∧ t.dir = s.dir ∧ t.wins = s.wins ∧ t.cfg = s.cfg ∧ t.elog = s.elog) ∧
  (∀ (s : State) (win : Option Nat) (r : RangeRun) (b : Mailbox), State.AtRest { s with ranges := [] } → s.prov = [] →
     s.ranges.find? (fun x => x.window == win) = some r → s.rangeDue r = true → s.mbs[mbIdx win]? = some b →
     ∃ t, exec (.rangeOpComplete win) s = .next t ∧ t.ranges = s.ranges.filter (fun x => x.id != r.id) ∧
       t.mbs[mbIdx win]? = some { b with st := 2, isErr := false, code := 0, res := [BitVec.ofNat 64 r.lines, 0, 0, 0] } ∧
       (∀ k, k ≠ mbIdx win → t.mbs[k]? = s.mbs[k]?) ∧ t.arr = s.arr ∧ t.dir = s.dir ∧ t.wbb = s.wbb ∧ t.wins = s.wins ∧
       t.cfg = s.cfg ∧ t.elog = s.elog ∧ t.walks = s.walks)

/-! ### Actions on windows and lenses, and the lens sets -/

/-- R277: `SEAL` and `FINALIZE` at the head of the `DUE` queue act on their window as the mailbox commands do; `LENS_SWAP`
exchanges the lens sets when no rebuild runs, at once by log entry 103 (the model's choice); `SET_PERS` copies the lens into the free
slot `DST` with the new persistence, and `SRC` leaves both sets, `RETIRED` while it keeps lines and `FREE` otherwise (R125). The slot
runs, with its outcome ready (log entry 108). -/
def Obligations.WindowAndLensActions : Prop :=
  ∀ (s : State) (i : Nat) (rest : List Nat), s.AtRest → s.prov = [] → s.lens.queue = [] → s.lens.rebuild = false →
    s.cue.due = i :: rest → i ∉ rest → i < s.cue.slots.length →
    let a := s.slot i
    let w := bits (a.word 6) 5 0
    let ready : ActSlot := { a with st := .running, out := some (a.outcome 0 false 0) }
    let src := bits (a.word 7) 7 0
    let dst := bits (a.word 7) 15 8
    let pers := bits (a.word 7) 17 16
    (w < s.wins.length → (s.win w).arming = none → (s.win w).takes = true → (s.win w).part = a.part →
      bits (a.word 6) 37 6 = (s.win w).gen.toNat →
      (a.act = 3 → ∃ t, exec .actionSeal s = .next t ∧ t.win w = { s.win w with st := .sealed, cause := 2, drained := false } ∧
        t.slot i = ready ∧ t.cue.due = rest ∧ (∀ k, k ≠ i → t.slot k = s.slot k) ∧ (∀ v, v ≠ w → t.win v = s.win v) ∧
        t.arr = s.arr ∧ t.dir = s.dir) ∧
      (a.act = 4 → ∃ t, exec .actionFinalize s = .next t ∧ (t.win w).st = .sealed ∧ (t.win w).cause = 3 ∧
        (t.win w).finSlots = (s.win w).finSlots ++ [i] ∧ t.slot i = { a with st := .running, out := none } ∧ t.cue.due = rest ∧
        (∀ k, k ≠ i → t.slot k = s.slot k) ∧ (∀ v, v ≠ w → t.win v = s.win v) ∧ t.arr = s.arr ∧ t.dir = s.dir)) ∧
    (a.act = 5 → ∃ t, exec .actionLensSwap s = .next t ∧ s.SwapsTo t ∧ t.slot i = ready ∧ t.cue.due = rest ∧
      (∀ k, k ≠ i → t.slot k = s.slot k) ∧ t.arr = s.arr ∧ t.dir = s.dir ∧ t.wins = s.wins ∧ t.cfg = s.cfg) ∧
    (a.act = 7 → ∀ d, (s.lensSlot src).desc = some d → (s.lensSlot src).inAct = true → pers ≤ 2 → d.pers ≤ 2 → d.append = false →
      d.reduction = false → s.slotKind dst = .free → src < s.lens.slots.length → dst < s.lens.slots.length →
      ∃ t, exec .actionSetPers s = .next t ∧ (t.lensSlot dst).desc = some { d with slot := dst, pers := pers } ∧
        (t.lensSlot dst).inAct = true ∧ (t.lensSlot dst).inSh = (s.lensSlot src).inSh ∧ (t.lensSlot src).inAct = false ∧
        (t.lensSlot src).inSh = false ∧ t.slot i = ready ∧ t.cue.due = rest ∧ (∀ k, k ≠ i → t.slot k = s.slot k) ∧ t.arr = s.arr ∧
        t.dir = s.dir ∧ t.wins = s.wins ∧ t.cfg = s.cfg)

/-- R123, R124: `LENS_SWAP` of the management mailbox exchanges the sets, at once by log entry 103 (the model's choice), or waits for a
rebuild in progress; a swap that waited is performed at its swap point, and completes its mailbox. R121: the end of the rebuild ends
`BUSY`, and a partial prescription that waited for it posts `OK` (R361). R105: the end of a window of 65,536 lookups begins the next one,
with the counts made since by log entry 115 (the model's choice), and sets `PW_STATUS` bit 0 exactly when the hit fraction is below
`THRASH_HIT` and the replacements are above `THRASH_EVICT`. -/
def Obligations.LensSetsAndThrash : Prop :=
  (∀ (s : State) (m : MbCmd), s.AtRest → s.Accepts 0x0C m → s.prov = [] → s.lens.queue = [] →
    (s.lens.rebuild = false → ∃ t, exec (.lensSwap m) s = .next t ∧ t.Sends (.csrp .ok 0) ∧ s.SwapsTo t ∧
      t.mbs[mbIdx m.window]? = some (MbShows 0x0C m .done []) ∧ t.arr = s.arr ∧ t.dir = s.dir ∧ t.wins = s.wins ∧ t.cfg = s.cfg) ∧
    (s.lens.rebuild = true → ∃ t, exec (.lensSwap m) s = .next t ∧ t.Sends (.csrp .ok 0) ∧
      t.lens.queue = [.swap (.mailbox m.window)] ∧ t.lens.tintAct = s.lens.tintAct ∧
      t.mbs[mbIdx m.window]? = some (MbRuns 0x0C m) ∧ t.arr = s.arr ∧ t.dir = s.dir ∧ t.wins = s.wins ∧ t.cfg = s.cfg)) ∧
  (∀ (s : State) (win : Option Nat) (b : Mailbox), s.AtRest → s.prov = [] → s.lens.rebuild = false →
    s.lens.queue = [.swap (.mailbox win)] → s.mbs[mbIdx win]? = some b →
    ∃ t, exec .swapPoint s = .next t ∧ s.SwapsTo t ∧ t.lens.queue = [] ∧
      t.mbs[mbIdx win]? = some { b with st := 2, isErr := false, code := 0, res := [0, 0, 0, 0] } ∧ t.arr = s.arr ∧ t.dir = s.dir ∧
      t.wins = s.wins ∧ t.cfg = s.cfg) ∧
  (∀ s : State, s.AtRest → s.prov = [] → s.lens.rebuild = true → s.lens.queue = [] →
    ∃ t, exec .shadowRebuildComplete s = .next t ∧ t.lens.rebuild = false ∧ t.regs.editBusy = false ∧
      (∀ p, s.presc.phase = .apply → s.presc.todo = some p → p.full = false →
        t.presc.phase = .idle ∧ t.presc.valid = true ∧ t.presc.code = .ok ∧ t.presc.offset = 0) ∧
      (s.presc.todo = none → t.presc = s.presc ∧ t.meas = s.meas) ∧
      t.arr = s.arr ∧ t.dir = s.dir ∧ t.wins = s.wins ∧ t.cfg = s.cfg) ∧
  (∀ (s : State) (p : Nat), s.AtRest → p < s.pws.length → 65536 ≤ (s.lens.thrash.getD p {}).lookups →
     let n := s.lens.thrash.getD p {}
     let hot := n.hits / 64 < (s.part p).thrashHit ∧ (s.part p).thrashEvict < n.evicts / 64
     ∃ t, exec (.thrashWindowEnd p) s = .next t ∧
       t.lens.thrash = s.lens.thrash.set p { lookups := n.nextLookups, hits := n.nextHits, evicts := n.nextEvicts } ∧
       (hot → (t.pws.getD p {}).status = (s.pws.getD p {}).status ||| 1) ∧ (¬hot → t.pws = s.pws ∧ t.ctr = s.ctr) ∧
       (∀ k, k ≠ p → t.pws[k]? = s.pws[k]?) ∧ t.arr = s.arr ∧ t.dir = s.dir ∧ t.wins = s.wins ∧ t.cfg = s.cfg ∧ t.elog = s.elog)

/-- R372: a `SHADOW_EDIT` whose checks pass stands in the shadow set, and leaves the active set: the slot's staged descriptor for
an insertion, no descriptor of the slot for a removal. The rebuild begins and `EDITED` is set. That the staged `SLOT` field is
replaced by the slot that the command names is log entry 83 (the model's choice). -/
def Obligations.ShadowEditApplies : Prop :=
  ∀ (s : State) (src : Csrp) (slot : Nat), s.AtRest → src.mgmt = true → s.meas.locked = false →
    s.regs.editBusy = false → s.presc.phase = .idle → s.lens.queue = [] → s.lens.rebuild = false → slot < s.lens.slots.length →
    (∀ k d, (s.lensSlot k).desc = some d → d.slot = k) →
    (s.editCheck true slot = .ok →
      ∃ t, exec (.shadowEditInsert src slot) s = .next t ∧ t.Sends (.csrp .ok 0) ∧ (t.lensSlot slot).inSh = true ∧
        (t.lensSlot slot).desc =
          some { Desc.ofWords (s.lensSlot slot).stage0.toNat (s.lensSlot slot).stage1.toNat with slot := slot } ∧
        (∀ k, (t.lensSlot k).inAct = (s.lensSlot k).inAct) ∧ t.lens.rebuild = true ∧ t.regs.editBusy = true ∧
        t.regs.editCode = .ok ∧ t.meas.edited = true ∧ t.arr = s.arr ∧ t.dir = s.dir ∧ t.wins = s.wins ∧ t.cfg = s.cfg) ∧
    (s.editCheck false slot = .ok →
      ∃ t, exec (.shadowEditRemove src slot) s = .next t ∧ t.Sends (.csrp .ok 0) ∧ (t.lensSlot slot).inSh = false ∧
        (∀ k, (t.lensSlot k).inAct = (s.lensSlot k).inAct) ∧ t.lens.rebuild = true ∧ t.regs.editBusy = true ∧
        t.regs.editCode = .ok ∧ t.meas.edited = true ∧ t.arr = s.arr ∧ t.dir = s.dir ∧ t.wins = s.wins ∧ t.cfg = s.cfg)

/-! ### Resilver and handover -/

/-- R464 to R467: the phases of a resilver of an active partition that has nothing in the array: the drain frees its action slots that are
not free already, disables its channels and ends the command of its mailbox; the zeroing empties its ways, frees its lenses and clears
`XLT_DESC`; the release counts the epoch and sets `WITHDRAWN`. Each completes with its count. -/
def Obligations.ResilverPhases : Prop :=
  (∀ (s : State) (m : MbCmd), s.AtRest → 
    let c := m.force 0 5 4 0
    let p := bits (c.arg 0) 3 0
    s.Accepts 0x0D c → s.res = {} → (s.part p).active = true → s.presc.phase = .idle → s.prov = [] → s.cue.beats = [] →
      (∀ x ∈ s.arr, x.part ≠ p) → (∀ e ∈ s.dir, e.part ≠ p) →
    (∀ x ∈ s.wins, x.ofPart p = false) →
    ∃ t, exec (.resilverDrain m) s = .next t ∧ t.Sends (.csrp .ok 0) ∧ t.res = { active := true, part := p, running := some 1 } ∧
      t.served p = false ∧ t.mbs[16]? = some (MbRuns 0x0D c) ∧ t.meas.trans = true ∧
      (∀ b, s.mbs[p]? = some b → b.st = 1 → t.mbs[p]? = some { b with st := 2, isErr := false, code := 4, res := [0, 0, 0, 0] }) ∧
      (∀ k, (s.slot k).st ≠ .free → (s.slot k).part = p → t.slot k = {}) ∧ (∀ k, (s.slot k).st = .free → t.slot k = s.slot k) ∧ (∀ k, (s.chan k).cfg.owner = p →
        (t.chan k).cfg.en = false) ∧
      t.arr = s.arr ∧ t.dir = s.dir ∧ t.wins = s.wins ∧ t.cfg = s.cfg) ∧
  (∀ (s : State) (b : Mailbox), State.AtRest { s with res := {} } → s.drainDone = true → s.mbs[16]? = some b →
    ∃ t, exec .resilverDrainComplete s = .next t ∧ t.res = { s.res with phase := 1, running := none } ∧
      t.mbs[16]? = some { b with st := 2, isErr := false, code := 0, res := [BitVec.ofNat 64 s.res.lines, 0, 0, 0] } ∧
      t.arr = s.arr ∧ t.dir = s.dir ∧ t.wins = s.wins ∧ t.cfg = s.cfg) ∧
  (∀ (s : State) (m : MbCmd),
    let c := m.force 0 5 4 1
    State.AtRest { s with res := {} } → s.Accepts 0x0D c → s.res.active = true → s.res.part = bits (c.arg 0) 3 0 →
      s.res.phase = 1 → (s.part s.res.part).active = true →
    ∃ t, exec (.resilverZero m) s = .next t ∧ t.Sends (.csrp .ok 0) ∧ t.res = { s.res with running := some 2 } ∧
      t.mbs[16]? = some (MbRuns 0x0D c) ∧ t.arr = s.arr ∧ t.dir = s.dir ∧ t.wins = s.wins ∧ t.cfg = s.cfg) ∧
  (∀ (s : State) (b : Mailbox), State.AtRest { s with res := {} } → s.res.active = true → s.res.running = some 2 →
    s.mbs[16]? = some b → s.res.part < s.pws.length →
    ∃ t, exec .resilverZeroComplete s = .next t ∧ t.res = { s.res with phase := 2, running := none } ∧
      t.arr = s.arr.filter (fun c => !(s.part s.res.part).ways.contains c.way) ∧
      (∀ i d, (t.lensSlot i).desc = some d → d.part ≠ s.res.part) ∧ (t.pws.getD s.res.part {}).xltDesc = 0 ∧
      (t.pws.getD s.res.part {}).status = 0 ∧ t.hot.ctrs = [] ∧ t.hot.epochNo = 0 ∧ t.lens.deadDrop = [] ∧
      t.mbs[16]? = some
        { b with st := 2, isErr := false, code := 0, res := [BitVec.ofNat 64 (65536 * (s.part s.res.part).ways.length), 0, 0, 0] } ∧ t.dir = s.dir ∧ t.cfg = s.cfg) ∧
  (∀ (s : State) (m : MbCmd),
    let c := m.force 0 5 4 2
    State.AtRest { s with res := {} } → s.Accepts 0x0D c → s.res.active = true → s.res.part = bits (c.arg 0) 3 0 →
      s.res.phase = 2 → (s.part s.res.part).active = true →
    s.res.part < s.meas.epochs.length → s.meas.withdrawn.length = 16 →
    ∃ t, exec (.resilverRelease m) s = .next t ∧ t.Sends (.csrp .ok 0) ∧ t.res.active = false ∧
      t.meas.epochs.getD s.res.part 0 = s.meas.epochs.getD s.res.part 0 + 1 ∧ t.meas.withdrawn.getD s.res.part false = true ∧
      (∀ k, k ≠ s.res.part → t.meas.epochs[k]? = s.meas.epochs[k]? ∧ t.meas.withdrawn[k]? = s.meas.withdrawn[k]?) ∧
      t.mbs[16]? = some (MbShows 0x0D c .done []) ∧ t.arr = s.arr ∧ t.dir = s.dir ∧ t.wins = s.wins ∧ t.cfg = s.cfg)

/-- R70: `CLAIM` makes the bucket `INCOMING` and `RELAY` sets its map entry, to the slice's own twin only by log entry 74 (the model's
choice), and both complete at once; `RELEASE` makes a bucket with nothing in the slice `OUTGOING` with its empty crossing list written,
in the same step by log entries 73 and 123 (the model's choice), or ends a `RELAY`; its completion sets the map entry to
the peer and posts the length of the list; `COMMIT` of an empty list makes the slice the bucket's home, and of any other reads the
list. -/
def Obligations.HandoverRoles : Prop :=
  let bkt (c : MbCmd) : Nat := bits (c.arg 0) 11 2
  let peer (c : MbCmd) : Nat := bits (c.arg 0) 17 12
  let count (c : MbCmd) : Nat := bits (c.arg 0) 38 18
  let addr (c : MbCmd) : Nat := bits (c.arg 1) 51 0
  (∀ (s : State) (m : MbCmd), s.AtRest →
    let c := m.force 0 1 0 0
    s.Accepts 0x0F c → s.handCheck .claim (bkt c) (peer c) (addr c) (count c) = .ok →
    ∃ t, exec (.handoverClaim m) s = .next t ∧ t.Sends (.csrp .ok 0) ∧
      t.hand.buckets = [{ bucket := bkt c, incoming := true, peer := peer c }] ∧ t.bucketSt (bkt c) = .incoming ∧
      t.mbs[16]? = some (MbShows 0x0F c .done []) ∧ t.arr = s.arr ∧ t.dir = s.dir ∧ t.wins = s.wins ∧ t.cfg = s.cfg) ∧
  (∀ (s : State) (m : MbCmd), s.AtRest →
    let c := m.force 0 1 0 3
    s.Accepts 0x0F c → s.handCheck .relay (bkt c) (peer c) (addr c) (count c) = .ok →
    ∃ t, exec (.handoverRelay m) s = .next t ∧ t.Sends (.csrp .ok 0) ∧ t.cfg.map = s.cfg.map.set (bkt c) (peer c) ∧
      t.mbs[16]? = some (MbShows 0x0F c .done []) ∧ t.arr = s.arr ∧ t.dir = s.dir ∧ t.wins = s.wins) ∧
  (∀ (s : State) (m : MbCmd), s.AtRest →
    let c := m.force 0 1 0 1
    s.Accepts 0x0F c → s.handCheck .release (bkt c) (peer c) (addr c) (count c) = .ok → s.prov = [] →
    (∀ x ∈ s.arr, bucketOf x.line ≠ bkt c) → (∀ e ∈ s.dir, bucketOf e.line ≠ bkt c) → (∀ e ∈ s.wbb, bucketOf e.line ≠ bkt c) →
    ∃ t, exec (.handoverRelease m) s = .next t ∧ t.Sends (.csrp .ok 0) ∧
      t.hand.buckets = [
        { bucket := bkt c, incoming := false, peer := peer c, listAddr := addr c,
          relayOnly := s.bucketSt (bkt c) == .relay, phase := if s.bucketSt (bkt c) = .relay then 0 else 2 }] ∧
      t.mbs[16]? = some (MbRuns 0x0F c) ∧ t.arr = s.arr ∧ t.dir = s.dir ∧ t.wins = s.wins ∧ t.cfg = s.cfg) ∧
  (∀ (s : State) (h : Handover) (b : Mailbox), State.AtRest { s with hand := {} } → s.prov = [] → s.hand = { buckets := [h] } →
    h.incoming = false → s.releaseDue h = true →
    s.mbs[16]? = some b →
    ∃ t, exec (.handoverReleaseComplete h.bucket) s = .next t ∧ t.hand.buckets = [] ∧ t.cfg.map = s.cfg.map.set h.bucket h.peer ∧
      t.mbs[16]? = some { b with st := 2, isErr := false, code := 0, res := [BitVec.ofNat 64 h.crossing.length, 0, 0, 0] } ∧
      ((∀ x ∈ s.arr, x.rep = false) → t.arr = s.arr) ∧ t.dir = s.dir ∧ t.wins = s.wins) ∧
  (∀ (s : State) (m : MbCmd) (h : Handover), State.AtRest { s with hand := {} } → s.prov = [] → s.hand = { buckets := [h] } →
    (∀ x ∈ s.arr, x.rep = false) →
    let c := m.force 0 1 0 2
    s.Accepts 0x0F c → h.bucket = bkt c → s.handCheck .commit (bkt c) (peer c) (addr c) (count c) = .ok →
    (count c = 0 → ∃ t, exec (.handoverCommit m) s = .next t ∧ t.Sends (.csrp .ok 0) ∧ t.hand.buckets = [] ∧
      t.cfg.map = s.cfg.map.set (bkt c) s.position ∧ t.mbs[16]? = some (MbShows 0x0F c .done []) ∧ t.arr = s.arr ∧ t.dir = s.dir ∧
      t.wins = s.wins) ∧
    (0 < count c → ∃ t, exec (.handoverCommit m) s = .next t ∧ t.Sends (.csrp .ok 0) ∧
      t.hand.buckets = [{ h with phase := 1, listAddr := addr c, count := count c }] ∧ t.mbs[16]? = some (MbRuns 0x0F c) ∧
      t.arr = s.arr ∧ t.dir = s.dir ∧ t.wins = s.wins ∧ t.cfg = s.cfg))

/-! ### Translation, fault and hot-page rings -/

/-- R319: a TDC operation that passes its checks. `PRELOAD` and `PRELOAD_LOCK` of a value in the TDC complete, the second locks
it; of a value that nothing holds they fetch it. `UNLOCK` unlocks. `WRITE` and `ZERO_ENTRY` write memory and every entry of the
address and kind; `INVAL_ADDR` and `INVAL_PART` leave no entry of the value or the partition; these four wait for the TDC change
of R321. R321: a TDC change that is due completes, and with it the operation that made it. R318: a fetched sector gives the TDC
its value. That `ZERO_ENTRY` updates the entries of every partition, and the number of the register that fetches for an operation, are
log entry 39 (the model's choice). -/
def Obligations.TdcCommands : Prop :=
  (∀ (s : State) (x : TdcCmd), s.AtRest → s.prov = [] → (x.mgmt = true ∨ x.srcPart = x.part) →
     (x.mgmt = true ∨ s.lensOfPart x.part x.addr = true) → (s.part x.part).active = true → x.addr % 8 = 0 →
     s.pws.length = 16 → x.part < 16 → s.xlt.opBusy = List.replicate 16 none → s.xlt.change.length = 16 →
     s.xlt.side = [] → (s.pws.getD x.part {}).tdcBusy = false → s.xlt.locked < 32 →
     let desc := x.kind == 1
     let k : XKey := (x.part, desc, x.addr)
     let keeps (t : State) : Prop := t.Sends (.csrp .ok 0) ∧ t.arr = s.arr ∧ t.dir = s.dir ∧ t.wins = s.wins ∧ t.cfg = s.cfg
     let done (t : State) : Prop := (t.pws.getD x.part {}).tdcBusy = false ∧ (t.pws.getD x.part {}).tdcDone = true ∧
       (t.pws.getD x.part {}).tdcCode = .ok
     let waits (t : State) (code : Nat) : Prop := (t.pws.getD x.part {}).tdcBusy = true ∧ (t.pws.getD x.part {}).tdcDone = false ∧
       t.xlt.opBusy.getD x.part none = some (code, desc, x.addr)
     (∀ p ∈ [(Instr.tdcPreload x, 1, false), (.tdcPreloadLock x, 2, true)],
       (∀ i e, s.xlt.at k = some (i, e) → e.perr = false →
         ∃ t, exec p.1 s = .next t ∧ keeps t ∧ done t ∧ (t.xlt.at k).map (·.2) = some { e with lock := e.lock || p.2.2 }) ∧
       (s.xlt.at k = none → s.xlt.fetches = [] →
         ∃ t, exec p.1 s = .next t ∧ keeps t ∧ waits t p.2.1 ∧
           t.xlt.fetches = [{ cls := 8 + x.part, part := x.part, desc := desc, addr := x.addr }])) ∧
     (∃ t, exec (.tdcUnlock x) s = .next t ∧ keeps t ∧ done t ∧ ∀ e, some e ∈ t.xlt.tdc → e.key = k → e.lock = false) ∧
     (∀ p ∈ [(Instr.tdcWrite x, 4, x.data), (.tdcZeroEntry x, 5, 0)],
       ∃ t r, exec p.1 s = .next t ∧ keeps t ∧ waits t p.2.1 ∧ t.xlt.change.getD x.part false = true ∧
         (∀ e, some e ∈ t.xlt.tdc → e.desc = desc → e.addr = x.addr → e.value = p.2.2) ∧
         r ∈ t.memOut ++ t.memWait ∧ r.use = .tdcWrite x.part ∧ r.mopc = 4 ∧ r.addr = x.addr ∧ r.size = 3 ∧
         r.data = some (BitVec.ofNat 512 (p.2.2.toNat * 2 ^ (8 * (x.addr % 64))), false)) ∧
     (∀ p ∈ [(Instr.tdcInvalAddr x, 6), (.tdcInvalPart x, 7)],
       ∃ t, exec p.1 s = .next t ∧ keeps t ∧ waits t p.2 ∧ t.xlt.change.getD x.part false = true ∧
         (∀ e, some e ∈ t.xlt.tdc → if p.2 = 6 then e.key ≠ k else e.part ≠ x.part))) ∧
  (∀ (s : State) (p code : Nat) (k : Bool × Nat), s.AtRest → s.prov = [] → p < 16 → s.pws.length = 16 → s.xlt.opBusy.length = 16 →
    s.xlt.change.length = 16 → s.changeDue p = true → s.memOut = [] →
      s.xlt.opBusy.getD p none = some (code, k.1, k.2) →
    4 ≤ code →
    ∃ t, exec (.tdcChangeComplete p) s = .next t ∧ t.xlt.change.getD p false = false ∧ t.xlt.opBusy.getD p none = none ∧
      (t.pws.getD p {}).tdcBusy = false ∧ (t.pws.getD p {}).tdcDone = true ∧ (t.pws.getD p {}).tdcCode = .ok ∧
        t.xlt.tdc = s.xlt.tdc ∧
      t.arr = s.arr ∧ t.dir = s.dir ∧ t.wins = s.wins ∧ t.cfg = s.cfg) ∧
  (∀ (s : State) (f : MemFlit) (r : MemReq) (g : TdcFetch), s.AtRest → s.prov = [] →
    f.flips = 0 → f.poison = false → s.readAt f.port f.mtag = some r → r.left = 1 → r.use = .tdc g.cls → g.cls < 8 →
    s.xlt.fetchOf g.cls = some g → g.stale = false → g.lookahead = false → g.level3 = false → s.xlt.at g.key = none →
    s.xlt.opBusy.getD g.part none = none → s.xlt.tdc.length = 48 → s.xlt.tdc.any (·.isNone) = true →
    ∃ t, exec (.tdcFetchComplete f) s = .next t ∧ t.xlt.fetches = s.xlt.fetches.erase g ∧ t.memOut = s.memOut.erase r ∧
      (t.xlt.at g.key).map (·.2.value) = some (BitVec.ofNat 64 (f.data.toNat >>> (8 * (g.addr % 64)))) ∧
      (∀ k v, k ≠ g.key → s.xlt.at k = some v → t.xlt.at k = some v) ∧ t.arr = s.arr ∧ t.dir = s.dir ∧ t.wins = s.wins ∧
      t.cfg = s.cfg)

/-- R307: a write of `XLT_DESC` with `MGMT` puts bits [51:3] of the value into the register of its partition and invalidates every
TDC entry of the partition, whatever the register held; one without `MGMT` is refused with `PARTITION_ACCESS` and leaves the
register. -/
def Obligations.XltDescriptorWrites : Prop :=
  ∀ (s : State) (src : Csrp) (p : Nat) (v : Word), s.AtRest →
    (src.mgmt = true → p < s.pws.length → (s.part p).active = true →
      ∃ t, exec (.xltDescWrite src p v) s = .next t ∧ t.Sends (.csrp .ok 0) ∧ (t.pws.getD p {}).xltDesc = bits v.toNat 51 3 * 8 ∧
        (∀ e, some e ∈ t.xlt.tdc → e.part ≠ p) ∧ (∀ e ∈ t.xlt.side, e.part ≠ p) ∧ (∀ k, k ≠ p → t.pws[k]? = s.pws[k]?) ∧
        t.arr = s.arr ∧ t.dir = s.dir ∧ t.wins = s.wins ∧ t.cfg = s.cfg) ∧
    (src.mgmt = false →
      ∃ t, exec (.xltDescWrite src p v) s = .next t ∧ t.out = [.csrp .partitionAccess 0] ∧ t.pws = s.pws ∧ t.xlt = s.xlt ∧
        t.arr = s.arr ∧ t.dir = s.dir ∧ t.wins = s.wins ∧ t.cfg = s.cfg)

/-- R326: `FQ_CONS` takes an index that does not overfill the ring, and keeps the old one otherwise. R381: while the ring is
enabled a write of `FQ_BASE` or `FQ_CTL` is answered with `BUSY`, and base and size stay; `FQ_EN` takes effect in any case (log
entry 142). R327: the oldest staged record goes to its place in the ring. R328: past `FQ_HOLD` a stalled walk
ends with `FQ_OVERFLOW`. -/
def Obligations.FaultRing : Prop :=
  (∀ (s : State) (src : Csrp) (v : Word), s.AtRest → src.mgmt = true →
    (∃ t, exec (.fqConsWrite src v) s = .next t ∧ t.Sends (.csrp .ok 0) ∧
      t.xlt = { s.xlt with fqCons := if (s.xlt.fqProd + 65536 - bits v.toNat 15 0) % 65536 ≤ 2 ^ s.xlt.fqLog then bits v.toNat 15 0
        else s.xlt.fqCons } ∧ t.arr = s.arr ∧ t.wins = s.wins ∧ t.cfg = s.cfg) ∧
    (∃ t, exec (.fqRingConfigWrite src false v) s = .next t ∧ t.Sends (.csrp (if s.xlt.fqEn then .busy else .ok) 0) ∧
      t.xlt = (if s.xlt.fqEn then s.xlt else { s.xlt with fqBase := bits v.toNat 51 0 }) ∧ t.arr = s.arr ∧ t.wins = s.wins) ∧
    (∃ t, exec (.fqRingConfigWrite src true v) s = .next t ∧ t.Sends (.csrp (if s.xlt.fqEn then .busy else .ok) 0) ∧
      t.xlt = { s.xlt with fqLog := if s.xlt.fqEn then s.xlt.fqLog else bits v.toNat 3 0, fqEn := bit v.toNat 4 } ∧ t.arr = s.arr ∧
      t.wins = s.wins)) ∧
  (∀ (s : State) (f : FaultRec) (rest : List FaultRec), s.AtRest → s.prov = [] → s.xlt.staged = f :: rest → s.fqRoom = true →
    ∃ t r, exec .faultRingWrite s = .next t ∧ t.xlt.staged = rest ∧ t.xlt.fqProd = (s.xlt.fqProd + 1) % 65536 ∧
      r ∈ t.memOut ++ t.memWait ∧ r.mopc = 4 ∧ r.size = 5 ∧ r.addr = s.xlt.fqBase + 32 * (s.xlt.fqProd % 2 ^ s.xlt.fqLog) ∧
      t.arr = s.arr ∧ t.dir = s.dir ∧ t.wins = s.wins ∧ t.cfg = s.cfg) ∧
  (∀ (s : State) (w : Walk), State.AtRest { s with walks := [] } → s.prov = [] → s.walks = [w] → w.stop = .stalled →
    ∃ t, exec (.fqOvf w.cls) s = .next t ∧ t.walks = [{ w with stop := .ended, overflow := true, flt := none }] ∧
      t.elog = s.elog.place { source := 0x013, part := w.part, detail := w.mark } ∧ t.arr = s.arr ∧ t.dir = s.dir ∧
        t.wins = s.wins ∧
      t.cfg = s.cfg)

/-- R330: a write of `HOT_CTL` or `HOT_BASE` takes its fields, a threshold of 0 keeps the old one, and a new base or mode clears
every counter. R333: an epoch halves every counter and clears the notified bits below the threshold. -/
def Obligations.HotPageCounting : Prop :=
  (∀ (s : State) (src : Csrp) (v : Word), s.AtRest → src.mgmt = true →
    let n := v.toNat
    (let h := { s.hot with en := bit n 0, mode := bits n 1 1, thresh := if bits n 17 2 = 0 then s.hot.thresh else bits n 17 2 }
     ∃ t, exec (.hotConfigWrite src true v) s = .next t ∧ t.Sends (.csrp .ok 0) ∧
      t.hot = (if bits n 1 1 = s.hot.mode then h else { h with ctrs := [] }) ∧ t.arr = s.arr ∧ t.wins = s.wins ∧ t.cfg = s.cfg) ∧
    (∃ t, exec (.hotConfigWrite src false v) s = .next t ∧ t.Sends (.csrp .ok 0) ∧
      t.hot = { s.hot with base := bits n 15 0, ctrs := if bits n 15 0 = s.hot.base then s.hot.ctrs else [] } ∧ t.arr = s.arr ∧
      t.wins = s.wins ∧ t.cfg = s.cfg)) ∧
  (∀ s : State, s.AtRest → s.hot.epoch ≠ 0 →
    ∃ t, exec .hotEpoch s = .next t ∧ t.hot.epochNo = (s.hot.epochNo + 1) % 65536 ∧
      (∀ j n b, (j, n, b) ∈ t.hot.ctrs ↔ ∃ m c, (j, m, c) ∈ s.hot.ctrs ∧ n = m / 2 ∧ b = (c && s.hot.thresh ≤ m / 2) ∧
        (n ≠ 0 ∨ b = true)) ∧
      t.hot.base = s.hot.base ∧ t.hot.thresh = s.hot.thresh ∧ t.arr = s.arr ∧ t.dir = s.dir ∧ t.wins = s.wins ∧ t.cfg = s.cfg)

/-! ### Prescriptions and CONFIG -/

/-- R353, R356, R358, R360: `GO` begins the fetch, or is refused with `BUSY` while a load runs; the outcome of the checks posts
the first failure with its offset and changes nothing in force, leaves a full prescription to be applied, or puts a partial one
without lens sets in force with `OK`; a full prescription applied is in force, posts `OK`, and the slice enters `SERVICE` with its
credits granted. -/
def Obligations.PrescriptionLoads : Prop :=
  (∀ (s : State) (src : Csrp), s.AtRest → src.mgmt = true →
    (s.presc.phase = .idle → 0 < s.presc.len →
      ∃ t r, exec (.prescGo src) s = .next t ∧ t.Sends (.csrp .ok 0) ∧ t.presc.phase = .fetch ∧ t.presc.valid = false ∧
        t.meas.trans = true ∧ r ∈ t.memOut ++ t.memWait ∧ r.mopc = 2 ∧ (∃ off, r.use = .presc off) ∧ t.arr = s.arr ∧
          t.wins = s.wins ∧
        t.cfg = s.cfg) ∧
    (s.presc.phase ≠ .idle →
      ∃ t, exec (.prescGo src) s = .next t ∧ t.Sends (.csrp .busy 0) ∧ t.presc = s.presc ∧ t.meas = s.meas ∧ t.memOut = s.memOut ∧
        t.arr = s.arr ∧ t.wins = s.wins ∧ t.cfg = s.cfg)) ∧
  (∀ (s : State) (e : Err) (off : Nat), s.Still → s.power.state = .service ∨ s.power.state = .config → s.prov = [] →
    s.presc.phase = .check → s.prescCheck s.presc.bytes = .error (e, off) →
    ∃ t, exec .prescOutcome s = .next t ∧ t.presc.phase = .idle ∧ t.presc.valid = true ∧ t.presc.code = e ∧ t.presc.offset = off ∧
      t.elog = s.elog.place { source := 0x016, addr := e.code + off * 2 ^ 16, detail := uAt s.presc.bytes 24 8 } ∧
      t.arr = s.arr ∧ t.dir = s.dir ∧ t.wins = s.wins ∧ t.cfg = s.cfg ∧ t.reg.cfg = s.reg.cfg ∧ t.cue = s.cue) ∧
  (∀ (s : State) (p : Presc), s.Still → s.power.state = .service ∨ s.power.state = .config → s.prov = [] → s.presc.phase = .check →
    s.prescCheck s.presc.bytes = .ok p →
    ∃ t, exec .prescOutcome s = .next t ∧
      (p.full = true → t.presc = { s.presc with phase := .apply, todo := some p } ∧ t.arr = s.arr ∧ t.dir = s.dir ∧
        t.wins = s.wins ∧
        t.cfg = s.cfg ∧ t.cue = s.cue) ∧
      (p.full = false → p.lens = none → p.tint = none → t.presc.phase = .idle ∧ t.presc.valid = true ∧ t.presc.code = .ok ∧
        t.presc.offset = 0 ∧
        t.reg.cfg = s.reg.cfg ∧ (∀ r, p.reg = some r → t.reg.next = some r) ∧
        (p.hasCue = true → t.cue.chans.map (·.cfg) = (List.range s.cue.chans.length).map (fun i => p.chans.getD i {}) ∧
          t.cue.ranges = p.ranges) ∧
        t.arr = s.arr ∧ t.dir = s.dir ∧ t.wins = s.wins ∧ t.cfg = s.cfg)) ∧
  (∀ (s : State) (p : Presc), s.Still → s.power.state = .config → s.prov = [] → s.presc.phase = .apply → s.presc.todo = some p →
    p.full = true → s.lens.queue = [] →
    ∃ t, exec .fullPrescApplyComplete s = .next t ∧ t.cfg = p.cfg ∧ t.power.state = .service ∧ t.presc.phase = .idle ∧
      t.presc.valid = true ∧ t.presc.code = .ok ∧ t.presc.cfgReq = false ∧
      t.fab = s.fab.map (fun c => { c with req := 48, dat := 64, snr := 64, keptReq := 0, keptDat := 0 }) ∧
      (∀ x ∈ t.wins, x.st ≠ .collected) ∧ t.dir = s.dir ∧ t.mbs = s.mbs)

/-- R359: `CFG_REQ` = 1 begins the drain for `CONFIG`, or is refused with `BUSY`; the drain's end enters `CONFIG`; `CFG_REQ` = 0
there returns to `SERVICE` with the credits granted. In `CONFIG` a `CFG_REQ` = 1 only sets the field (log entry 64). -/
def Obligations.ConfigRequests : Prop :=
  (∀ (s : State) (src : Csrp), s.AtRest → src.mgmt = true →
    (s.cfgRefused = false → s.prov = [] → s.dir = [] → (∀ c ∈ s.arr, c.anyDirty = false) →
      ∃ t, exec (.cfgReq src) s = .next t ∧ t.Sends (.csrp .ok 0) ∧ t.power.cfgDrain = true ∧ t.presc.cfgReq = true ∧
        t.power.state = .service ∧ t.arr = s.arr ∧ t.dir = s.dir ∧ t.wins = s.wins ∧ t.cfg = s.cfg) ∧
    (s.cfgRefused = true →
      ∃ t, exec (.cfgReq src) s = .next t ∧ t.Sends (.csrp .busy 0) ∧ t.power.cfgDrain = false ∧ t.presc = s.presc ∧
        t.power.state = .service ∧ t.arr = s.arr ∧ t.dir = s.dir ∧ t.wins = s.wins ∧ t.cfg = s.cfg)) ∧
  (∀ (s : State) (src : Csrp), s.Still → s.power.state = .config → src.mgmt = true →
    ∃ t, exec (.cfgReq src) s = .next t ∧ t.Sends (.csrp .ok 0) ∧ t.presc = { s.presc with cfgReq := true } ∧
      t.power.state = .config ∧ t.power.cfgDrain = false ∧ t.arr = s.arr ∧ t.dir = s.dir ∧ t.wins = s.wins ∧ t.cfg = s.cfg) ∧
  (∀ s : State, s.fclkRuns = true → s.cfgDrained = true →
    ∃ t, exec .configDrainComplete s = .next t ∧ t.power.state = .config ∧ t.power.cfgDrain = false ∧ t.presc = s.presc ∧
      t.arr = s.arr ∧ t.dir = s.dir ∧ t.wins = s.wins ∧ t.cfg = s.cfg) ∧
  (∀ (s : State) (src : Csrp), s.Still → src.mgmt = true → s.power.state = .config →
    s.presc.cfgReq = true → s.cfg.inForce = true → s.presc.phase = .idle →
    ∃ t, exec (.cfgReqClear src) s = .next t ∧ t.Sends (.csrp .ok 0) ∧ t.power.state = .service ∧ t.presc.cfgReq = false ∧
      t.fab = s.fab.map (fun c => { c with req := 48, dat := 64, snr := 64, keptReq := 0, keptDat := 0 }) ∧
      t.arr = s.arr ∧ t.dir = s.dir ∧ t.wins = s.wins ∧ t.cfg = s.cfg)

/-! ### Registers -/

/-- R42, R366: without `MGMT` a write of a management register is answered with `PARTITION_ACCESS` and changes none. R366, R369,
R370, R371: a management write of `STATUS` clears the bits it has set, `SPEC_CTL` takes its low 16 bits, and a write of an offset
that names no register is answered with `FIELD_RANGE` and changes nothing. R41: outside reset a read of the always-on blocks is
answered at once and wakes nothing; any other read waits while the slice sleeps, and wakes it. -/
def Obligations.RegisterAccess : Prop :=
  (∀ (s : State) (src : Csrp) (p n : Nat) (b : Bool) (v : Word), s.AtRest → src.mgmt = false →
     ∀ c ∈ [Instr.xltDescWrite src p v, .fqConsWrite src v, .fqRingConfigWrite src b v, .hotConfigWrite src b v,
       .pkgIdentWrite src v,
       .prescGo src, .cfgReq src, .cfgReqClear src, .shadowEditInsert src n, .shadowEditRemove src n, .measLock src,
         .elogClear src n,
       .testReq src, .testExit src],
     ∃ t, exec c s = .next t ∧ t.out = [.csrp .partitionAccess 0] ∧ t.regs = s.regs ∧ t.xlt = s.xlt ∧ t.hot = s.hot ∧
       t.presc = s.presc ∧ t.meas = s.meas ∧ t.elog = s.elog ∧ t.cfg = s.cfg ∧ t.pws = s.pws ∧ t.mbs = s.mbs ∧ t.arr = s.arr ∧
       t.dir = s.dir ∧ t.wins = s.wins ∧ t.power.state = .service ∧ t.power.cfgDrain = false) ∧
  (∀ (s : State) (src : Csrp) (v : Word), s.AtRest → src.mgmt = true →
    (∃ t, exec (.registerWrite src 0x18 v) s = .next t ∧ t.Sends (.csrp .ok 0) ∧
      t.regs = { s.regs with status := s.regs.status &&& ~~~(BitVec.ofNat 4 v.toNat) } ∧ t.arr = s.arr ∧ t.wins = s.wins ∧
      t.cfg = s.cfg ∧ t.pws = s.pws) ∧
    (∃ t, exec (.registerWrite src 0x108 v) s = .next t ∧ t.Sends (.csrp .ok 0) ∧
      t.regs = { s.regs with specCtl := BitVec.ofNat 16 v.toNat } ∧ t.arr = s.arr ∧ t.wins = s.wins ∧ t.cfg = s.cfg ∧
        t.pws = s.pws) ∧
    (∃ t, exec (.registerWrite src 0x20 v) s = .next t ∧ t.Sends (.csrp .fieldRange 0) ∧ t.regs = s.regs ∧ t.arr = s.arr ∧
      t.wins = s.wins ∧ t.cfg = s.cfg ∧ t.pws = s.pws)) ∧
  (∀ (s : State) (src : Csrp) (o : Nat), s.power.rstLow = false → s.bad = [] →
    (alwaysOn o = true →
      ∃ t, exec (.csrpReadInSleep src o) s = .next t ∧ t.out = [.csrp (s.fresh0.csrpRead src o).1 (s.fresh0.csrpRead src o).2] ∧
        t.power = s.power ∧ t.regs = s.regs ∧ t.arr = s.arr ∧ t.wins = s.wins ∧ t.cfg = s.cfg) ∧
    (alwaysOn o = false → s.asleep = true → s.power.sleepPh = .none →
      ∃ t, exec (.csrpReadInSleep src o) s = .next t ∧ t.out = [] ∧
        t.power.held = s.power.held ++ [(.csrpReadInSleep src o, s.power.heldAge)] ∧
        t.power.wakeDue = true ∧ t.power.state = s.power.state ∧ t.regs = s.regs ∧ t.arr = s.arr ∧ t.wins = s.wins ∧ t.cfg = s.cfg))

/-- R45: `PKG_IDENT` until the lock. R367, R474: `MEAS_LOCK`, whose first write counts in `MEAS_GEN`. R382, R442: the clearing of the
`VALID` bit of a log entry. -/
def Obligations.IdentityAndLogs : Prop :=
  ∀ (s : State) (src : Csrp), s.AtRest → src.mgmt = true →
    (∀ v : Word, ∃ t, exec (.pkgIdentWrite src v) s = .next t ∧ t.Sends (.csrp (if s.meas.locked then .locked else .ok) 0) ∧
      t.regs = (if s.meas.locked then s.regs else { s.regs with pkgIdent := bits v.toNat 4 0, pkgSet := true }) ∧ t.meas = s.meas ∧
      t.arr = s.arr ∧ t.wins = s.wins ∧ t.cfg = s.cfg) ∧
    (∃ t, exec (.measLock src) s = .next t ∧ t.Sends (.csrp .ok 0) ∧ t.meas.locked = true ∧
      t.meas.gen = (if s.meas.locked then s.meas.gen else (s.meas.gen + 1) % 65536) ∧ t.meas.cur = s.meas.cur ∧ t.regs = s.regs ∧
      t.arr = s.arr ∧ t.wins = s.wins ∧ t.cfg = s.cfg) ∧
    (∀ i, ∃ t, exec (.elogClear src i) s = .next t ∧ t.Sends (.csrp .ok 0) ∧
      t.elog = { s.elog with ents := s.elog.ents.modify i fun e => { e with valid := false } } ∧ t.regs = s.regs ∧ t.arr = s.arr ∧
      t.wins = s.wins ∧ t.cfg = s.cfg)

/-- R367: a write of 1 to `MEAS_LOCK` sets the measurement lock, and a cold reset clears it; no other command does. While it is
set, no command but a cold reset changes `PKG_IDENT`, and a write of an RWL field is answered with `LOCKED` and changes none of
them. -/
def Obligations.MeasLockHolds : Prop :=
  (∀ (s : State) (src : Csrp), s.Still → s.asleep = false → src.mgmt = true →
    ∃ t, exec (.measLock src) s = .next t ∧ t.Sends (.csrp .ok 0) ∧ t.meas.locked = true) ∧
  (∀ s : State, ∃ t, exec .coldReset s = .next t ∧ t.meas.locked = false) ∧
  (∀ (c : Instr) (s t : State), s.meas.locked = true → c ≠ .coldReset → exec c s = .next t →
    t.meas.locked = true ∧ t.regs.pkgIdent = s.regs.pkgIdent ∧ t.regs.pkgSet = s.regs.pkgSet) ∧
  (∀ (s : State) (src : Csrp) (v : Word) (k : Nat), s.Still → s.meas.locked = true → s.asleep = false →
    src.mgmt = true →
    ∀ c ∈ [Instr.pkgIdentWrite src v, .shadowEditInsert src k, .shadowEditRemove src k, .testReq src],
      ∃ t, exec c s = .next t ∧ t.out = [.csrp .locked 0] ∧ t.regs = s.regs ∧ t.meas = s.meas ∧ t.power.state = s.power.state ∧
        t.arr = s.arr ∧ t.wins = s.wins ∧ t.cfg = s.cfg) ∧
  (∀ (s : State) (src : Csrp) (v : Word) (i r : Nat), s.Still → s.meas.locked = true → s.asleep = false →
    src.mgmt = true → s.Settled → (∀ l ∈ s.lens.slots, l.ghost = false) → i < 256 → r < 2 → s.stagedSlot i = true →
      ∃ t, exec (.registerWrite src (0x2000 + 32 * i + 8 * r) v) s = .next t ∧ t.out = [.csrp .locked 0] ∧
        t.lens.slots = s.lens.slots ∧ t.regs = s.regs ∧ t.arr = s.arr ∧ t.wins = s.wins ∧ t.cfg = s.cfg)

/-! ### Scrubbing, errors, power and sleep -/

/-- R450 to R452: a scrub visit with nothing to correct reads its set and goes to the next one, in `SERVICE` and `CONFIG`; a
sleeping slice adds it to its deficit, and a deficit of 4,096 wakes it. R447: a clean configuration word changes nothing, and a
corrected one is logged. That a forced visit in `SLEEP` counts as any other is log entry 94, and that the wake finds the deficit at
4,096 is log entry 6 (the model's choices). -/
def Obligations.ScrubVisits : Prop :=
  (∀ s : State, s.Still →
    ∀ c ∈ [Instr.scrubVisit, .scrubForce],
    (s.power.state = .service ∨ s.power.state = .config →
      ∃ t, exec c s = .next t ∧
        t.power = { s.power with scrubNext := (s.power.scrubNext + 1) % 65536, scrubDef := s.power.scrubDef - 1 } ∧
        t.arr = s.arr ∧ t.dir = s.dir ∧ t.elog = s.elog ∧ t.wins = s.wins ∧ t.cfg = s.cfg) ∧
    (s.power.state = .sleep →
      ∃ t, exec c s = .next t ∧ t.power = { s.power with scrubDef := min 4096 (s.power.scrubDef + 1) } ∧ t.arr = s.arr ∧
        t.dir = s.dir ∧
        t.elog = s.elog ∧ t.wins = s.wins ∧ t.cfg = s.cfg)) ∧
  (∀ s : State, s.Still → s.power.state = .sleep →
    ∃ t, exec .scrubDeficitWake s = .next t ∧
      t.power = { s.power with scrubDef := 4096, wakeDue := true, scrubWake := !s.power.wakeDue && !s.power.wakeReq } ∧ t.arr = s.arr ∧
      t.dir = s.dir ∧ t.wins = s.wins ∧ t.cfg = s.cfg) ∧
  (∀ (s : State) (region : Nat), s.Still → s.power.state = .service ∨ s.power.state = .config →
    (∃ t, exec (.configWordCheck region 0) s = .next t ∧ t.elog = s.elog ∧ t.power = s.power ∧ t.arr = s.arr ∧ t.dir = s.dir ∧
      t.wins = s.wins ∧ t.cfg = s.cfg) ∧
    (∃ t, exec (.configWordCheck region 1) s = .next t ∧
      t.elog = s.elog.place { source := 0x018, detail := region % 256 + (Config.syndrome s.fresh).toNat * 256 } ∧
        t.power = s.power ∧
      t.arr = s.arr ∧ t.dir = s.dir ∧ t.wins = s.wins ∧ t.cfg = s.cfg))

/-- R420, R447, R459: a lost lock and an uncorrectable configuration word raise `FATAL`: the slice enters `RECOVERY`, every
request that waited is completed with `ABORTED`, no transaction goes on, and a load in progress has no outcome. -/
def Obligations.FatalEntersRecovery : Prop :=
  ∀ (s : State) (region flips : Nat), s.power.rstLow = false → s.asleep = false → s.power.relock = false →
    s.power.state ≠ .recovery →
    s.power.state ≠ .off → s.power.state ≠ .init → s.test.inject = none → s.upsets = [] → s.bad = [] → 2 ≤ flips →
      s.power.held = [] →
    ∀ c ∈ [Instr.lockLoss, .configWordCheck region flips],
    ∃ t, exec c s = .next t ∧ t.power.state = .recovery ∧ t.elog.fatal = true ∧ t.waiting = [] ∧ t.txns = [] ∧ t.prov = [] ∧
      t.folds = [] ∧ t.cue.beats = [] ∧ t.presc.phase = .idle ∧
      (∀ w ∈ s.waiting, w.tag = none → t.Sends (.rsp w.q.port w.q.txid .aborted 0 false false)) ∧ t.arr = s.arr ∧ t.dir = s.dir ∧
      t.cfg = s.cfg ∧ t.mbs = s.mbs

/-- R431, R432, R434, R471: an estimate is formed and added to the power window; under a cap at OP0 the duty falls by one when the
estimate is above the cap and the duty above 2, and without a cap or at another point it is 8; a slice at rest shows its fixed
estimate and keeps its duty. R54: in reset and in `INIT` no estimate is formed. The end of a window shows its mean. That the cap and the
activity that no command carries come with the command is log entries 105 and 141, and the width of the sum log entry 50 (the model's
choices). R417, R419: a new operating
point begins a relock, waits when it comes within 50 us of the last one, or is recorded by a slice at rest; the relock's end brings
it into force with its `PWRC_ACK`. That a change in `INIT` or in a relock waits is log entry 93 (the model's choice). -/
def Obligations.PowerAndOperatingPoints : Prop :=
  (∀ (s : State) (activity : List Nat) (cap : Nat), s.drives = true → s.bad = [] →
    ∃ t, exec (.powerEstimate activity cap) s = .next t ∧ t.power.est = s.estimate activity ∧ t.power.cap = cap ∧
      t.power.winSum = s.power.winSum + s.estimate activity ∧ t.power.winCnt = s.power.winCnt + 1 ∧ t.power.state = s.power.state ∧
      (s.asleep = true → t.power.est = (if s.power.state = .sleep then 922 else 51) ∧ t.power.duty = s.power.duty) ∧
      (s.power.relock = true → t.power.duty = s.power.duty) ∧
      (s.asleep = false → s.power.relock = false →
        (cap = 0 ∨ s.power.op ≠ 0 → t.power.duty = 8) ∧
        (cap ≠ 0 → s.power.op = 0 → cap * 16 < s.estimate activity → 2 < s.power.duty → t.power.duty = s.power.duty - 1)) ∧
      t.arr = s.arr ∧ t.dir = s.dir ∧ t.wins = s.wins ∧ t.cfg = s.cfg ∧ t.elog = s.elog) ∧
  (∀ (s : State) (activity : List Nat) (cap : Nat), s.drives = false →
    ∃ t, exec (.powerEstimate activity cap) s = .next t ∧ t.power = s.power ∧ t.arr = s.arr ∧ t.dir = s.dir ∧ t.wins = s.wins ∧
      t.cfg = s.cfg ∧ t.elog = s.elog) ∧
  (∀ s : State, 0 < s.power.winCnt →
    ∃ t, exec .powerWindow s = .next t ∧ t.power = { s.power with winSum := 0, winCnt := 0 } ∧
      t.pws = s.pws.map (fun w => { w with pwrView := 1024 * (s.power.winSum / (1024 * s.power.winCnt)) }) ∧ t.arr = s.arr ∧
      t.dir = s.dir ∧ t.wins = s.wins ∧ t.cfg = s.cfg) ∧
  (∀ (s : State) (op : Nat), s.power.rstLow = false → op < 6 → op ≠ s.power.op →
    (s.asleep = false → s.power.state ≠ .init → s.power.relock = false → 2500 ≤ s.power.opAge →
      ∃ t, exec (.opChange op) s = .next t ∧
        t.power = { s.power with opWire := op, opLate := false, relock := true, nextOp := some op, opAge := 0 } ∧ t.out = [] ∧
        t.arr = s.arr ∧ t.dir = s.dir ∧ t.wins = s.wins ∧ t.cfg = s.cfg) ∧
    (s.asleep = false → s.power.state = .init ∨ s.power.relock = true ∨ s.power.opAge < 2500 →
      ∃ t, exec (.opChange op) s = .next t ∧ t.power = { s.power with opWire := op, opLate := true } ∧ t.out = [] ∧
        t.arr = s.arr ∧ t.dir = s.dir ∧ t.wins = s.wins ∧ t.cfg = s.cfg) ∧
    (s.asleep = true →
      ∃ t, exec (.opChange op) s = .next t ∧ t.power = { s.power with opWire := op, nextOp := some op } ∧ t.out = [] ∧
        t.arr = s.arr ∧ t.dir = s.dir ∧ t.wins = s.wins ∧ t.cfg = s.cfg)) ∧
  (∀ (s : State) (op : Nat), State.Still { s with power := { s.power with relock := false } } → s.power.relock = true →
    s.power.nextOp = some op → s.power.opLate = false → s.reg.owed = false → s.prov = [] → s.heldOut = [] →
    (∀ x ∈ s.cue.chans, x.kept = none) →
    ∃ t, exec .relockComplete s = .next t ∧ t.power = { s.power with relock := false, op := op, nextOp := none } ∧
      t.out = [.pwrcAck] ∧ t.cue = s.cue ∧ t.arr = s.arr ∧ t.dir = s.dir ∧ t.wins = s.wins ∧ t.cfg = s.cfg)

/-- R422 to R424: a slice that nothing holds awake enters `SLEEP`, or begins the drain for `OFF` when `OFF_EN` is set; the drain's
end commits it to `OFF`; the entry ends with the slice at rest, or on its way out when a wake event came. R427: the fall of
`PWRC_SLEEP` wakes a resting slice. -/
def Obligations.SleepIsEntered : Prop :=
  (∀ s : State, s.Still → s.sleepDue = true →
    (s.cfg.power.offEn = false →
      ∃ t, exec .sleepEntry s = .next t ∧ t.power.state = .sleep ∧ t.power.sleepPh = .committed ∧ t.arr = s.arr ∧ t.dir = s.dir ∧
        t.wins = s.wins ∧ t.cfg = s.cfg ∧ t.cue = s.cue) ∧
    (s.cfg.power.offEn = true → s.arr = [] → s.dir = [] →
      ∃ t, exec .sleepEntry s = .next t ∧ t.power.state = .service ∧ t.power.sleepPh = .offDrain ∧ t.arr = s.arr ∧ t.dir = s.dir ∧
        t.wins = s.wins ∧ t.cfg = s.cfg)) ∧
  (∀ s : State, s.fclkRuns = true → s.offDrained = true →
    ∃ t, exec .offDrainComplete s = .next t ∧ t.power.state = .off ∧ t.power.sleepPh = .committed ∧
      t.power.rstLow = s.power.rstLow ∧
      t.arr = s.arr ∧ t.dir = s.dir ∧ t.wins = s.wins ∧ t.cfg = s.cfg) ∧
  (∀ s : State, s.power.sleepPh = .committed →
    ∃ t, exec .sleepEntryComplete s = .next t ∧
      t.power = { s.power with sleepPh := .none, wakeDue := s.power.wakeReq, wakeReq := false } ∧ t.arr = s.arr ∧ t.dir = s.dir ∧
      t.wins = s.wins ∧ t.cfg = s.cfg) ∧
  (∀ (s : State) (high : Bool), ∃ t, exec (.pwrcSleepChange high) s = .next t ∧ t.power.sleepOk = high ∧
    (s.power.sleepOk = true → high = false → s.asleep = true → s.power.sleepPh = .none → t.power.wakeDue = true) ∧
    (high = true → t.power = { s.power with sleepOk := true }) ∧ t.arr = s.arr ∧ t.dir = s.dir ∧ t.wins = s.wins ∧ t.cfg = s.cfg)

/-- R40, R425, R426, R428, R429: a wake from `SLEEP` enters `SERVICE` with the array and the directory as they were and the
urgency levels on the wires; a wake from `OFF` enters it with the array, the directory, the TDC, the counters, the histograms, the
lenses' line counts and the dead-drop record cleared, and every append ring empty with its `TAIL_BLK` at `HEAD_BLK`. R415:
`SPAN_WAKE_I` wakes a resting slice of a split package, and no other. -/
def Obligations.Wakes : Prop :=
  (∀ s : State, s.Still → s.prov = [] → s.power.wakeDue = true → s.elog.fatal = false →
    (∀ x ∈ s.cue.chans, x.kept = none) →
    (s.power.state = .sleep →
      ∃ t, exec .wakeComplete s = .next t ∧ t.power.state = .service ∧ t.power.wakeDue = false ∧ t.power.idle = 0 ∧
        t.reg.urgLvl = s.reg.urgWire ∧ (∀ op, s.power.nextOp = some op → t.power.op = op ∧ t.Sends .pwrcAck) ∧
        (s.power.nextOp = none → t.power.op = s.power.op) ∧ t.arr = s.arr ∧ t.dir = s.dir ∧ t.wins = s.wins ∧ t.cfg = s.cfg ∧
        t.xlt = s.xlt ∧ t.cue = s.cue) ∧
    (s.power.state = .off →
      ∃ t, exec .offWakeComplete s = .next t ∧ t.power.state = .service ∧ t.power.wakeDue = false ∧ t.arr = [] ∧ t.dir = [] ∧
        t.wbb = [] ∧ t.xlt.tdc = List.replicate 48 none ∧ t.xlt.side = [] ∧ t.hist = List.replicate 64 0 ∧ t.hot.ctrs = [] ∧
        t.ctr = List.replicate 48 0 ∧
        (∀ i, t.lineCount i = 0) ∧ t.lens.deadDrop = [] ∧
        (∀ i d, (t.lensSlot i).desc = some d → d.append = true →
          (t.lensSlot i).tail = (s.lensSlot i).head ∧ (t.lensSlot i).head = (s.lensSlot i).head ∧ (t.lensSlot i).stopped = false) ∧
        t.hot.epochNo = 0 ∧ t.reg.urgLvl = s.reg.urgWire ∧ t.wins = s.wins ∧ t.cfg = s.cfg ∧ t.cue = s.cue)) ∧
  (∀ s : State, ∃ t, exec .spanWakeI s = .next t ∧
    (s.power.straps.split = true → s.asleep = true → s.power.sleepPh = .none →
      t.power = { s.power with wakeDue := true, scrubWake := false }) ∧
    (s.power.straps.split = false ∨ s.asleep = false → t.power = s.power) ∧ t.arr = s.arr ∧ t.dir = s.dir ∧ t.wins = s.wins ∧
    t.cfg = s.cfg)

/-- R437, R439, R46: a cold reset leaves the reset state, with the fuses, the input pins, the queue and the model's own counter (log
entries 96 and 97, the model's choice); a warm reset keeps the
straps, `PKG_IDENT`, the logs, the retired lanes, the lock, the epochs and the failed span lanes; the release samples the straps
that are not kept and the operating point, and the initialisation pass ends in `CONFIG` with an empty array and directory. -/
def Obligations.Resets : Prop :=
  (∀ s : State,
    exec .coldReset s = .next
      { State.reset with fuses := s.fuses, pending := s.pending, fresh := s.fresh,
                         power := { sleepOk := s.power.sleepOk, dbgSel := s.power.dbgSel },
                         reg := { urgWire := s.reg.urgWire }, test := { wrstn := s.test.wrstn } } ∧
    (∃ t, exec .warmReset s = .next t ∧ t.power.state = .off ∧ t.power.rstLow = true ∧ t.power.straps = s.power.straps ∧
      t.power.strapsTaken = s.power.strapsTaken ∧ t.regs = { pkgIdent := s.regs.pkgIdent, pkgSet := s.regs.pkgSet } ∧
      t.elog = { s.elog with fatal := false } ∧ t.lanes = s.lanes ∧ t.meas.locked = s.meas.locked ∧ t.meas.epochs = s.meas.epochs ∧
      t.meas.cur = [] ∧ t.span.failed = s.span.failed ∧ t.span.rxFailed = s.span.rxFailed ∧ t.arr = [] ∧ t.dir = [] ∧ t.txns = [] ∧
      t.waiting = [] ∧ t.cfg = {} ∧ t.mbs = State.reset.mbs ∧ t.fuses = s.fuses ∧ t.pending = s.pending)) ∧
  (∀ (s : State) (straps : Straps) (op : Nat), s.power.rstLow = true →
    ∃ t, exec (.resetRelease straps op) s = .next t ∧ t.power.state = .init ∧ t.power.rstLow = false ∧ t.power.strapsTaken = true ∧
      t.power.straps = (if s.power.strapsTaken then s.power.straps else straps) ∧ (op < 6 → t.power.op = op) ∧
      t.mem = s.mem.map (fun c => { c with rdata := 64 }) ∧
      (t.power.strapErr = 1 ↔ (if t.power.straps.split then 32 else 16) ≤ t.power.straps.index) ∧ t.arr = s.arr ∧ t.cfg = s.cfg) ∧
  (∀ s : State, s.power.state = .init → s.power.rstLow = false → s.power.strapErr ≠ 1 →
    ∃ t, exec .initComplete s = .next t ∧ t.power.state = .config ∧
      (s.power.opLate = false → t.power = { s.power with state := .config }) ∧ t.reg.urgLvl = s.reg.urgWire ∧
      t.arr = [] ∧ t.dir = [] ∧ t.cfg = s.cfg ∧
      t.wins = s.wins ∧ t.elog = s.elog)

/-! ### Test, wrapper and debug -/

/-- R486, R487: `TEST_REQ` enters `TEST` from `CONFIG` before the lock and sets `TEST_USED`; after the lock it is answered with
`LOCKED` and enters nothing; `TEST_EXIT` leaves `TEST` with the array and the directory invalid and every window idle. R490: a
march test invalidates the arrays that it targets, its register leaves at `WSO`, and its end posts the result. R491: an allowed
injection is armed in `TEST`, and its register leaves at `WSO`. R52: `DBG_SEL` takes its new level. R488, R489: outside `TEST` and
with `WRSTN` low every wrapper instruction but `FZ_ID` acts as `WS_BYPASS`, and what is shifted in leaves one bit later, as under a
reserved code; in `TEST` with `WRSTN` high the instruction is loaded, and `WS_PRELOAD` shifts through the boundary register. `FZ_ID`
shifts the low 22 bits of `ID` out, lowest first, in every state; that 32 zeros enter as they leave, and that `WRSTN` keeps the level of
the last command, is log entry 5 (the model's choice). -/
def Obligations.TestAndWrapper : Prop :=
  (∀ (s : State) (src : Csrp), s.Still → src.mgmt = true → s.asleep = false →
    (s.meas.locked = false → s.power.state = .config →
      ∃ t, exec (.testReq src) s = .next t ∧ t.Sends (.csrp .ok 0) ∧ t.power.state = .test ∧ t.meas.testUsed = true ∧
        t.arr = s.arr ∧
        t.dir = s.dir ∧ t.wins = s.wins ∧ t.cfg = s.cfg) ∧
    (s.meas.locked = true →
      ∃ t, exec (.testReq src) s = .next t ∧ t.Sends (.csrp .locked 0) ∧ t.power.state = s.power.state ∧ t.meas = s.meas) ∧
    (s.power.state = .test →
      ∃ t, exec (.testExit src) s = .next t ∧ t.Sends (.csrp (if s.meas.locked then .locked else .ok) 0) ∧
        t.power.state = .config ∧ t.arr = [] ∧ t.dir = [] ∧
        (∀ w, (t.win w).st = .idle ∧ (t.win w).gen = (s.win w).gen) ∧ t.cfg = s.cfg)) ∧
  (∀ (s : State) (reg : BitVec 32), s.Still → s.power.state = .test →
    (bit reg.toNat 2 = true →
      ∃ t, exec (.fzMbist { reg := reg }) s = .next t ∧ t.out = [.wso (bitsOf 32 s.mbistReg)] ∧ t.test.mbRun = true ∧
        t.test.mbDone = false ∧ t.test.mbFail = false ∧ t.test.mbTarget = bits reg.toNat 1 0 ∧
        t.arr = (if bits reg.toNat 1 0 = 2 then s.arr else []) ∧ t.dir = (if bits reg.toNat 1 0 < 2 then s.dir else []) ∧
        t.wins = s.wins ∧ t.cfg = s.cfg) ∧
    (bit reg.toNat 3 = true → injectOk reg.toNat = true →
      ∃ t j, exec (.fzInject { reg := reg }) s = .next t ∧ t.out = [.wso (bitsOf 32 s.injectReg)] ∧ t.test.inject = some j ∧
        j.kind = bits reg.toNat 2 0 ∧ j.set = bits reg.toNat 20 5 ∧ j.way = bits reg.toNat 25 21 ∧ t.test.fired = false ∧
        t.arr = s.arr ∧ t.dir = s.dir ∧ t.wins = s.wins ∧ t.cfg = s.cfg)) ∧
  (∀ (s : State) (fail : Bool) (bank row : Nat), s.Still → s.power.state = .test → s.test.mbRun = true →
    ∃ t, exec (.mbistComplete fail bank row) s = .next t ∧ t.test.mbRun = false ∧ t.test.mbDone = true ∧ t.test.mbFail = fail ∧
      (fail = true → t.test.mbBank = bank ∧ t.test.mbRow = row) ∧ t.arr = s.arr ∧ t.dir = s.dir ∧ t.wins = s.wins ∧ t.cfg = s.cfg) ∧
  (∀ (s : State) (sel : Nat), ∃ t, exec (.dbgSelChange sel) s = .next t ∧ t.power = { s.power with dbgSel := sel } ∧ t.arr = s.arr ∧
    t.dir = s.dir ∧ t.wins = s.wins ∧ t.cfg = s.cfg) ∧
  (∀ (s : State) (code : BitVec 5) (x : WirShift),
     (∀ p ∈ [(Instr.wsBypass { toWirShift := x, code := code }, WirInstr.ofCode code.toNat), (.wsExtest x, .extest), (.wsIntest x, .intest),
       (.wsPreload x, .preload), (.wsClamp x, .clamp), (.wsSafe x, .safe)],
       (s.power.state ≠ .test ∨ x.wrstn = false ∨ p.2 = .bypass ∨ p.2 = .clamp ∨ p.2 = .safe → p.2 ≠ .fzId →
         ∃ t o, exec p.1 s = .next t ∧ t.test.wir = (if s.power.state = .test ∧ x.wrstn = true then p.2 else .bypass) ∧
           t.test.wrstn = x.wrstn ∧ t.out = [.wso o] ∧ o ++ [t.test.byp] = s.test.byp :: x.wsi ∧ t.test.wbr = s.test.wbr ∧
           t.arr = s.arr ∧ t.dir = s.dir ∧ t.wins = s.wins ∧ t.cfg = s.cfg) ∧
       (s.power.state = .test → x.wrstn = true → p.2 = .extest ∨ p.2 = .preload →
         ∃ t o, exec p.1 s = .next t ∧ t.test.wir = p.2 ∧ t.out = [.wso o] ∧ o.length = x.wsi.length ∧ t.test.byp = s.test.byp ∧
           t.arr = s.arr ∧ t.dir = s.dir ∧ t.wins = s.wins ∧ t.cfg = s.cfg)) ∧
     (s.power.state = .test → x.wrstn = true → ∃ t o, exec (.wsPreload x) s = .next t ∧ t.out = [.wso o] ∧
       ∀ i, i < x.wsi.length → i < 16346 → o.getD i false = s.test.wbr.getLsbD i) ∧
     (s.power.state = .test → x.wrstn = true →
       ∃ t o l, exec (.wsIntest x) s = .next t ∧ t.test.wir = .intest ∧ t.out = .wso o :: l ∧ o.length = x.wsi.length)) ∧
  (∀ s : State, ∃ t, exec .fzId s = .next t ∧ t.test.wir = (if s.test.wrstn = true then .fzId else .bypass) ∧
    t.out = [.wso (if s.test.wrstn = true then bitsOf 32 (s.idWord % 2 ^ 22) else s.test.byp :: List.replicate 31 false)] ∧
    t.test.byp = (s.test.wrstn && s.test.byp) ∧ t.arr = s.arr ∧ t.dir = s.dir ∧ t.wins = s.wins ∧ t.cfg = s.cfg)

/-! ### The span -/

/-- R397 to R400: detection with enough good lanes goes on to `ALIGN`, and otherwise stays `DOWN`; every exchange sends the
slice's own `CAPS` with the fresh nonce and its tag; a training whose exchange holds makes the port `ACTIVE` at the lower feature
level with fresh sequence numbers and credits; one whose exchange fails takes the port down with a record of each failed check; a
retrain whose exchange holds then resends what was not acknowledged. -/
def Obligations.SpanTrains : Prop :=
  (∀ (s : State) (lanes : BitVec 18), s.detectDue = true →
    let x : SpanState := if widthOf (~~~lanes ||| s.span.rxFailed) = 0 then .down else .align
    ∃ t, exec (.spanDetect lanes) s = .next t ∧ t.span = { s.span with st := x, rx := x } ∧ t.arr = s.arr ∧
      t.dir = s.dir ∧ t.wins = s.wins ∧ t.cfg = s.cfg) ∧
  (∀ (s : State) (lanes : BitVec 18) (c : Caps), s.Still → widthOf (s.span.rxFailed ||| ~~~lanes) ≠ 0 →
    let failed := s.span.failed ||| ~~~(BitVec.ofNat 18 (bits c.word0.toNat 37 20))
    let own : Caps := { word0 := (s.takeLanes lanes).capsWord, nonce := c.myNonce, tag := 0, myNonce := c.nonce }
    let sent : Out := .caps own.word0 own.nonce (capsTag s.fuses.spanKey own)
    (s.capsFails c = [] → widthOf failed ≠ 0 →
      (s.span.st = .align → s.span.replay = [] →
        ∃ t, exec (.spanTrainingComplete lanes c) s = .next t ∧ t.span.st = .active ∧ t.span.rx = .active ∧ t.out = [sent] ∧
          t.span.width = widthOf failed ∧ t.span.rxWidth = widthOf (s.span.rxFailed ||| ~~~lanes) ∧
          t.span.pairLevel = min s.fuses.featLevel (bits c.word0.toNat 9 8) ∧
          t.span.txSeq = 0 ∧ t.span.rxNext = 0 ∧ t.span.credits = [64, 64, 128, 64, 128, 16] ∧ t.arr = s.arr ∧ t.dir = s.dir ∧
          t.wins = s.wins ∧ t.cfg = s.cfg) ∧
      (s.span.st = .retrain →
        ∃ t, exec (.spanRetrainComplete lanes c) s = .next t ∧ t.span.st = .active ∧ t.span.rx = .active ∧
          t.out = sent :: s.span.replay.map (fun x => .span x.1 x.2) ∧
          t.span.replay = s.span.replay ∧ t.span.txSeq = s.span.txSeq ∧ t.span.credits = s.span.credits ∧ t.arr = s.arr ∧
          t.dir = s.dir ∧ t.wins = s.wins ∧ t.cfg = s.cfg)) ∧
    (s.capsFails c ≠ [] → s.span.st = .align → s.span.relays = [] →
      ∃ t, exec (.spanTrainingComplete lanes c) s = .next t ∧ t.span.st = .down ∧ t.span.rx = .down ∧ sent ∈ t.out ∧
        t.elog = (s.capsFails c).foldl (fun l k => l.place { source := 0x023, port := 12, addr := k, detail := s.span.lane }) s.elog ∧
        t.arr = s.arr ∧ t.dir = s.dir ∧ t.wins = s.wins ∧ t.cfg = s.cfg))

/-- R401, R405: a frame in sequence that carries no record is acknowledged, in a frame that takes its own place in the replay
buffer, and returns its credits; a frame with a bad unit is answered with a nak, logged, and taken in no other way. A nak that
acknowledges everything leaves nothing to replay. R402, R403: a lane failure that leaves 4 lanes sends its `RETIRE`, and retrains
the receiving direction when the lanes are too few for its width; a `RETIRE` retrains the sending direction in that case, and
otherwise takes the lane out with a replay, at once or from its frame on. R404: after 10 ms `DOWN` the open relay entries end with
`TIMEOUT`. -/
def Obligations.SpanFramesAndLanes : Prop :=
  (∀ (s : State) (f : SpanFrame), s.AtRest → s.span.st = .active → s.span.rx = .active → s.span.replay.length < 128 →
    s.span.remap = [] → (s.countUnits f).badLanes = [] →
    (badUnit f = none → bits (headerOf f) 15 0 = s.span.rxNext → bits (headerOf f) 33 32 = 0 → frameSlots f (headerOf f) = [] →
      ∃ t h, exec (.spanFrame f) s = .next t ∧ t.out = [.span h none] ∧ h.seq = s.span.txSeq ∧ h.ack = s.span.rxNext ∧ h.kind = 1 ∧
        t.span.rxNext = (s.span.rxNext + 1) % 65536 ∧ t.span.credits = addCredits (headerOf f) s.span.credits ∧
        t.span.replay = s.span.replay ++ [(h, none)] ∧ t.elog = s.elog ∧ t.arr = s.arr ∧ t.dir = s.dir ∧
        t.wins = s.wins ∧ t.cfg = s.cfg) ∧
    (∀ u, badUnit f = some u →
      ∃ t h, exec (.spanFrame f) s = .next t ∧ t.out = [.span h none] ∧ h.seq = s.span.txSeq ∧
        h.ack = (s.span.rxNext + 65535) % 65536 ∧ h.kind = 2 ∧ t.span.rxNext = s.span.rxNext ∧ t.span.credits = s.span.credits ∧
        t.elog = (s.logSpan 0x020 (s.laneOf u) s.span.rxWidth 0).elog ∧
        t.arr = s.arr ∧ t.dir = s.dir ∧ t.wins = s.wins ∧ t.cfg = s.cfg)) ∧
  (∀ (s : State) (ack : Nat), s.AtRest → s.span.rx = .active →
    (∀ x ∈ s.span.replay, (ack + 65536 - x.1.seq) % 65536 < 32768) →
    ∃ t, exec (.spanNak ack) s = .next t ∧ t.span = { s.span with replay := [], naks := 0 } ∧ t.out = [] ∧ t.arr = s.arr ∧
      t.dir = s.dir ∧ t.wins = s.wins ∧ t.cfg = s.cfg) ∧
  (∀ (s : State) (lane : Nat), s.AtRest → s.span.rx = .active → lane < 18 → s.span.remap = [] →
    let rx := s.span.rxFailed ||| BitVec.ofNat 18 (2 ^ lane)
    let tx := s.span.failed ||| BitVec.ofNat 18 (2 ^ lane)
    (s.span.rxFailed.getLsbD lane = false → 4 ≤ (goodLanes rx).length →
      ∃ t, exec (.laneFailure lane) s = .next t ∧ t.span.rxFailed = rx ∧ t.span.st = s.span.st ∧
        t.span.rx = (if (goodLanes rx).length < s.span.rxWidth then .retrain else .active) ∧
        t.Crosses (.retire lane s.span.rxNext) ∧ t.arr = s.arr ∧ t.dir = s.dir ∧ t.wins = s.wins ∧ t.cfg = s.cfg) ∧
    (∀ seq, s.linkUp = true → s.span.st = .active → s.span.failed.getLsbD lane = false → 4 ≤ (goodLanes tx).length →
      ∃ t, exec (.retire lane seq) s = .next t ∧ t.span.rx = .active ∧
        ((goodLanes tx).length < s.span.width → t.span.failed = tx ∧ t.span.st = .retrain) ∧
        (s.span.width ≤ (goodLanes tx).length → seq = s.span.txSeq →
          t.span.failed = tx ∧ t.span.st = .active ∧ t.out = s.span.replay.map (fun x => .span x.1 x.2)) ∧
        (s.span.width ≤ (goodLanes tx).length → 0 < (seq + 65536 - s.span.txSeq) % 65536 →
          (seq + 65536 - s.span.txSeq) % 65536 < 32768 →
          t.span.failed = s.span.failed ∧ t.span.remap = [(lane, seq)] ∧ t.span.st = .active ∧ t.out = []) ∧
        t.arr = s.arr ∧ t.dir = s.dir ∧ t.wins = s.wins ∧ t.cfg = s.cfg)) ∧
  (∀ (s : State) (r : Relay), s.AtRest → s.prov = [] → s.power.straps.split = true → s.span.st = .down → s.span.farDown = false →
    s.span.relays = [r] → r.timedOut = false → r.ackWait = false → s.farAgents = [] →
    ∃ t, exec .spanDownTimeout s = .next t ∧ t.Sends (.rsp r.port r.txid .timeout 0 false false) ∧ t.span.relays = [] ∧
      t.span.replay = [] ∧ t.span.waitTx = [] ∧ t.span.farDown = true ∧ t.arr = s.arr ∧ t.dir = s.dir ∧ t.wins = s.wins ∧
      t.cfg = s.cfg)

/-- R407, R408: a relayed request is served by its home, here a `ZERO_LINE` of a line in the array, and its `RSP` record carries
its tag; the response completes the request at its entry slice and closes its relay entry. R409: an `SNP` record becomes a snoop
of the agent under the lowest free ID, and an `SNR` record with `COMP_ACK` ends the transaction of its grant. -/
def Obligations.SpanRecordsServed : Prop :=
  (∀ (s : State) (q : Req) (c : CLine), s.linkUp = true → State.Admits s .zeroLine { q with port := 0 } → q.provisional = false →
    arrWf s.arr = true → s.lineOf q.line = some c → s.dirAt q.line = none →
    ∃ t, exec (.spanReqRecord .zeroLine q) s = .next t ∧
      t.Crosses (.rsp q.txid 0 0 false [] false) ∧
      (∀ i < 2, t.cached q.line i = some (0, false)) ∧ s.OtherLines t q.line ∧ t.dir = s.dir ∧ t.txns = [] ∧ t.wins = s.wins ∧
      t.cfg = s.cfg) ∧
  (∀ (s : State) (tag : Nat) (st : Status) (r : Relay), s.linkUp = true → s.AtRest → s.prov = [] → s.relayAt tag = some r →
    r.timedOut = false →
    ∃ t, exec (.spanRspRecord tag st.code 0 false [] false) s = .next t ∧ t.Sends (.rsp r.port r.txid st 0 false false) ∧
      t.span.relays = s.span.relays.filter (fun x => x.tag != tag) ∧ t.arr = s.arr ∧ t.dir = s.dir ∧ t.wins = s.wins ∧
        t.cfg = s.cfg) ∧
  (∀ (s : State) (op line id agent i : Nat), s.linkUp = true → s.AtRest → s.prov = [] → 0 < op → op < 4 →
    (s.routeOf agent).present = true →
    s.freeSnoopId (s.routeOf agent).port = some i →
    ∃ t, exec (.spanSnpRecord op line id agent) s = .next t ∧ t.Sends (.snp (s.routeOf agent).port op line i agent) ∧
      t.span.fwd = s.span.fwd ++ [{ homeId := id, agent := agent, port := (s.routeOf agent).port, id := i, op := op, line := line,
                                    sent := true }] ∧ t.arr = s.arr ∧ t.dir = s.dir ∧ t.wins = s.wins ∧ t.cfg = s.cfg) ∧
  (∀ (s : State) (id : Nat) (x : Txn), s.linkUp = true → State.AtRest { s with txns := [] } → s.prov = [] → s.txns = [x] →
    x.served = true →
    x.ack = some (0, id, 1) →
    ∃ t, exec (.spanSnrRecord 4 id 0 false []) s = .next t ∧ t.txns = [] ∧ (∀ n, t.busy n = false) ∧ t.arr = s.arr ∧ t.dir = s.dir ∧
      t.wins = s.wins ∧ t.cfg = s.cfg)

/-- R412: a holder record of a line in no `MIRROR` lens is refused; one of a mirrored line without an entry records the agent as a
sharer and is accepted. An accepted `HACK` completes the read with a grant of S, a refused one with `ABORTED`. R411: a `FILL`
record of a line that the slot may take is installed. R413: a `VER` record with the slot's window and hash verifies it, and one
still unverified is counted as a mismatch. -/
def Obligations.MirrorRecords : Prop :=
  (∀ (s : State) (line agent tag : Nat), s.linkUp = true → s.AtRest → s.prov = [] →
    (s.mirrored line = false →
      ∃ t, exec (.hrec line agent tag) s = .next t ∧
        t.Crosses (.hack tag true) ∧ t.span.holders = [] ∧ t.arr = s.arr ∧ t.dir = s.dir ∧
        t.wins = s.wins ∧ t.cfg = s.cfg) ∧
    (∀ w, s.mirrored line = true → s.homed line = true → s.dirAt line = none → s.dirPlace (setOf line) = .free w →
      (∀ x ∈ s.dir, x.way < 16) →
      ∃ t x, exec (.hrec line agent tag) s = .next t ∧
        t.Crosses (.hack tag false) ∧
        t.dirAt line = some { set := setOf line, way := w, line := line, part := (s.descOf (s.lensAt (line * 128))).part,
                              sharers := [agent] } ∧
        t.txns = [x] ∧ x.line = line ∧ x.ack = some (0, tag, 1) ∧ t.arr = s.arr ∧ t.wins = s.wins ∧ t.cfg = s.cfg)) ∧
  (∀ (s : State) (tag : Nat) (r : Relay), s.linkUp = true → s.AtRest → s.prov = [] → s.relayAt tag = some r → r.timedOut = false →
    (∃ t, exec (.hack tag true) s = .next t ∧ t.Sends (.rsp r.port r.txid .aborted 0 false false) ∧
      t.span.relays = s.span.relays.filter (fun x => x.tag != tag) ∧ t.arr = s.arr ∧ t.dir = s.dir ∧ t.wins = s.wins ∧
        t.cfg = s.cfg) ∧
    (∃ t, exec (.hack tag false) s = .next t ∧ t.Sends (.rsp r.port r.txid .done 1 false true) ∧
      t.span.relays = s.span.relays.map (fun x => if x.tag = tag then { x with ackWait := true } else x) ∧ t.arr = s.arr ∧
      t.dir = s.dir ∧ t.wins = s.wins ∧ t.cfg = s.cfg)) ∧
  (∀ (s : State) (line slot : Nat) (a b : DatFlit) (w rrv : Nat), s.linkUp = true → s.AtRest → s.prov = [] → arrWf s.arr = true →
    a.sector = 0 →
    b.sector = 1 → s.fillOk line = true →
      s.place line (s.descOf (s.lensAt (line * 128))).part (s.lensAt (line * 128)) = .way w rrv none [] false →
    (∀ x ∈ s.arr, x.key ≠ setOf line * 32 + w) →
    ∃ t, exec (.fill line slot [a, b]) s = .next t ∧ t.cached line 0 = some (a.data, a.poison) ∧
      t.cached line 1 = some (b.data, b.poison) ∧ (∀ n, n ≠ line → t.lineOf n = s.lineOf n) ∧ t.dir = s.dir ∧ t.wins = s.wins ∧
      t.cfg = s.cfg) ∧
  (∀ (s : State) (i : Nat) (d : Desc), s.linkUp = true → s.AtRest → i < s.lens.slots.length → s.verifies i (s.lensSlot i) = true →
    (s.lensSlot i).desc = some d →
    ∃ t, exec (.ver i d.base d.size d.hash) s = .next t ∧ (t.lensSlot i).unverified = false ∧
      (∀ k, (t.lensSlot k).inAct = (s.lensSlot k).inAct) ∧ t.arr = s.arr ∧ t.dir = s.dir ∧ t.wins = s.wins ∧ t.cfg = s.cfg) ∧
  (∀ (s : State) (i : Nat), s.AtRest → s.verifies i (s.lensSlot i) = true → (s.lensSlot i).unverified = true →
    ∃ t, exec (.mirrorMismatch i) s = .next t ∧ t.ctr = (s.count Ev.mirrorMismatch (some (s.descOf (some i)).part)).ctr ∧
      t.out = [] ∧ t.arr = s.arr ∧ t.dir = s.dir ∧ t.wins = s.wins ∧ t.cfg = s.cfg ∧ t.elog = s.elog)

/-! ### Invariants of every step -/

/-- R119: after every command no lens slot holds a descriptor but one that stands in a set, keeps a line, or is carried by
something in flight. -/
def Obligations.EveryStepSettlesSlots : Prop :=
  ∀ s t : State, step s = .next t → t.Settled

/-- R79, R80, R131: every step keeps the array, the directory and the write-back buffer in their canonical forms: places of the
array in strictly rising order with no invalid line listed, directory ways below 16, and one buffer entry a line. -/
def Obligations.EveryStepKeepsForm : Prop :=
  ∀ s t : State, s.InForm → step s = .next t → t.InForm

/-- R94, R240, R259, R272, R315, R373, R391: every step keeps the number of windows, lens slots, channels, action slots,
mailboxes, partition windows, TDC entries and resources. -/
def Obligations.EveryStepKeepsShape : Prop :=
  ∀ s t : State, s.Shaped → step s = .next t → t.Shaped

/-- R437: the reset state has no command waiting, no line, no entry and no transaction, stands in a cold reset in `OFF`, and meets
the three invariants. -/
def Obligations.ResetMeetsInvariants : Prop :=
  State.reset.Settled ∧ State.reset.InForm ∧ State.reset.Shaped ∧ State.reset.power.state = .off ∧ State.reset.power.rstLow = true ∧
    State.reset.arr = [] ∧ State.reset.dir = [] ∧ State.reset.txns = [] ∧ State.reset.pending = []
end

