-- ==== Sys2Proof/Laws/Ops.lean ====
section
/-! SUPPORT. What the shared operations of Machine/Ops.lean, Hot.lean and Fabric.lean change: meters, credits and the flits of the
ports, and nothing else; and which flits they send. -/

namespace Sys2Proof.Machine
open Sys2Proof

/-- A balance lives in the regulation unit. -/
theorem State.setBal_shape (g r f) (s : State) : s.setBal g r f = { s with reg := (s.setBal g r f).reg } := rfl

/-- Metering writes the regulation unit only. -/
theorem State.useOf_shape (g r n) (s : State) : ∃ x, s.useOf g r n = { s with reg := x } := by
  unfold State.useOf; split
  · exact ⟨_, rfl⟩
  · exact ⟨s.reg, rfl⟩

theorem State.use_shape (r n) (s : State) : ∃ g, s.use r n = { s with reg := g } := s.useOf_shape _ r n

/-- A fold of steps that write the regulation unit writes nothing else. -/
theorem foldl_reg {α} (f : State → α → State) (hf : ∀ s a, ∃ g, f s a = { s with reg := g }) (l : List α) :
    ∀ s : State, ∃ g, l.foldl f s = { s with reg := g } := by
  induction l with
  | nil => exact fun s => ⟨s.reg, rfl⟩
  | cons a l ih =>
    intro s
    obtain ⟨g, hg⟩ := hf s a
    obtain ⟨k, hk⟩ := ih (f s a)
    exact ⟨k, by rw [List.foldl_cons, hk, hg]⟩

/-- A refund writes the regulation unit only. -/
theorem State.refund_shape (p i tag) (s : State) : ∃ g, s.refund p i tag = { s with reg := g } := by
  unfold State.refund
  split
  · exact ⟨s.reg, rfl⟩
  · rename_i v _
    obtain ⟨g, hg⟩ := foldl_reg (fun t (x : Nat × Nat) => t.setBal v.pay x.2 fun b => { b with credit := b.credit + 32 * x.1 })
      (fun s a => ⟨_, State.setBal_shape ..⟩) v.units.zipIdx ({ s with reg := { s.reg with resv := s.reg.resv.erase v } })
    exact ⟨g, hg⟩

/-- A charge writes the regulation unit only. -/
theorem State.charge_shape (w : WaitReq) (s : State) : ∃ g, s.charge w = { s with reg := g } := by
  unfold State.charge
  dsimp only
  obtain ⟨g1, h1⟩ : ∃ g, (if w.tag.isNone then (s.runAs (some w.grp) (some w.q.agent)).use 0 (32 * max 1 (w.op.flits w.q.size))
      else s.runAs (some w.grp) (some w.q.agent)) = { s with reg := g } := by
    split
    · obtain ⟨g, h⟩ := State.use_shape 0 (32 * max 1 (w.op.flits w.q.size)) (s.runAs (some w.grp) (some w.q.agent))
      exact ⟨g, h⟩
    · exact ⟨_, rfl⟩
  rw [h1]
  split
  · exact ⟨g1, rfl⟩
  · obtain ⟨g, h⟩ := foldl_reg (fun t (x : Nat × Nat) => t.setBal (s.groupOf w.q.agent w.q.tint) x.2 fun b => { b with mirr := b.mirr - 32 * x.1 })
      (fun s a => ⟨_, State.setBal_shape ..⟩) (s.chargeHere w.op w.q w.tag).zipIdx _
    exact ⟨g, h⟩

/-- R449, R476: with no parity error a count writes the counters and what the debug port sees of it (R484). -/
theorem State.countN_calm (e p n) (s : State) (h : s.bad = []) :
    s.countN e p n = { s with ctr := (s.countN e p n).ctr, sig := evSig e p ++ s.sig } := by
  simp [State.countN, h]

/-- R482: with no parity error a measurement writes the histograms and takes a free value. -/
theorem State.measure_calm (src p) (s : State) (h : s.bad = []) :
    ∃ x n, s.measure src p = { s with hist := x, fresh := n } := by
  unfold State.measure
  generalize List.range 4 = l
  suffices ∀ t : State, t.bad = [] → ∃ x n, l.foldl (fun (t : State) h =>
      if (let c := s.cfg.hists.getD h {}; src != 0 && c.src == src && (!c.partEn || p == some c.part)) then
        let t := t.binParity (16 * h + histBin (Config.freeLatency s.fresh).toNat)
        { t with hist := t.hist.modify (16 * h + histBin (Config.freeLatency s.fresh).toNat) (· + 1), fresh := s.fresh + 1 }
      else t) t = { t with hist := x, fresh := n } from this s h
  induction l with
  | nil => exact fun t _ => ⟨t.hist, t.fresh, rfl⟩
  | cons a l ih =>
    intro t ht
    rw [List.foldl_cons]
    split
    · have hb : t.binParity (16 * a + histBin (Config.freeLatency s.fresh).toNat) = t := by simp [State.binParity, ht]
      obtain ⟨x, n, e⟩ := ih { t with hist := t.hist.modify (16 * a + histBin (Config.freeLatency s.fresh).toNat) (· + 1),
                                      fresh := s.fresh + 1 } ht
      exact ⟨x, n, by simp only [hb]; exact e⟩
    · exact ih t ht

/-- The state without its meters, credits and flits. -/
def State.core (s : State) : State :=
  { s with fab := [], heldOut := [], mem := [], memOut := [], memWait := [], reg := {}, ctr := [], hist := [], fresh := 0, hot := {},
           regs := {}, acts := [], sig := [], out := [] }

/-- With no parity error only meters, credits and the ports' flits differ, and no flit is lost. -/
def State.Outer (s t : State) : Prop := (s.bad = [] → t.core = s.core) ∧ ∀ f, s.Sends f → t.Sends f

theorem State.core_bad {s t : State} (h : t.core = s.core) : t.bad = s.bad := by
  have : t.core.bad = s.core.bad := by rw [h]
  exact this

theorem State.Outer.refl (s : State) : s.Outer s := ⟨fun _ => rfl, fun _ h => h⟩

theorem State.Outer.trans {s t u : State} (h : s.Outer t) (k : t.Outer u) : s.Outer u :=
  ⟨fun hb => (k.1 ((State.core_bad (h.1 hb)).trans hb)).trans (h.1 hb), fun x hx => k.2 x (h.2 x hx)⟩

/-- What an operation of this kind leaves, as an update of the state it began in. -/
theorem State.Outer.shape {s t : State} (h : s.Outer t) (hb : s.bad = []) :
    ∃ fab held mem memOut memWait reg ctr hist fresh hot regs acts sig out, t = { s with fab := fab, heldOut := held, mem := mem, memOut := memOut, memWait := memWait, reg := reg, ctr := ctr, hist := hist, fresh := fresh, hot := hot, regs := regs, acts := acts, sig := sig, out := out } := by
  refine ⟨t.fab, t.heldOut, t.mem, t.memOut, t.memWait, t.reg, t.ctr, t.hist, t.fresh, t.hot, t.regs, t.acts, t.sig, t.out, ?_⟩
  have h1 := h.1 hb
  cases s; cases t
  simp only [State.core, State.mk.injEq] at h1 ⊢
  simp_all

theorem State.outer_reg (s : State) (g) : s.Outer { s with reg := g } := ⟨fun _ => rfl, fun _ h => h⟩

/-- A parity error of a counter or a bin is logged; no flit leaves. -/
theorem State.ctrParity_ports (i) (s : State) : (s.ctrParity i).out = s.out ∧ (s.ctrParity i).heldOut = s.heldOut := by
  unfold State.ctrParity; split <;> exact ⟨rfl, rfl⟩

theorem State.binParity_out (i) (s : State) : (s.binParity i).out = s.out ∧ (s.binParity i).heldOut = s.heldOut := by
  unfold State.binParity; split <;> exact ⟨rfl, rfl⟩

/-- A fold of steps that send nothing sends nothing. -/
theorem foldl_out {α} (f : State → α → State) (hf : ∀ (s : State) (a : α), (f s a).out = s.out ∧ (f s a).heldOut = s.heldOut)
    (l : List α) : ∀ s : State, (l.foldl f s).out = s.out ∧ (l.foldl f s).heldOut = s.heldOut := by
  induction l with
  | nil => exact fun s => ⟨rfl, rfl⟩
  | cons a l ih => exact fun s => ⟨(ih _).1.trans (hf s a).1, (ih _).2.trans (hf s a).2⟩

theorem State.sends_of_out {s t : State} (h : t.out = s.out ∧ t.heldOut = s.heldOut) (f) (hf : s.Sends f) : t.Sends f := by
  unfold State.Sends; rw [h.1, h.2]; exact hf

theorem State.outer_countN (e p n) (s : State) : s.Outer (s.countN e p n) := by
  refine ⟨fun h => by rw [State.countN_calm e p n s h]; rfl, State.sends_of_out ?_⟩
  unfold State.countN
  dsimp only
  split
  · exact ⟨rfl, rfl⟩
  · exact foldl_out _ (fun t i => by split; exacts [t.ctrParity_ports i, ⟨rfl, rfl⟩]) _ s

theorem State.outer_measure (src p) (s : State) : s.Outer (s.measure src p) := by
  refine ⟨fun h => by obtain ⟨x, n, e⟩ := s.measure_calm src p h; rw [e]; rfl, State.sends_of_out ?_⟩
  unfold State.measure
  exact foldl_out _ (fun t i => by dsimp only; split; exacts [t.binParity_out _, ⟨rfl, rfl⟩]) _ s

theorem State.outer_count (e p) (s : State) : s.Outer (s.count e p) := s.outer_countN e p 1

theorem State.outer_use (r n) (s : State) : s.Outer (s.use r n) := by
  obtain ⟨g, h⟩ := s.use_shape r n; rw [h]; exact s.outer_reg g

theorem State.outer_refund (p i t) (s : State) : s.Outer (s.refund p i t) := by
  obtain ⟨g, h⟩ := s.refund_shape p i t; rw [h]; exact s.outer_reg g

theorem State.outer_charge (w : WaitReq) (s : State) : s.Outer (s.charge w) := by
  obtain ⟨g, h⟩ := s.charge_shape w; rw [h]; exact s.outer_reg g

theorem State.outer_emitOf (p f) (s : State) : s.Outer (s.emitOf p f) := by
  unfold State.emitOf
  split
  · exact ⟨fun _ => rfl, fun g h => h.imp (fun h => by simp [h]) id⟩
  · split
    · exact ⟨fun _ => rfl, fun g h => h.imp id fun ⟨x, hx, e⟩ => ⟨x, by simp [hx], e⟩⟩
    · exact ⟨fun _ => rfl, fun g h => h.imp (fun h => by simp [State.spend, State.act, h]) id⟩

theorem State.outer_emit (f) (s : State) : s.Outer (s.emit f) := s.outer_emitOf _ f

theorem State.sends_emitOf (p f) (s : State) : (s.emitOf p f).Sends f := by
  unfold State.emitOf
  split
  · exact .inl (by simp)
  · split
    · exact .inr ⟨⟨f, p⟩, by simp, rfl⟩
    · exact .inl (by simp [State.spend, State.act])

theorem State.sends_emit (f) (s : State) : (s.emit f).Sends f := s.sends_emitOf _ f

theorem foldl_outer {α} (f : State → α → State) (hf : ∀ (s : State) (a : α), s.Outer (f s a)) (l : List α) :
    ∀ s : State, s.Outer (l.foldl f s) := by
  induction l with
  | nil => exact fun s => State.Outer.refl s
  | cons a l ih => exact fun s => (hf s a).trans (ih _)

theorem foldl_sends {α} (f : State → α → State) (hf : ∀ (s : State) (a : α), s.Outer (f s a)) (g : α → Out) (l : List α) (x : α) (hx : x ∈ l)
    (hg : ∀ s, (f s x).Sends (g x)) : ∀ s : State, (l.foldl f s).Sends (g x) := by
  induction l with
  | nil => cases hx
  | cons a l ih =>
    intro s
    rcases List.mem_cons.1 hx with rfl | h
    · exact (foldl_outer f hf l _).2 _ (hg s)
    · exact ih h _

theorem State.outer_answered (p i t d) (s : State) : s.Outer (s.answered p i t d) := by
  unfold State.answered
  split
  · exact .refl s
  · exact foldl_outer _ (fun t x => t.outer_measure x _) _ s

/-- A buffered sector that is read may show an error; no flit leaves. -/
theorem State.bufFault_out (d p) (s : State) : (s.bufFault d p).out = s.out ∧ (s.bufFault d p).heldOut = s.heldOut := by
  unfold State.bufFault
  split
  all_goals first
    | exact ⟨rfl, rfl⟩
    | (unfold State.bufError; dsimp only; split <;> exact ⟨rfl, rfl⟩)

theorem State.readStaged_outer (r : MemReq) (s : State) : s.Outer (s.readStaged r).2 := by
  refine ⟨fun h => by cases hd : r.data <;> simp [State.readStaged, h, hd], State.sends_of_out ?_⟩
  unfold State.readStaged
  split
  · dsimp only
    split <;> exact s.bufFault_out _ _
  · exact ⟨rfl, rfl⟩

theorem State.readStaged_use (r : MemReq) (s : State) : (s.readStaged r).1.use = r.use := by
  unfold State.readStaged; split <;> rfl

theorem State.outer_useOf (g r n) (s : State) : s.Outer (s.useOf g r n) := by
  obtain ⟨x, h⟩ := s.useOf_shape g r n; rw [h]; exact s.outer_reg x

theorem State.outer_memOutput (r : MemReq) (hr : ∀ l i, r.use ≠ .wback l i) (s : State) : s.Outer (s.memOutput r) := by
  unfold State.memOutput
  have h1 := s.readStaged_outer r
  have h2 := s.readStaged_use r
  generalize s.readStaged r = x at h1 h2
  obtain ⟨r', s'⟩ := x
  refine (h1.trans (State.outer_useOf r'.grp 2 (if r'.mopc == 1 then 64 else 32) s')).trans ?_
  dsimp only at h2 ⊢
  generalize s'.useOf r'.grp 2 (if r'.mopc == 1 then 64 else 32) = u
  split
  · rename_i l i h; exact absurd (h2.symm.trans h) (hr l i)
  · exact ⟨fun _ => rfl, fun g h => h.imp (fun h => by simp [h]) id⟩

theorem State.outer_memPut (r : MemReq) (hr : ∀ l i, r.use ≠ .wback l i) (s : State) : s.Outer (s.memPut r) := by
  unfold State.memPut
  split
  · exact s.outer_memOutput r hr
  · exact ⟨fun _ => rfl, fun g h => h⟩

theorem State.outer_memSend (r : MemReq) (hr : ∀ l i, r.use ≠ .wback l i) (s : State) : s.Outer (s.memSend r) :=
  State.outer_memPut { r with grp := s.reg.cur, agent := s.reg.curAgent } hr s

theorem State.outer_hot (s : State) (g) : s.Outer { s with hot := g } :=
  ⟨fun _ => rfl, fun _ h => h⟩

theorem State.outer_hotRegs (s : State) (g r) : s.Outer { s with hot := g, regs := r } :=
  ⟨fun _ => rfl, fun _ h => h⟩

theorem State.outer_hotDrain (n) : ∀ s : State, s.Outer (s.hotDrain n) := by
  induction n with
  | zero => exact fun s => State.Outer.refl s
  | succ n ih =>
    intro s
    unfold State.hotDrain
    split
    · exact .refl s
    · dsimp only
      split
      · exact .refl s
      · refine .trans ?_ (ih _)
        exact (State.outer_hot s _).trans (State.outer_memSend _ (by simp) _)

theorem State.outer_hotCount (l m) (s : State) : s.Outer (s.hotCount l m) := by
  unfold State.hotCount
  dsimp only
  repeat' split
  all_goals first
    | exact .refl s
    | exact s.outer_hot _
    | exact (s.outer_hot _).trans (State.outer_count ..)
    | exact (State.outer_hotRegs s _ _).trans (State.outer_hotDrain 8 _)

theorem State.outer_respond (p i st g o) (s : State) : s.Outer (s.respond p i none st g o) := by
  unfold State.respond
  dsimp only
  split
  · exact State.outer_emitOf ..
  · exact ((s.outer_answered ..).trans (State.outer_refund ..)).trans (State.outer_emitOf ..)

theorem State.sends_respond (p i st g o) (s : State) :
    (s.respond p i none st g o).Sends (.rsp p i st g o (g != 0)) := State.sends_emitOf ..

theorem State.outer_sendDat (p i a fl) (s : State) : s.Outer (s.sendDat p i a fl) :=
  (s.outer_use ..).trans (foldl_outer _ (fun s _ => State.outer_emit _ s) _ _)

theorem State.sends_sendDat (p i a fl) (s : State) (x : (Nat × Sector × Bool) × Nat) (hx : x ∈ fl.zipIdx) :
    (s.sendDat p i a fl).Sends (.dat p i x.1.1 x.1.2.1 x.1.2.2 a (x.2 + 1 == fl.length)) :=
  foldl_sends (fun (t : State) (y : (Nat × Sector × Bool) × Nat) => t.emit (.dat p i y.1.1 y.1.2.1 y.1.2.2 a (y.2 + 1 == fl.length)))
    (fun t _ => t.outer_emit _)
    (fun y => .dat p i y.1.1 y.1.2.1 y.1.2.2 a (y.2 + 1 == fl.length)) fl.zipIdx x hx (fun t => t.sends_emit _)
    (s.use 1 (32 * fl.length))

theorem State.outer_respondData (p i st g o a fl) (s : State) : s.Outer (s.respondData p i none st g o a fl) := by
  unfold State.respondData
  dsimp only
  refine (s.outer_answered p i none true).trans ?_
  split
  · exact (State.outer_sendDat ..).trans (State.outer_emitOf ..)
  · exact ((State.outer_sendDat ..).trans (State.outer_refund ..)).trans (State.outer_emitOf ..)

theorem State.sends_respondData (p i st g o a fl) (s : State) :
    (s.respondData p i none st g o a fl).Sends (.rsp p i st g o (g != 0)) := State.sends_emitOf ..

theorem State.sends_respondData_dat (p i st g o a fl) (s : State) (x) (hx : x ∈ fl.zipIdx) :
    (s.respondData p i none st g o a fl).Sends (.dat p i x.1.1 x.1.2.1 x.1.2.2 a (x.2 + 1 == fl.length)) := by
  refine (State.outer_emitOf ..).2 _ ?_
  have h := State.sends_sendDat p i a fl (s.answered p i none true) x hx
  split
  · exact h
  · exact (State.outer_refund ..).2 _ h

theorem State.outer_answer (op q m st g a fl) (s : State) : s.Outer (s.answer op q none m st g a fl) := by
  unfold State.answer
  split
  · exact .refl s
  · dsimp only
    split
    · exact (State.outer_respondData ..).trans (State.outer_hotCount ..)
    · exact State.outer_respondData ..

theorem State.sends_answer (op q m st g a fl) (s : State) (h : s.power.state = .service) :
    (s.answer op q none m st g a fl).Sends (.rsp q.port q.txid st g false (g != 0)) := by
  unfold State.answer
  simp only [h]
  rw [if_neg (by decide)]
  split
  · exact (State.outer_hotCount ..).2 _ (State.sends_respondData ..)
  · exact State.sends_respondData ..

theorem State.sends_answer_dat (op q m st g a fl) (s : State) (h : s.power.state = .service) (x) (hx : x ∈ fl.zipIdx) :
    (s.answer op q none m st g a fl).Sends (.dat q.port q.txid x.1.1 x.1.2.1 x.1.2.2 a (x.2 + 1 == fl.length)) := by
  unfold State.answer
  simp only [h]
  rw [if_neg (by decide)]
  split
  · exact (State.outer_hotCount ..).2 _ (State.sends_respondData_dat _ _ _ _ _ _ _ _ _ hx)
  · exact State.sends_respondData_dat _ _ _ _ _ _ _ _ _ hx

end Sys2Proof.Machine
end

