-- ==== Sys2Proof/Laws/Array.lean ====
section
/-! SUPPORT. The array as a sorted list: every operation on it keeps the canonical form, a line that was put is read back, and
every other line stays as it was (R79, R80). -/

namespace Sys2Proof.Machine

open Sys2Proof

theorem arrWf_cons (x : CLine) (l : List CLine) :
    arrWf (x :: l) = true ↔ x.valid = true ∧ (∀ y ∈ l, x.key < y.key) ∧ arrWf l = true := by
  induction l generalizing x with
  | nil => simp [arrWf]
  | cons y l ih =>
    rw [show arrWf (x :: y :: l) = (x.valid && decide (x.key < y.key) && arrWf (y :: l)) from rfl]
    simp only [Bool.and_eq_true, decide_eq_true_eq, List.mem_cons, forall_eq_or_imp, and_assoc]
    constructor
    · rintro ⟨a, b, c⟩
      exact ⟨a, b, fun z hz => lt_trans b (((ih y).1 c).2.1 z hz), c⟩
    · rintro ⟨a, b, -, c⟩
      exact ⟨a, b, c⟩

theorem arrPut_mem (c x : CLine) (l : List CLine) (h : x ∈ arrPut c l) : x = c ∨ x ∈ l := by
  induction l with
  | nil => simpa [arrPut] using h
  | cons y l ih =>
    unfold arrPut at h
    split at h
    · rcases List.mem_cons.1 h with rfl | h
      · simp
      · rcases ih h with h | h <;> simp [h]
    · split at h
      · rcases List.mem_cons.1 h with h | h <;> simp [h]
      · rcases List.mem_cons.1 h with h | h
        · simp [h]
        · exact .inr h

theorem arrDel_mem (k : Nat) (x : CLine) (l : List CLine) (h : x ∈ arrDel k l) : x ∈ l := by
  induction l with
  | nil => exact h
  | cons y l ih =>
    unfold arrDel at h
    split at h
    · exact List.mem_cons_of_mem _ h
    · rcases List.mem_cons.1 h with rfl | h
      · simp
      · exact List.mem_cons_of_mem _ (ih h)

/-- Putting a valid line keeps the canonical form. -/
theorem arrPut_wf (c : CLine) (hc : c.valid = true) (l : List CLine) (h : arrWf l = true) : arrWf (arrPut c l) = true := by
  induction l with
  | nil => simp [arrPut, arrWf, hc]
  | cons y l ih =>
    obtain ⟨hy, hl, hw⟩ := (arrWf_cons y l).1 h
    unfold arrPut
    split
    · rename_i hk
      exact (arrWf_cons _ _).2 ⟨hy, fun z hz => (arrPut_mem c z l hz).elim (fun e => e ▸ hk) (hl z), ih hw⟩
    · rename_i hk
      split
      · rename_i he
        exact (arrWf_cons _ _).2 ⟨hc, fun z hz => by rw [← beq_iff_eq.1 he]; exact hl z hz, hw⟩
      · rename_i he
        have hlt : c.key < y.key := lt_of_le_of_ne (Nat.le_of_not_lt hk) (fun e => he (beq_iff_eq.2 e.symm))
        refine (arrWf_cons _ _).2 ⟨hc, fun z hz => ?_, h⟩
        rcases List.mem_cons.1 hz with rfl | hz
        · exact hlt
        · exact lt_trans hlt (hl z hz)

/-- Emptying a place keeps the canonical form. -/
theorem arrDel_wf (k : Nat) (l : List CLine) (h : arrWf l = true) : arrWf (arrDel k l) = true := by
  induction l with
  | nil => exact h
  | cons y l ih =>
    obtain ⟨hy, hl, hw⟩ := (arrWf_cons y l).1 h
    unfold arrDel
    split
    · exact hw
    · exact (arrWf_cons _ _).2 ⟨hy, fun z hz => hl z (arrDel_mem k z l hz), ih hw⟩

theorem State.putLine_wf (c : CLine) (s : State) (h : arrWf s.arr = true) : arrWf (s.putLine c).arr = true := by
  unfold State.putLine
  dsimp only
  split
  · exact arrPut_wf c ‹_› _ h
  · exact arrDel_wf _ _ h

theorem State.delLine_wf (c : CLine) (s : State) (h : arrWf s.arr = true) : arrWf (s.delLine c).arr = true :=
  arrDel_wf _ _ h

/-- A filter keeps the canonical form. -/
theorem arrWf_filter (p : CLine → Bool) (l : List CLine) (h : arrWf l = true) : arrWf (l.filter p) = true := by
  induction l with
  | nil => rfl
  | cons y l ih =>
    obtain ⟨hy, hl, hw⟩ := (arrWf_cons y l).1 h
    rw [List.filter_cons]
    split
    · exact (arrWf_cons _ _).2 ⟨hy, fun z hz => hl z (List.mem_filter.1 hz).1, ih hw⟩
    · exact ih hw

/-- A map that moves no line and empties none keeps the canonical form. -/
theorem arrWf_map (f : CLine → CLine) (hk : ∀ c, (f c).key = c.key) (hv : ∀ c, (f c).valid = c.valid) (l : List CLine)
    (h : arrWf l = true) : arrWf (l.map f) = true := by
  induction l with
  | nil => rfl
  | cons y l ih =>
    obtain ⟨hy, hl, hw⟩ := (arrWf_cons y l).1 h
    refine (arrWf_cons _ _).2 ⟨by rw [hv]; exact hy, fun z hz => ?_, ih hw⟩
    obtain ⟨w, hw', rfl⟩ := List.mem_map.1 hz
    rw [hk, hk]; exact hl w hw'

/-- Two lines of one place are one. -/
theorem arrWf_inj (l : List CLine) (h : arrWf l = true) (x : CLine) (hx : x ∈ l) (y : CLine) (hy : y ∈ l)
    (e : x.key = y.key) : x = y := by
  induction l with
  | nil => cases hx
  | cons z l ih =>
    obtain ⟨-, hl, hw⟩ := (arrWf_cons z l).1 h
    rcases List.mem_cons.1 hx with rfl | hx'
    · rcases List.mem_cons.1 hy with rfl | hy'
      · rfl
      · exact absurd e (by have := hl y hy'; omega)
    · rcases List.mem_cons.1 hy with rfl | hy'
      · exact absurd e (by have := hl x hx'; omega)
      · exact ih hw hx' hy'

/-- A line put over a line of its own place stands in that line's stead, and nothing else changes. -/
theorem arrPut_map (c d : CLine) (l : List CLine) (h : arrWf l = true) (hd : d ∈ l) (hk : c.key = d.key) :
    arrPut c l = l.map fun x => if x.key = d.key then c else x := by
  induction l with
  | nil => cases hd
  | cons y l ih =>
    obtain ⟨-, hl, hw⟩ := (arrWf_cons y l).1 h
    unfold arrPut
    rcases List.mem_cons.1 hd with rfl | hd'
    · rw [if_neg (by omega), if_pos (by simp [hk])]
      simp only [List.map_cons, if_true, List.cons.injEq, true_and]
      refine (List.map_id l).symm.trans (List.map_congr_left fun x hx => ?_)
      rw [if_neg (by have := hl x hx; omega), id]
    · have := hl d hd'
      rw [if_pos (by omega), ih hw hd']
      simp only [List.map_cons, List.cons.injEq, and_true]
      rw [if_neg (by omega)]

theorem find?_put (p : CLine → Bool) (c d : CLine) (l : List CLine) (h : arrWf l = true) (hd : d ∈ l) (hk : c.key = d.key)
    (hp : p c = p d) :
    (arrPut c l).find? p = (l.find? p).map fun x => if x.key = d.key then c else x := by
  rw [arrPut_map c d l h hd hk, List.find?_map]
  have : ∀ l' : List CLine, (∀ x ∈ l', x ∈ l) →
      l'.find? (p ∘ fun x => if x.key = d.key then c else x) = l'.find? p := by
    intro l'
    induction l' with
    | nil => exact fun _ => rfl
    | cons y l' ih =>
      intro hsub
      have hy : (p ∘ fun x => if x.key = d.key then c else x) y = p y := by
        by_cases e : y.key = d.key
        · rw [arrWf_inj l h y (hsub y (by simp)) d hd e]; simp [hp]
        · simp [e]
      rw [List.find?_cons, List.find?_cons, hy, ih fun x hx => hsub x (by simp [hx])]
  rw [this l fun _ h => h]

/-- A valid line put over the line that stands at its place is read back by its number. -/
theorem State.lineOf_putLine (c d : CLine) (s : State) (hw : arrWf s.arr = true) (hd : s.lineOf d.line = some d)
    (hv : c.valid = true) (hk : c.key = d.key) (hl : c.line = d.line) (hr : c.resid = d.resid) :
    (s.putLine c).lineOf d.line = some c := by
  have hm := List.mem_of_find?_eq_some hd
  unfold State.lineOf State.putLine
  rw [if_pos hv]
  dsimp only
  rw [find?_put _ c d _ hw hm hk (by rw [hl, hr]), show s.arr.find? _ = some d from hd]
  simp

/-- Every other line stays as it was. -/
theorem State.lineOf_putLine_ne (c d : CLine) (s : State) (n : Nat) (hw : arrWf s.arr = true) (hd : s.lineOf d.line = some d)
    (hv : c.valid = true) (hk : c.key = d.key) (hl : c.line = d.line) (hn : n ≠ d.line) :
    (s.putLine c).lineOf n = s.lineOf n := by
  have hm := List.mem_of_find?_eq_some hd
  unfold State.lineOf State.putLine
  rw [if_pos hv]
  dsimp only
  have hn' : (d.line == n) = false := by simp [Ne.symm hn]
  rw [find?_put _ c d _ hw hm hk (by simp [hl, hn'])]
  cases hf : s.arr.find? (fun c => c.line == n && !c.resid) with
  | none => rfl
  | some x =>
    have hx := List.find?_some hf
    have hxl : x.line = n := by simpa using (Bool.and_eq_true_iff.1 hx).1
    simp only [Option.map_some, Option.some.injEq]
    rw [if_neg]
    intro e
    exact hn (by rw [← hxl, arrWf_inj _ hw x (List.mem_of_find?_eq_some hf) d hm e])

end Sys2Proof.Machine
end

