-- ==== Sys2Proof/Laws/Request.lean ====
section
/-! SUPPORT. The way of an admitted request from its port to its line, and a slice at rest between commands: what every proof
about a request of the fabric cites in place of unfolding the checks of R16, R60, R62, R97 and R128. -/

namespace Sys2Proof.Machine
open Sys2Proof

/-- A homed line's bucket is `HOME` here (R60). -/
theorem State.homed_iff {s : State} {line : Nat} (h : s.homed line = true) : s.bucketSt (bucketOf line) = .home := by
  unfold State.homed at h
  revert h
  cases s.bucketSt (bucketOf line) <;> intro h <;> first | rfl | exact absurd h (by decide)

/-- The state in which an admitted request meets its line. -/
def State.met (s : State) (r : RegUnit) (c : List (BitVec 48)) (a : List Nat) (g : List Sig) : State :=
  { s with out := [], acks := [], reg := r, ctr := c, acts := a, sig := g, power := { s.power with idle := 0, scrubWake := false } }

/-- With no injection armed and no fault waiting a lookup reads its set and nothing happens but its activity. -/
theorem State.readLookup_calm (l) (s : State) (h : s.test.inject = none) (hu : s.upsets = []) :
    s.readLookup l = (s.act 17 1).act 18 1 := by
  simp [State.readLookup, State.readTag, State.readTags, State.readDirSet, State.faults, State.act, h, hu]

/-- R447: with no injection armed and no damage waiting a configuration word is read and nothing happens. -/
@[simp] theorem State.cfgRead_calm (w) (s : State) (h : s.test.inject = none) (hu : s.upsets = []) (hb : s.bad = []) : s.cfgRead w = s := by
  simp [State.cfgRead, State.faults, h, hu, hb]

theorem State.lookupCfg_calm (w) (s : State) (h : s.test.inject = none) (hu : s.upsets = []) (hb : s.bad = []) : s.lookupCfg w = s := by
  unfold State.lookupCfg
  cases w.lens <;> simp [h, hu, hb]

/-- A speculative read takes a miss register, a memory request and its meters. -/
theorem State.speculate_shape (op q lens) (s : State) (hb : s.bad = []) :
    ∃ mem memOut memWait reg ctr hist fresh mrs out hot fab held regs acts sig,
    s.speculate op q lens = { s with mem := mem, memOut := memOut, memWait := memWait, reg := reg, ctr := ctr, hist := hist, fresh := fresh, mrs := mrs, out := out, hot := hot, fab := fab, heldOut := held, regs := regs, acts := acts, sig := sig } := by
  unfold State.speculate
  dsimp only
  split
  · generalize hr : MemReq.mk _ _ _ _ _ _ _ _ _ _ _ _ = r
    have hu : ∀ l i, r.use ≠ .wback l i := by subst hr; simp
    generalize hm : State.takeMr _ s = m
    have hmb : m.bad = [] := by rw [← hm]; exact hb
    obtain ⟨a, b, c, d, e, f, g, x, y, i, j, k, l, n, h⟩ :=
      ((State.outer_memSend r hu m).trans (State.outer_count Ev.specIssue (some q.part) _)).shape hmb
    rw [h, ← hm]
    exact ⟨_, _, _, _, _, _, _, _, _, _, _, _, _, _, _, rfl⟩
  · exact ⟨s.mem, s.memOut, s.memWait, s.reg, s.ctr, s.hist, s.fresh, s.mrs, s.out, s.hot, s.fab, s.heldOut, s.regs, s.acts, s.sig, rfl⟩

/-- An admitted request that has not been looked up enters its line at the end of its checks. -/
theorem State.Admits.homeReq {y0 x : State} {w : WaitReq} (hx : x = y0.reaches12 w)
    (h : x.Admits w.op w.q) (h1 : w.op.isNotice = false) (h2 : w.op ≠ .confirm) (h3 : w.op ≠ .cancel) (h4 : w.op.isCtl = false)
    (h5 : w.q.provisional = false) (hl : w.looked = false) (ht : w.tag = none) (hlens : w.lens = x.lensAt w.q.addr)
    (h6 : ¬((w.op = .rdUnique ∨ w.op = .upgrade) ∧ (x.descOf w.lens).reduction = true)) :
    y0.homeReq w = (((x.speculate w.op w.q w.lens).act 17 1).act 18 1).enter { w with looked := true } none none := by
  obtain ⟨op, q, cause, tag, lens, grp, looked, rung, far, rtag, age⟩ := w
  subst hl ht
  dsimp only at *
  unfold State.homeReq
  have hbeh : x.behind q none = none := by simp [State.behind, h.waiting]
  simp only [h1, beq_false_of_ne h2, beq_false_of_ne h3, Bool.or_false, Bool.false_eq_true, if_false, ← hx, hbeh, h.listed, List.any_nil,
    h.scratch, Bool.not_false, Bool.false_and]
  obtain ⟨a, b, c, d, e, f, g, i, j, k, m, n, o, p, o', hsp⟩ := State.speculate_shape op q lens x h.bad
  generalize hz : x.speculate op q lens = z at *
  have hlk : z.readLookup q.line = (z.act 17 1).act 18 1 :=
    State.readLookup_calm _ _ (by rw [hsp]; exact h.inject) (by rw [hsp]; exact h.upsets)
  rw [hlk]
  generalize hy : (z.act 17 1).act 18 1 = y
  replace hsp : y = { x with mem := a, memOut := b, memWait := c, reg := d, ctr := e, hist := f, fresh := g, mrs := i, out := j, hot := k, fab := m, heldOut := n, regs := o, acts := y.acts, sig := o' } := by rw [← hy, hsp]; rfl
  have hin : y.test.inject = none := by rw [hsp]; exact h.inject
  have hup : y.upsets = [] := by rw [hsp]; exact h.upsets
  have hdn : y.down = [] := by rw [hsp]; exact h.down
  have hsv : y.power.state = .service := by rw [hsp]; exact h.service
  have hck : y.check97 op q lens = none := by rw [hsp, hlens]; exact h.allowed
  have h8 : y.hdrWin q.line = none := by rw [hsp]; exact h.noHeader
  have h9 : y.bellOf q.line = none := by rw [hsp]; exact h.noBell
  have hr : (op == .cueRing) = false := by cases op <;> first | rfl | cases h4
  have hred : ((op == .rdUnique || op == .upgrade) && (y.descOf lens).reduction) = false := by
    have : y.descOf lens = x.descOf lens := by rw [hsp]; rfl
    rw [this]
    by_contra hc
    simp only [Bool.not_eq_false, Bool.and_eq_true, Bool.or_eq_true, beq_iff_eq] at hc
    exact h6 hc
  have hsw : y.sumWin q.line = none := by rw [hsp]; exact h.noPlane
  have hpl : y.planeWin q.line = none := by simp [State.planeWin, hsw]
  have hrec : y.reclaimLine q.line = y := by simp [State.reclaimLine, hdn]
  rw [hrec]
  unfold State.dispatch
  simp only [hsv, hck, bne_self_eq_false, h8, hr, h1, h4, h9, hred, h5, hpl, Bool.false_eq_true, if_false]

/-- The checks do not depend on meters, flits or the idle count. -/
theorem State.Admits.met {s : State} {op : ReqOp} {q : Req} (h : s.Admits op q) (r c a g) : (s.met r c a g).Admits op q := by
  constructor <;> first | exact h.prov | exact h.noHeader | exact h.noBell | exact h.noPlane | skip
  constructor <;> first | exact h.scratch | exact h.allowed | skip
  constructor <;> first | exact h.whole | exact h.flips | exact h.clean | exact h.header | exact h.home | skip
  constructor <;> first | exact h.service | skip
  constructor <;> first
    | exact h.txns | exact h.holders | exact h.buckets | exact h.after | exact h.config | exact h.phase | exact h.resilver
    | exact h.clock | exact h.reset | exact h.waiting | exact h.mrs | exact h.down | exact h.listed | exact h.hold | exact h.walks
    | exact h.ranges | exact h.folds | exact h.ports | exact h.posts | exact h.records | exact h.held | exact h.inject | exact h.upsets | exact h.bad

/-- A fold that takes every element and leaves its state. -/
theorem foldl_take {α β : Type} (f : List α × β → α → List α × β) (b : β) (l : List α)
    (h : ∀ (a : List α), ∀ x ∈ l, f (a, b) x = (a ++ [x], b)) : ∀ a, l.foldl f (a, b) = (a ++ l, b) := by
  induction l with
  | nil => simp
  | cons x l ih =>
    intro a
    rw [List.foldl_cons, h a x (by simp), ih (fun a y hy => h a y (by simp [hy]))]
    simp

/-- R19: undamaged flits are all taken. -/
theorem State.checkDat_clean (p fl) (s : State) (h : ∀ f ∈ fl, f.flips = 0) : s.checkDat p fl = (fl, s) := by
  unfold State.checkDat
  refine (foldl_take _ s fl (fun a x hx => ?_) []).trans (by simp)
  simp [State.flitCheck, h x hx]

/-- The whole way: from its port to the line, with only meters, the idle count and R128's read before it. -/
theorem State.Admits.path {s : State} {op : ReqOp} {q : Req} (h : s.Admits op q) (i : Instr)
    (h1 : op.isNotice = false) (h2 : op ≠ .confirm) (h3 : op ≠ .cancel) (h4 : op.isCtl = false) (h5 : q.provisional = false)
    (h6 : ¬((op = .rdUnique ∨ op = .upgrade) ∧ (s.descOf (s.lensAt q.addr)).reduction = true)) :
    ∃ r c a g, s.fresh0.reqFlit i op q =
      (((((s.met r c a g).speculate op q (s.lensAt q.addr)).act 17 1).act 18 1).enter
        { s.accepted op q none with looked := true } none none).tidy := by
  have hg : s.fresh0.gate = .serve := by simp [State.gate, State.fresh0, h.service, h.clock]
  unfold State.reqFlit
  rw [hg]
  obtain ⟨a, g, ha⟩ : ∃ a g, s.fresh0.reqSeen op q = { s.fresh0 with acts := a, sig := g } := ⟨_, _, rfl⟩
  rw [ha]
  generalize hb0 : ({ s.fresh0 with acts := a, sig := g } : State) = b
  rw [show b.flitCheck q.flips q.port 0 = (true, b) by simp [State.flitCheck, h.flips]]
  dsimp only
  rw [State.checkDat_clean _ _ _ h.clean]
  have hgb : b.gate = .serve := by rw [← hb0]; exact hg
  simp only [hgb, Bool.not_true, Bool.false_eq_true, if_false]
  have hacc : b.accepted op q none = s.accepted op q none := by rw [← hb0]; rfl
  rw [hacc]
  generalize hw : s.accepted op q none = w
  have hwk : b.wakeUp = { b with power := { b.power with scrubWake := false } } := by
    rw [← hb0]; simp [State.wakeUp, State.asleep, State.fresh0, h.service, h.phase]
  rw [hwk]
  clear hwk hgb hacc
  generalize hb1 : ({ b with power := { b.power with scrubWake := false } } : State) = b1
  subst hb0
  rename' b1 => b, hb1 => hb0
  have hk : (b.notIdle).keepCredit q.port = b.notIdle := by
    rw [← hb0]; simp [State.keepCredit, State.notIdle, State.fresh0, h.config]
  obtain ⟨r, hr⟩ := State.charge_shape w b.notIdle
  rw [hk, hr]
  have hrun : ∀ x : State, x.runAs (some w.grp) (some q.agent) = { x with reg := { x.reg with cur := some w.grp, curAgent := some q.agent } } :=
    fun _ => rfl
  unfold State.lookup
  have hcfg : ∀ x : RegUnit, ({ b.notIdle with reg := x } : State).lookupCfg w = { b.notIdle with reg := x } := by
    intro x; rw [← hb0]; exact State.lookupCfg_calm _ _ h.inject h.upsets h.bad
  have hrec : ∀ x : RegUnit, (({ b.notIdle with reg := x } : State).power.state == .recovery) = false := by
    intro x; rw [← hb0]; simp [State.notIdle, State.fresh0, h.service]
  have hd : ∀ x, ({ b.notIdle with reg := x } : State).isDown q.agent = false := by
    intro x; rw [← hb0]; simp [State.isDown, State.notIdle, State.fresh0, h.down]
  have hb : ∀ x, ({ b.notIdle with reg := x } : State).badHeader op q = false := by intro x; rw [← hb0]; exact h.header
  have hh : ∀ x, ({ b.notIdle with reg := x } : State).bucketSt (bucketOf q.line) = .home :=
    by intro x; rw [← hb0]; exact State.homed_iff h.home
  have e1 : w.op = op := by rw [← hw]; rfl
  have e2 : w.q = q := by rw [← hw]; rfl
  have hnf : ∀ x : State, x.notFar w = (w, x) := by intro x; rw [← hw]; rfl
  have hst : (BState.home == BState.relay || BState.home == BState.outgoing) = false := rfl
  simp only [e1, e2, hrun, hcfg, hrec, hh, hst, hnf, Bool.false_eq_true, if_false]
  simp only [hd, hb, Bool.and_false, Bool.false_eq_true, if_false]
  have hbad : ∀ x : RegUnit, ({ b.notIdle with reg := x } : State).bad = [] := by intro x; rw [← hb0]; exact h.bad
  subst hb0
  generalize hr2 : ({ r with cur := some w.grp, curAgent := some q.agent } : RegUnit) = r2
  generalize hy0 : ({ State.notIdle { s.fresh0 with acts := a, sig := g, power := { s.fresh0.power with scrubWake := false } } with reg := r2 } : State) = y0
  have hx : y0.reaches12 w = s.met r2 (y0.reaches12 w).ctr a (y0.reaches12 w).sig := by
    have h1 : y0.bad = [] := by rw [← hy0]; exact h.bad
    have h2 : w.looked = false := by rw [← hw]; rfl
    unfold State.reaches12
    rw [h2]
    simp only [Bool.false_eq_true, if_false, State.count, State.sign]
    rw [State.countN_calm _ _ _ _ h1, ← hy0]
    rfl
  refine ⟨r2, (y0.reaches12 w).ctr, a, (y0.reaches12 w).sig, congrArg State.tidy ?_⟩
  have key := State.Admits.homeReq (y0 := y0) (w := w) hx.symm
    (by rw [e1, e2]; exact h.met _ _ _ _) (by rw [e1]; exact h1)
    (by rw [e1]; exact h2) (by rw [e1]; exact h3) (by rw [e1]; exact h4) (by rw [e2]; exact h5) (by rw [← hw]; rfl) (by rw [← hw]; rfl)
    (by rw [← hw]; rfl) (by rw [e1, ← hw]; exact h6)
  rw [key, e1, e2, ← hw]
  rfl

/-- A fold of steps that change nothing. -/
theorem foldl_id {α : Type} (f : State → α → State) (l : List α) (s : State) (h : ∀ a ∈ l, f s a = s) : l.foldl f s = s := by
  induction l with
  | nil => rfl
  | cons a l ih => rw [List.foldl_cons, h a (by simp), ih fun b hb => h b (by simp [hb])]

/-- A slice with nothing in progress stays as it is. -/
theorem State.Still.tidy {s : State} (h : s.Still) (hp : s.prov = []) : s.tidy = s := by
  have h8 : s.cfgVoid = s := by simp [State.cfgVoid, h.config]
  have h7 : s.provsGo = s := by simp [State.provsGo, hp]
  have h1 : s.holdersGo = s := by
    unfold State.holdersGo
    simp only [h.holders, List.foldl_nil]
    rw [← h.holders]
  have h2 : s.pumpOps = s := by simp [State.pumpOps, h.txns]
  have h6 : s.ctlGo = s := by simp [State.ctlGo, h.txns]
  have h3 : s.winsGo = s := by
    unfold State.winsGo
    refine foldl_id _ _ _ fun w _ => ?_
    have : (s.win w).after = [] := by
      unfold State.win
      rw [List.getD_eq_getElem?_getD]
      cases hw : s.wins[w]? with
      | none => rfl
      | some x => exact h.after x (List.mem_of_getElem? hw)
    rw [this]; rfl
  have h4 : s.releasesGo = s := by simp [State.releasesGo, h.buckets]
  have h5 : s.drainGo = s := by
    simp [State.drainGo, State.drainLeft, h.config, h.phase, h.resilver]
  unfold State.tidy
  rw [h8, h7, h1, h2, h6, h3, h2, h4, h5, ite_self]

/-- R183: with no agent down there is nothing to reclaim. -/
theorem State.reclaimLine_calm (l) (s : State) (h : s.down = []) : s.reclaimLine l = s := by
  simp [State.reclaimLine, h]

end Sys2Proof.Machine
end

