-- ==== Sys2Proof/Laws/State.lean ====
section
/-! SUPPORT. The fields of the state under each of its small updates: what an update leaves alone, once for every field, so that no
proof unfolds a record update. -/

namespace Sys2Proof.Machine
open Sys2Proof

/-! ### The start of every meaning -/

@[simp] theorem State.fresh0_fab (s : State) : (s.fresh0).fab = s.fab := rfl
@[simp] theorem State.fresh0_mem (s : State) : (s.fresh0).mem = s.mem := rfl
@[simp] theorem State.fresh0_heldOut (s : State) : (s.fresh0).heldOut = s.heldOut := rfl
@[simp] theorem State.fresh0_memWait (s : State) : (s.fresh0).memWait = s.memWait := rfl
@[simp] theorem State.fresh0_memOut (s : State) : (s.fresh0).memOut = s.memOut := rfl
@[simp] theorem State.fresh0_cfg (s : State) : (s.fresh0).cfg = s.cfg := rfl
@[simp] theorem State.fresh0_arr (s : State) : (s.fresh0).arr = s.arr := rfl
@[simp] theorem State.fresh0_dir (s : State) : (s.fresh0).dir = s.dir := rfl
@[simp] theorem State.fresh0_rot (s : State) : (s.fresh0).rot = s.rot := rfl
@[simp] theorem State.fresh0_wbb (s : State) : (s.fresh0).wbb = s.wbb := rfl
@[simp] theorem State.fresh0_mrs (s : State) : (s.fresh0).mrs = s.mrs := rfl
@[simp] theorem State.fresh0_txns (s : State) : (s.fresh0).txns = s.txns := rfl
@[simp] theorem State.fresh0_nextId (s : State) : (s.fresh0).nextId = s.nextId := rfl
@[simp] theorem State.fresh0_waiting (s : State) : (s.fresh0).waiting = s.waiting := rfl
@[simp] theorem State.fresh0_prov (s : State) : (s.fresh0).prov = s.prov := rfl
@[simp] theorem State.fresh0_wins (s : State) : (s.fresh0).wins = s.wins := rfl
@[simp] theorem State.fresh0_folds (s : State) : (s.fresh0).folds = s.folds := rfl
@[simp] theorem State.fresh0_lanes (s : State) : (s.fresh0).lanes = s.lanes := rfl
@[simp] theorem State.fresh0_lens (s : State) : (s.fresh0).lens = s.lens := rfl
@[simp] theorem State.fresh0_cue (s : State) : (s.fresh0).cue = s.cue := rfl
@[simp] theorem State.fresh0_xlt (s : State) : (s.fresh0).xlt = s.xlt := rfl
@[simp] theorem State.fresh0_hot (s : State) : (s.fresh0).hot = s.hot := rfl
@[simp] theorem State.fresh0_presc (s : State) : (s.fresh0).presc = s.presc := rfl
@[simp] theorem State.fresh0_mbs (s : State) : (s.fresh0).mbs = s.mbs := rfl
@[simp] theorem State.fresh0_pws (s : State) : (s.fresh0).pws = s.pws := rfl
@[simp] theorem State.fresh0_regs (s : State) : (s.fresh0).regs = s.regs := rfl
@[simp] theorem State.fresh0_elog (s : State) : (s.fresh0).elog = s.elog := rfl
@[simp] theorem State.fresh0_meas (s : State) : (s.fresh0).meas = s.meas := rfl
@[simp] theorem State.fresh0_ctr (s : State) : (s.fresh0).ctr = s.ctr := rfl
@[simp] theorem State.fresh0_hist (s : State) : (s.fresh0).hist = s.hist := rfl
@[simp] theorem State.fresh0_power (s : State) : (s.fresh0).power = s.power := rfl
@[simp] theorem State.fresh0_fuses (s : State) : (s.fresh0).fuses = s.fuses := rfl
@[simp] theorem State.fresh0_res (s : State) : (s.fresh0).res = s.res := rfl
@[simp] theorem State.fresh0_hand (s : State) : (s.fresh0).hand = s.hand := rfl
@[simp] theorem State.fresh0_down (s : State) : (s.fresh0).down = s.down := rfl
@[simp] theorem State.fresh0_ranges (s : State) : (s.fresh0).ranges = s.ranges := rfl
@[simp] theorem State.fresh0_walks (s : State) : (s.fresh0).walks = s.walks := rfl
@[simp] theorem State.fresh0_span (s : State) : (s.fresh0).span = s.span := rfl
@[simp] theorem State.fresh0_test (s : State) : (s.fresh0).test = s.test := rfl
@[simp] theorem State.fresh0_upsets (s : State) : (s.fresh0).upsets = s.upsets := rfl
@[simp] theorem State.fresh0_bad (s : State) : (s.fresh0).bad = s.bad := rfl
@[simp] theorem State.fresh0_acts (s : State) : (s.fresh0).acts = s.acts := rfl
@[simp] theorem State.fresh0_ctrBit (s : State) : (s.fresh0).ctrBit = s.ctrBit := rfl
@[simp] theorem State.fresh0_fresh (s : State) : (s.fresh0).fresh = s.fresh := rfl
@[simp] theorem State.fresh0_pending (s : State) : (s.fresh0).pending = s.pending := rfl

/-! ### A log record -/

@[simp] theorem State.log_fab (r : LogIn) (s : State) : (s.log r).fab = s.fab := rfl
@[simp] theorem State.log_mem (r : LogIn) (s : State) : (s.log r).mem = s.mem := rfl
@[simp] theorem State.log_heldOut (r : LogIn) (s : State) : (s.log r).heldOut = s.heldOut := rfl
@[simp] theorem State.log_memWait (r : LogIn) (s : State) : (s.log r).memWait = s.memWait := rfl
@[simp] theorem State.log_memOut (r : LogIn) (s : State) : (s.log r).memOut = s.memOut := rfl
@[simp] theorem State.log_cfg (r : LogIn) (s : State) : (s.log r).cfg = s.cfg := rfl
@[simp] theorem State.log_arr (r : LogIn) (s : State) : (s.log r).arr = s.arr := rfl
@[simp] theorem State.log_dir (r : LogIn) (s : State) : (s.log r).dir = s.dir := rfl
@[simp] theorem State.log_rot (r : LogIn) (s : State) : (s.log r).rot = s.rot := rfl
@[simp] theorem State.log_wbb (r : LogIn) (s : State) : (s.log r).wbb = s.wbb := rfl
@[simp] theorem State.log_mrs (r : LogIn) (s : State) : (s.log r).mrs = s.mrs := rfl
@[simp] theorem State.log_txns (r : LogIn) (s : State) : (s.log r).txns = s.txns := rfl
@[simp] theorem State.log_nextId (r : LogIn) (s : State) : (s.log r).nextId = s.nextId := rfl
@[simp] theorem State.log_waiting (r : LogIn) (s : State) : (s.log r).waiting = s.waiting := rfl
@[simp] theorem State.log_prov (r : LogIn) (s : State) : (s.log r).prov = s.prov := rfl
@[simp] theorem State.log_wins (r : LogIn) (s : State) : (s.log r).wins = s.wins := rfl
@[simp] theorem State.log_folds (r : LogIn) (s : State) : (s.log r).folds = s.folds := rfl
@[simp] theorem State.log_lanes (r : LogIn) (s : State) : (s.log r).lanes = s.lanes := rfl
@[simp] theorem State.log_lens (r : LogIn) (s : State) : (s.log r).lens = s.lens := rfl
@[simp] theorem State.log_reg (r : LogIn) (s : State) : (s.log r).reg = s.reg := rfl
@[simp] theorem State.log_cue (r : LogIn) (s : State) : (s.log r).cue = s.cue := rfl
@[simp] theorem State.log_xlt (r : LogIn) (s : State) : (s.log r).xlt = s.xlt := rfl
@[simp] theorem State.log_hot (r : LogIn) (s : State) : (s.log r).hot = s.hot := rfl
@[simp] theorem State.log_presc (r : LogIn) (s : State) : (s.log r).presc = s.presc := rfl
@[simp] theorem State.log_mbs (r : LogIn) (s : State) : (s.log r).mbs = s.mbs := rfl
@[simp] theorem State.log_pws (r : LogIn) (s : State) : (s.log r).pws = s.pws := rfl
@[simp] theorem State.log_regs (r : LogIn) (s : State) : (s.log r).regs = s.regs := rfl
@[simp] theorem State.log_meas (r : LogIn) (s : State) : (s.log r).meas = s.meas := rfl
@[simp] theorem State.log_ctr (r : LogIn) (s : State) : (s.log r).ctr = s.ctr := rfl
@[simp] theorem State.log_hist (r : LogIn) (s : State) : (s.log r).hist = s.hist := rfl
@[simp] theorem State.log_power (r : LogIn) (s : State) : (s.log r).power = s.power := rfl
@[simp] theorem State.log_fuses (r : LogIn) (s : State) : (s.log r).fuses = s.fuses := rfl
@[simp] theorem State.log_res (r : LogIn) (s : State) : (s.log r).res = s.res := rfl
@[simp] theorem State.log_hand (r : LogIn) (s : State) : (s.log r).hand = s.hand := rfl
@[simp] theorem State.log_down (r : LogIn) (s : State) : (s.log r).down = s.down := rfl
@[simp] theorem State.log_acks (r : LogIn) (s : State) : (s.log r).acks = s.acks := rfl
@[simp] theorem State.log_ranges (r : LogIn) (s : State) : (s.log r).ranges = s.ranges := rfl
@[simp] theorem State.log_walks (r : LogIn) (s : State) : (s.log r).walks = s.walks := rfl
@[simp] theorem State.log_span (r : LogIn) (s : State) : (s.log r).span = s.span := rfl
@[simp] theorem State.log_test (r : LogIn) (s : State) : (s.log r).test = s.test := rfl
@[simp] theorem State.log_upsets (r : LogIn) (s : State) : (s.log r).upsets = s.upsets := rfl
@[simp] theorem State.log_bad (r : LogIn) (s : State) : (s.log r).bad = s.bad := rfl
@[simp] theorem State.log_acts (r : LogIn) (s : State) : (s.log r).acts = s.acts := rfl
@[simp] theorem State.log_sig (r : LogIn) (s : State) : (s.log r).sig = s.sig := rfl
@[simp] theorem State.log_ctrBit (r : LogIn) (s : State) : (s.log r).ctrBit = s.ctrBit := rfl
@[simp] theorem State.log_fresh (r : LogIn) (s : State) : (s.log r).fresh = s.fresh := rfl
@[simp] theorem State.log_out (r : LogIn) (s : State) : (s.log r).out = s.out := rfl
@[simp] theorem State.log_pending (r : LogIn) (s : State) : (s.log r).pending = s.pending := rfl

/-! ### A group's balance -/

@[simp] theorem State.setBal_fab (g r : Nat) (f : Bal → Bal) (s : State) : (s.setBal g r f).fab = s.fab := rfl
@[simp] theorem State.setBal_mem (g r : Nat) (f : Bal → Bal) (s : State) : (s.setBal g r f).mem = s.mem := rfl
@[simp] theorem State.setBal_heldOut (g r : Nat) (f : Bal → Bal) (s : State) : (s.setBal g r f).heldOut = s.heldOut := rfl
@[simp] theorem State.setBal_memWait (g r : Nat) (f : Bal → Bal) (s : State) : (s.setBal g r f).memWait = s.memWait := rfl
@[simp] theorem State.setBal_memOut (g r : Nat) (f : Bal → Bal) (s : State) : (s.setBal g r f).memOut = s.memOut := rfl
@[simp] theorem State.setBal_cfg (g r : Nat) (f : Bal → Bal) (s : State) : (s.setBal g r f).cfg = s.cfg := rfl
@[simp] theorem State.setBal_arr (g r : Nat) (f : Bal → Bal) (s : State) : (s.setBal g r f).arr = s.arr := rfl
@[simp] theorem State.setBal_dir (g r : Nat) (f : Bal → Bal) (s : State) : (s.setBal g r f).dir = s.dir := rfl
@[simp] theorem State.setBal_rot (g r : Nat) (f : Bal → Bal) (s : State) : (s.setBal g r f).rot = s.rot := rfl
@[simp] theorem State.setBal_wbb (g r : Nat) (f : Bal → Bal) (s : State) : (s.setBal g r f).wbb = s.wbb := rfl
@[simp] theorem State.setBal_mrs (g r : Nat) (f : Bal → Bal) (s : State) : (s.setBal g r f).mrs = s.mrs := rfl
@[simp] theorem State.setBal_txns (g r : Nat) (f : Bal → Bal) (s : State) : (s.setBal g r f).txns = s.txns := rfl
@[simp] theorem State.setBal_nextId (g r : Nat) (f : Bal → Bal) (s : State) : (s.setBal g r f).nextId = s.nextId := rfl
@[simp] theorem State.setBal_waiting (g r : Nat) (f : Bal → Bal) (s : State) : (s.setBal g r f).waiting = s.waiting := rfl
@[simp] theorem State.setBal_prov (g r : Nat) (f : Bal → Bal) (s : State) : (s.setBal g r f).prov = s.prov := rfl
@[simp] theorem State.setBal_wins (g r : Nat) (f : Bal → Bal) (s : State) : (s.setBal g r f).wins = s.wins := rfl
@[simp] theorem State.setBal_folds (g r : Nat) (f : Bal → Bal) (s : State) : (s.setBal g r f).folds = s.folds := rfl
@[simp] theorem State.setBal_lanes (g r : Nat) (f : Bal → Bal) (s : State) : (s.setBal g r f).lanes = s.lanes := rfl
@[simp] theorem State.setBal_lens (g r : Nat) (f : Bal → Bal) (s : State) : (s.setBal g r f).lens = s.lens := rfl
@[simp] theorem State.setBal_cue (g r : Nat) (f : Bal → Bal) (s : State) : (s.setBal g r f).cue = s.cue := rfl
@[simp] theorem State.setBal_xlt (g r : Nat) (f : Bal → Bal) (s : State) : (s.setBal g r f).xlt = s.xlt := rfl
@[simp] theorem State.setBal_hot (g r : Nat) (f : Bal → Bal) (s : State) : (s.setBal g r f).hot = s.hot := rfl
@[simp] theorem State.setBal_presc (g r : Nat) (f : Bal → Bal) (s : State) : (s.setBal g r f).presc = s.presc := rfl
@[simp] theorem State.setBal_mbs (g r : Nat) (f : Bal → Bal) (s : State) : (s.setBal g r f).mbs = s.mbs := rfl
@[simp] theorem State.setBal_pws (g r : Nat) (f : Bal → Bal) (s : State) : (s.setBal g r f).pws = s.pws := rfl
@[simp] theorem State.setBal_regs (g r : Nat) (f : Bal → Bal) (s : State) : (s.setBal g r f).regs = s.regs := rfl
@[simp] theorem State.setBal_elog (g r : Nat) (f : Bal → Bal) (s : State) : (s.setBal g r f).elog = s.elog := rfl
@[simp] theorem State.setBal_meas (g r : Nat) (f : Bal → Bal) (s : State) : (s.setBal g r f).meas = s.meas := rfl
@[simp] theorem State.setBal_ctr (g r : Nat) (f : Bal → Bal) (s : State) : (s.setBal g r f).ctr = s.ctr := rfl
@[simp] theorem State.setBal_hist (g r : Nat) (f : Bal → Bal) (s : State) : (s.setBal g r f).hist = s.hist := rfl
@[simp] theorem State.setBal_power (g r : Nat) (f : Bal → Bal) (s : State) : (s.setBal g r f).power = s.power := rfl
@[simp] theorem State.setBal_fuses (g r : Nat) (f : Bal → Bal) (s : State) : (s.setBal g r f).fuses = s.fuses := rfl
@[simp] theorem State.setBal_res (g r : Nat) (f : Bal → Bal) (s : State) : (s.setBal g r f).res = s.res := rfl
@[simp] theorem State.setBal_hand (g r : Nat) (f : Bal → Bal) (s : State) : (s.setBal g r f).hand = s.hand := rfl
@[simp] theorem State.setBal_down (g r : Nat) (f : Bal → Bal) (s : State) : (s.setBal g r f).down = s.down := rfl
@[simp] theorem State.setBal_acks (g r : Nat) (f : Bal → Bal) (s : State) : (s.setBal g r f).acks = s.acks := rfl
@[simp] theorem State.setBal_ranges (g r : Nat) (f : Bal → Bal) (s : State) : (s.setBal g r f).ranges = s.ranges := rfl
@[simp] theorem State.setBal_walks (g r : Nat) (f : Bal → Bal) (s : State) : (s.setBal g r f).walks = s.walks := rfl
@[simp] theorem State.setBal_span (g r : Nat) (f : Bal → Bal) (s : State) : (s.setBal g r f).span = s.span := rfl
@[simp] theorem State.setBal_test (g r : Nat) (f : Bal → Bal) (s : State) : (s.setBal g r f).test = s.test := rfl
@[simp] theorem State.setBal_upsets (g r : Nat) (f : Bal → Bal) (s : State) : (s.setBal g r f).upsets = s.upsets := rfl
@[simp] theorem State.setBal_bad (g r : Nat) (f : Bal → Bal) (s : State) : (s.setBal g r f).bad = s.bad := rfl
@[simp] theorem State.setBal_acts (g r : Nat) (f : Bal → Bal) (s : State) : (s.setBal g r f).acts = s.acts := rfl
@[simp] theorem State.setBal_sig (g r : Nat) (f : Bal → Bal) (s : State) : (s.setBal g r f).sig = s.sig := rfl
@[simp] theorem State.setBal_ctrBit (g r : Nat) (f : Bal → Bal) (s : State) : (s.setBal g r f).ctrBit = s.ctrBit := rfl
@[simp] theorem State.setBal_fresh (g r : Nat) (f : Bal → Bal) (s : State) : (s.setBal g r f).fresh = s.fresh := rfl
@[simp] theorem State.setBal_out (g r : Nat) (f : Bal → Bal) (s : State) : (s.setBal g r f).out = s.out := rfl
@[simp] theorem State.setBal_pending (g r : Nat) (f : Bal → Bal) (s : State) : (s.setBal g r f).pending = s.pending := rfl

/-! ### The group whose work runs -/

@[simp] theorem State.runAs_fab (g : Option Nat) (a : Option Nat) (s : State) : (s.runAs g a).fab = s.fab := rfl
@[simp] theorem State.runAs_mem (g : Option Nat) (a : Option Nat) (s : State) : (s.runAs g a).mem = s.mem := rfl
@[simp] theorem State.runAs_heldOut (g : Option Nat) (a : Option Nat) (s : State) : (s.runAs g a).heldOut = s.heldOut := rfl
@[simp] theorem State.runAs_memWait (g : Option Nat) (a : Option Nat) (s : State) : (s.runAs g a).memWait = s.memWait := rfl
@[simp] theorem State.runAs_memOut (g : Option Nat) (a : Option Nat) (s : State) : (s.runAs g a).memOut = s.memOut := rfl
@[simp] theorem State.runAs_cfg (g : Option Nat) (a : Option Nat) (s : State) : (s.runAs g a).cfg = s.cfg := rfl
@[simp] theorem State.runAs_arr (g : Option Nat) (a : Option Nat) (s : State) : (s.runAs g a).arr = s.arr := rfl
@[simp] theorem State.runAs_dir (g : Option Nat) (a : Option Nat) (s : State) : (s.runAs g a).dir = s.dir := rfl
@[simp] theorem State.runAs_rot (g : Option Nat) (a : Option Nat) (s : State) : (s.runAs g a).rot = s.rot := rfl
@[simp] theorem State.runAs_wbb (g : Option Nat) (a : Option Nat) (s : State) : (s.runAs g a).wbb = s.wbb := rfl
@[simp] theorem State.runAs_mrs (g : Option Nat) (a : Option Nat) (s : State) : (s.runAs g a).mrs = s.mrs := rfl
@[simp] theorem State.runAs_txns (g : Option Nat) (a : Option Nat) (s : State) : (s.runAs g a).txns = s.txns := rfl
@[simp] theorem State.runAs_nextId (g : Option Nat) (a : Option Nat) (s : State) : (s.runAs g a).nextId = s.nextId := rfl
@[simp] theorem State.runAs_waiting (g : Option Nat) (a : Option Nat) (s : State) : (s.runAs g a).waiting = s.waiting := rfl
@[simp] theorem State.runAs_prov (g : Option Nat) (a : Option Nat) (s : State) : (s.runAs g a).prov = s.prov := rfl
@[simp] theorem State.runAs_wins (g : Option Nat) (a : Option Nat) (s : State) : (s.runAs g a).wins = s.wins := rfl
@[simp] theorem State.runAs_folds (g : Option Nat) (a : Option Nat) (s : State) : (s.runAs g a).folds = s.folds := rfl
@[simp] theorem State.runAs_lanes (g : Option Nat) (a : Option Nat) (s : State) : (s.runAs g a).lanes = s.lanes := rfl
@[simp] theorem State.runAs_lens (g : Option Nat) (a : Option Nat) (s : State) : (s.runAs g a).lens = s.lens := rfl
@[simp] theorem State.runAs_cue (g : Option Nat) (a : Option Nat) (s : State) : (s.runAs g a).cue = s.cue := rfl
@[simp] theorem State.runAs_xlt (g : Option Nat) (a : Option Nat) (s : State) : (s.runAs g a).xlt = s.xlt := rfl
@[simp] theorem State.runAs_hot (g : Option Nat) (a : Option Nat) (s : State) : (s.runAs g a).hot = s.hot := rfl
@[simp] theorem State.runAs_presc (g : Option Nat) (a : Option Nat) (s : State) : (s.runAs g a).presc = s.presc := rfl
@[simp] theorem State.runAs_mbs (g : Option Nat) (a : Option Nat) (s : State) : (s.runAs g a).mbs = s.mbs := rfl
@[simp] theorem State.runAs_pws (g : Option Nat) (a : Option Nat) (s : State) : (s.runAs g a).pws = s.pws := rfl
@[simp] theorem State.runAs_regs (g : Option Nat) (a : Option Nat) (s : State) : (s.runAs g a).regs = s.regs := rfl
@[simp] theorem State.runAs_elog (g : Option Nat) (a : Option Nat) (s : State) : (s.runAs g a).elog = s.elog := rfl
@[simp] theorem State.runAs_meas (g : Option Nat) (a : Option Nat) (s : State) : (s.runAs g a).meas = s.meas := rfl
@[simp] theorem State.runAs_ctr (g : Option Nat) (a : Option Nat) (s : State) : (s.runAs g a).ctr = s.ctr := rfl
@[simp] theorem State.runAs_hist (g : Option Nat) (a : Option Nat) (s : State) : (s.runAs g a).hist = s.hist := rfl
@[simp] theorem State.runAs_power (g : Option Nat) (a : Option Nat) (s : State) : (s.runAs g a).power = s.power := rfl
@[simp] theorem State.runAs_fuses (g : Option Nat) (a : Option Nat) (s : State) : (s.runAs g a).fuses = s.fuses := rfl
@[simp] theorem State.runAs_res (g : Option Nat) (a : Option Nat) (s : State) : (s.runAs g a).res = s.res := rfl
@[simp] theorem State.runAs_hand (g : Option Nat) (a : Option Nat) (s : State) : (s.runAs g a).hand = s.hand := rfl
@[simp] theorem State.runAs_down (g : Option Nat) (a : Option Nat) (s : State) : (s.runAs g a).down = s.down := rfl
@[simp] theorem State.runAs_acks (g : Option Nat) (a : Option Nat) (s : State) : (s.runAs g a).acks = s.acks := rfl
@[simp] theorem State.runAs_ranges (g : Option Nat) (a : Option Nat) (s : State) : (s.runAs g a).ranges = s.ranges := rfl
@[simp] theorem State.runAs_walks (g : Option Nat) (a : Option Nat) (s : State) : (s.runAs g a).walks = s.walks := rfl
@[simp] theorem State.runAs_span (g : Option Nat) (a : Option Nat) (s : State) : (s.runAs g a).span = s.span := rfl
@[simp] theorem State.runAs_test (g : Option Nat) (a : Option Nat) (s : State) : (s.runAs g a).test = s.test := rfl
@[simp] theorem State.runAs_upsets (g : Option Nat) (a : Option Nat) (s : State) : (s.runAs g a).upsets = s.upsets := rfl
@[simp] theorem State.runAs_bad (g : Option Nat) (a : Option Nat) (s : State) : (s.runAs g a).bad = s.bad := rfl
@[simp] theorem State.runAs_acts (g : Option Nat) (a : Option Nat) (s : State) : (s.runAs g a).acts = s.acts := rfl
@[simp] theorem State.runAs_sig (g : Option Nat) (a : Option Nat) (s : State) : (s.runAs g a).sig = s.sig := rfl
@[simp] theorem State.runAs_ctrBit (g : Option Nat) (a : Option Nat) (s : State) : (s.runAs g a).ctrBit = s.ctrBit := rfl
@[simp] theorem State.runAs_fresh (g : Option Nat) (a : Option Nat) (s : State) : (s.runAs g a).fresh = s.fresh := rfl
@[simp] theorem State.runAs_out (g : Option Nat) (a : Option Nat) (s : State) : (s.runAs g a).out = s.out := rfl
@[simp] theorem State.runAs_pending (g : Option Nat) (a : Option Nat) (s : State) : (s.runAs g a).pending = s.pending := rfl

/-! ### A window -/

@[simp] theorem State.setWin_fab (w : Nat) (f : Window → Window) (s : State) : (s.setWin w f).fab = s.fab := rfl
@[simp] theorem State.setWin_mem (w : Nat) (f : Window → Window) (s : State) : (s.setWin w f).mem = s.mem := rfl
@[simp] theorem State.setWin_heldOut (w : Nat) (f : Window → Window) (s : State) : (s.setWin w f).heldOut = s.heldOut := rfl
@[simp] theorem State.setWin_memWait (w : Nat) (f : Window → Window) (s : State) : (s.setWin w f).memWait = s.memWait := rfl
@[simp] theorem State.setWin_memOut (w : Nat) (f : Window → Window) (s : State) : (s.setWin w f).memOut = s.memOut := rfl
@[simp] theorem State.setWin_cfg (w : Nat) (f : Window → Window) (s : State) : (s.setWin w f).cfg = s.cfg := rfl
@[simp] theorem State.setWin_arr (w : Nat) (f : Window → Window) (s : State) : (s.setWin w f).arr = s.arr := rfl
@[simp] theorem State.setWin_dir (w : Nat) (f : Window → Window) (s : State) : (s.setWin w f).dir = s.dir := rfl
@[simp] theorem State.setWin_rot (w : Nat) (f : Window → Window) (s : State) : (s.setWin w f).rot = s.rot := rfl
@[simp] theorem State.setWin_wbb (w : Nat) (f : Window → Window) (s : State) : (s.setWin w f).wbb = s.wbb := rfl
@[simp] theorem State.setWin_mrs (w : Nat) (f : Window → Window) (s : State) : (s.setWin w f).mrs = s.mrs := rfl
@[simp] theorem State.setWin_txns (w : Nat) (f : Window → Window) (s : State) : (s.setWin w f).txns = s.txns := rfl
@[simp] theorem State.setWin_nextId (w : Nat) (f : Window → Window) (s : State) : (s.setWin w f).nextId = s.nextId := rfl
@[simp] theorem State.setWin_waiting (w : Nat) (f : Window → Window) (s : State) : (s.setWin w f).waiting = s.waiting := rfl
@[simp] theorem State.setWin_prov (w : Nat) (f : Window → Window) (s : State) : (s.setWin w f).prov = s.prov := rfl
@[simp] theorem State.setWin_folds (w : Nat) (f : Window → Window) (s : State) : (s.setWin w f).folds = s.folds := rfl
@[simp] theorem State.setWin_lanes (w : Nat) (f : Window → Window) (s : State) : (s.setWin w f).lanes = s.lanes := rfl
@[simp] theorem State.setWin_lens (w : Nat) (f : Window → Window) (s : State) : (s.setWin w f).lens = s.lens := rfl
@[simp] theorem State.setWin_reg (w : Nat) (f : Window → Window) (s : State) : (s.setWin w f).reg = s.reg := rfl
@[simp] theorem State.setWin_cue (w : Nat) (f : Window → Window) (s : State) : (s.setWin w f).cue = s.cue := rfl
@[simp] theorem State.setWin_xlt (w : Nat) (f : Window → Window) (s : State) : (s.setWin w f).xlt = s.xlt := rfl
@[simp] theorem State.setWin_hot (w : Nat) (f : Window → Window) (s : State) : (s.setWin w f).hot = s.hot := rfl
@[simp] theorem State.setWin_presc (w : Nat) (f : Window → Window) (s : State) : (s.setWin w f).presc = s.presc := rfl
@[simp] theorem State.setWin_mbs (w : Nat) (f : Window → Window) (s : State) : (s.setWin w f).mbs = s.mbs := rfl
@[simp] theorem State.setWin_pws (w : Nat) (f : Window → Window) (s : State) : (s.setWin w f).pws = s.pws := rfl
@[simp] theorem State.setWin_regs (w : Nat) (f : Window → Window) (s : State) : (s.setWin w f).regs = s.regs := rfl
@[simp] theorem State.setWin_elog (w : Nat) (f : Window → Window) (s : State) : (s.setWin w f).elog = s.elog := rfl
@[simp] theorem State.setWin_meas (w : Nat) (f : Window → Window) (s : State) : (s.setWin w f).meas = s.meas := rfl
@[simp] theorem State.setWin_ctr (w : Nat) (f : Window → Window) (s : State) : (s.setWin w f).ctr = s.ctr := rfl
@[simp] theorem State.setWin_hist (w : Nat) (f : Window → Window) (s : State) : (s.setWin w f).hist = s.hist := rfl
@[simp] theorem State.setWin_power (w : Nat) (f : Window → Window) (s : State) : (s.setWin w f).power = s.power := rfl
@[simp] theorem State.setWin_fuses (w : Nat) (f : Window → Window) (s : State) : (s.setWin w f).fuses = s.fuses := rfl
@[simp] theorem State.setWin_res (w : Nat) (f : Window → Window) (s : State) : (s.setWin w f).res = s.res := rfl
@[simp] theorem State.setWin_hand (w : Nat) (f : Window → Window) (s : State) : (s.setWin w f).hand = s.hand := rfl
@[simp] theorem State.setWin_down (w : Nat) (f : Window → Window) (s : State) : (s.setWin w f).down = s.down := rfl
@[simp] theorem State.setWin_acks (w : Nat) (f : Window → Window) (s : State) : (s.setWin w f).acks = s.acks := rfl
@[simp] theorem State.setWin_ranges (w : Nat) (f : Window → Window) (s : State) : (s.setWin w f).ranges = s.ranges := rfl
@[simp] theorem State.setWin_walks (w : Nat) (f : Window → Window) (s : State) : (s.setWin w f).walks = s.walks := rfl
@[simp] theorem State.setWin_span (w : Nat) (f : Window → Window) (s : State) : (s.setWin w f).span = s.span := rfl
@[simp] theorem State.setWin_test (w : Nat) (f : Window → Window) (s : State) : (s.setWin w f).test = s.test := rfl
@[simp] theorem State.setWin_upsets (w : Nat) (f : Window → Window) (s : State) : (s.setWin w f).upsets = s.upsets := rfl
@[simp] theorem State.setWin_bad (w : Nat) (f : Window → Window) (s : State) : (s.setWin w f).bad = s.bad := rfl
@[simp] theorem State.setWin_acts (w : Nat) (f : Window → Window) (s : State) : (s.setWin w f).acts = s.acts := rfl
@[simp] theorem State.setWin_sig (w : Nat) (f : Window → Window) (s : State) : (s.setWin w f).sig = s.sig := rfl
@[simp] theorem State.setWin_ctrBit (w : Nat) (f : Window → Window) (s : State) : (s.setWin w f).ctrBit = s.ctrBit := rfl
@[simp] theorem State.setWin_fresh (w : Nat) (f : Window → Window) (s : State) : (s.setWin w f).fresh = s.fresh := rfl
@[simp] theorem State.setWin_out (w : Nat) (f : Window → Window) (s : State) : (s.setWin w f).out = s.out := rfl
@[simp] theorem State.setWin_pending (w : Nat) (f : Window → Window) (s : State) : (s.setWin w f).pending = s.pending := rfl

/-! ### A lens slot -/

@[simp] theorem State.setLens_fab (i : Nat) (f : LensSlot → LensSlot) (s : State) : (s.setLens i f).fab = s.fab := rfl
@[simp] theorem State.setLens_mem (i : Nat) (f : LensSlot → LensSlot) (s : State) : (s.setLens i f).mem = s.mem := rfl
@[simp] theorem State.setLens_heldOut (i : Nat) (f : LensSlot → LensSlot) (s : State) : (s.setLens i f).heldOut = s.heldOut := rfl
@[simp] theorem State.setLens_memWait (i : Nat) (f : LensSlot → LensSlot) (s : State) : (s.setLens i f).memWait = s.memWait := rfl
@[simp] theorem State.setLens_memOut (i : Nat) (f : LensSlot → LensSlot) (s : State) : (s.setLens i f).memOut = s.memOut := rfl
@[simp] theorem State.setLens_cfg (i : Nat) (f : LensSlot → LensSlot) (s : State) : (s.setLens i f).cfg = s.cfg := rfl
@[simp] theorem State.setLens_arr (i : Nat) (f : LensSlot → LensSlot) (s : State) : (s.setLens i f).arr = s.arr := rfl
@[simp] theorem State.setLens_dir (i : Nat) (f : LensSlot → LensSlot) (s : State) : (s.setLens i f).dir = s.dir := rfl
@[simp] theorem State.setLens_rot (i : Nat) (f : LensSlot → LensSlot) (s : State) : (s.setLens i f).rot = s.rot := rfl
@[simp] theorem State.setLens_wbb (i : Nat) (f : LensSlot → LensSlot) (s : State) : (s.setLens i f).wbb = s.wbb := rfl
@[simp] theorem State.setLens_mrs (i : Nat) (f : LensSlot → LensSlot) (s : State) : (s.setLens i f).mrs = s.mrs := rfl
@[simp] theorem State.setLens_txns (i : Nat) (f : LensSlot → LensSlot) (s : State) : (s.setLens i f).txns = s.txns := rfl
@[simp] theorem State.setLens_nextId (i : Nat) (f : LensSlot → LensSlot) (s : State) : (s.setLens i f).nextId = s.nextId := rfl
@[simp] theorem State.setLens_waiting (i : Nat) (f : LensSlot → LensSlot) (s : State) : (s.setLens i f).waiting = s.waiting := rfl
@[simp] theorem State.setLens_prov (i : Nat) (f : LensSlot → LensSlot) (s : State) : (s.setLens i f).prov = s.prov := rfl
@[simp] theorem State.setLens_wins (i : Nat) (f : LensSlot → LensSlot) (s : State) : (s.setLens i f).wins = s.wins := rfl
@[simp] theorem State.setLens_folds (i : Nat) (f : LensSlot → LensSlot) (s : State) : (s.setLens i f).folds = s.folds := rfl
@[simp] theorem State.setLens_lanes (i : Nat) (f : LensSlot → LensSlot) (s : State) : (s.setLens i f).lanes = s.lanes := rfl
@[simp] theorem State.setLens_reg (i : Nat) (f : LensSlot → LensSlot) (s : State) : (s.setLens i f).reg = s.reg := rfl
@[simp] theorem State.setLens_cue (i : Nat) (f : LensSlot → LensSlot) (s : State) : (s.setLens i f).cue = s.cue := rfl
@[simp] theorem State.setLens_xlt (i : Nat) (f : LensSlot → LensSlot) (s : State) : (s.setLens i f).xlt = s.xlt := rfl
@[simp] theorem State.setLens_hot (i : Nat) (f : LensSlot → LensSlot) (s : State) : (s.setLens i f).hot = s.hot := rfl
@[simp] theorem State.setLens_presc (i : Nat) (f : LensSlot → LensSlot) (s : State) : (s.setLens i f).presc = s.presc := rfl
@[simp] theorem State.setLens_mbs (i : Nat) (f : LensSlot → LensSlot) (s : State) : (s.setLens i f).mbs = s.mbs := rfl
@[simp] theorem State.setLens_pws (i : Nat) (f : LensSlot → LensSlot) (s : State) : (s.setLens i f).pws = s.pws := rfl
@[simp] theorem State.setLens_regs (i : Nat) (f : LensSlot → LensSlot) (s : State) : (s.setLens i f).regs = s.regs := rfl
@[simp] theorem State.setLens_elog (i : Nat) (f : LensSlot → LensSlot) (s : State) : (s.setLens i f).elog = s.elog := rfl
@[simp] theorem State.setLens_meas (i : Nat) (f : LensSlot → LensSlot) (s : State) : (s.setLens i f).meas = s.meas := rfl
@[simp] theorem State.setLens_ctr (i : Nat) (f : LensSlot → LensSlot) (s : State) : (s.setLens i f).ctr = s.ctr := rfl
@[simp] theorem State.setLens_hist (i : Nat) (f : LensSlot → LensSlot) (s : State) : (s.setLens i f).hist = s.hist := rfl
@[simp] theorem State.setLens_power (i : Nat) (f : LensSlot → LensSlot) (s : State) : (s.setLens i f).power = s.power := rfl
@[simp] theorem State.setLens_fuses (i : Nat) (f : LensSlot → LensSlot) (s : State) : (s.setLens i f).fuses = s.fuses := rfl
@[simp] theorem State.setLens_res (i : Nat) (f : LensSlot → LensSlot) (s : State) : (s.setLens i f).res = s.res := rfl
@[simp] theorem State.setLens_hand (i : Nat) (f : LensSlot → LensSlot) (s : State) : (s.setLens i f).hand = s.hand := rfl
@[simp] theorem State.setLens_down (i : Nat) (f : LensSlot → LensSlot) (s : State) : (s.setLens i f).down = s.down := rfl
@[simp] theorem State.setLens_acks (i : Nat) (f : LensSlot → LensSlot) (s : State) : (s.setLens i f).acks = s.acks := rfl
@[simp] theorem State.setLens_ranges (i : Nat) (f : LensSlot → LensSlot) (s : State) : (s.setLens i f).ranges = s.ranges := rfl
@[simp] theorem State.setLens_walks (i : Nat) (f : LensSlot → LensSlot) (s : State) : (s.setLens i f).walks = s.walks := rfl
@[simp] theorem State.setLens_span (i : Nat) (f : LensSlot → LensSlot) (s : State) : (s.setLens i f).span = s.span := rfl
@[simp] theorem State.setLens_test (i : Nat) (f : LensSlot → LensSlot) (s : State) : (s.setLens i f).test = s.test := rfl
@[simp] theorem State.setLens_upsets (i : Nat) (f : LensSlot → LensSlot) (s : State) : (s.setLens i f).upsets = s.upsets := rfl
@[simp] theorem State.setLens_bad (i : Nat) (f : LensSlot → LensSlot) (s : State) : (s.setLens i f).bad = s.bad := rfl
@[simp] theorem State.setLens_acts (i : Nat) (f : LensSlot → LensSlot) (s : State) : (s.setLens i f).acts = s.acts := rfl
@[simp] theorem State.setLens_sig (i : Nat) (f : LensSlot → LensSlot) (s : State) : (s.setLens i f).sig = s.sig := rfl
@[simp] theorem State.setLens_ctrBit (i : Nat) (f : LensSlot → LensSlot) (s : State) : (s.setLens i f).ctrBit = s.ctrBit := rfl
@[simp] theorem State.setLens_fresh (i : Nat) (f : LensSlot → LensSlot) (s : State) : (s.setLens i f).fresh = s.fresh := rfl
@[simp] theorem State.setLens_out (i : Nat) (f : LensSlot → LensSlot) (s : State) : (s.setLens i f).out = s.out := rfl
@[simp] theorem State.setLens_pending (i : Nat) (f : LensSlot → LensSlot) (s : State) : (s.setLens i f).pending = s.pending := rfl

/-! ### An action slot -/

@[simp] theorem State.setSlot_fab (i : Nat) (f : ActSlot → ActSlot) (s : State) : (s.setSlot i f).fab = s.fab := rfl
@[simp] theorem State.setSlot_mem (i : Nat) (f : ActSlot → ActSlot) (s : State) : (s.setSlot i f).mem = s.mem := rfl
@[simp] theorem State.setSlot_heldOut (i : Nat) (f : ActSlot → ActSlot) (s : State) : (s.setSlot i f).heldOut = s.heldOut := rfl
@[simp] theorem State.setSlot_memWait (i : Nat) (f : ActSlot → ActSlot) (s : State) : (s.setSlot i f).memWait = s.memWait := rfl
@[simp] theorem State.setSlot_memOut (i : Nat) (f : ActSlot → ActSlot) (s : State) : (s.setSlot i f).memOut = s.memOut := rfl
@[simp] theorem State.setSlot_cfg (i : Nat) (f : ActSlot → ActSlot) (s : State) : (s.setSlot i f).cfg = s.cfg := rfl
@[simp] theorem State.setSlot_arr (i : Nat) (f : ActSlot → ActSlot) (s : State) : (s.setSlot i f).arr = s.arr := rfl
@[simp] theorem State.setSlot_dir (i : Nat) (f : ActSlot → ActSlot) (s : State) : (s.setSlot i f).dir = s.dir := rfl
@[simp] theorem State.setSlot_rot (i : Nat) (f : ActSlot → ActSlot) (s : State) : (s.setSlot i f).rot = s.rot := rfl
@[simp] theorem State.setSlot_wbb (i : Nat) (f : ActSlot → ActSlot) (s : State) : (s.setSlot i f).wbb = s.wbb := rfl
@[simp] theorem State.setSlot_mrs (i : Nat) (f : ActSlot → ActSlot) (s : State) : (s.setSlot i f).mrs = s.mrs := rfl
@[simp] theorem State.setSlot_txns (i : Nat) (f : ActSlot → ActSlot) (s : State) : (s.setSlot i f).txns = s.txns := rfl
@[simp] theorem State.setSlot_nextId (i : Nat) (f : ActSlot → ActSlot) (s : State) : (s.setSlot i f).nextId = s.nextId := rfl
@[simp] theorem State.setSlot_waiting (i : Nat) (f : ActSlot → ActSlot) (s : State) : (s.setSlot i f).waiting = s.waiting := rfl
@[simp] theorem State.setSlot_prov (i : Nat) (f : ActSlot → ActSlot) (s : State) : (s.setSlot i f).prov = s.prov := rfl
@[simp] theorem State.setSlot_wins (i : Nat) (f : ActSlot → ActSlot) (s : State) : (s.setSlot i f).wins = s.wins := rfl
@[simp] theorem State.setSlot_folds (i : Nat) (f : ActSlot → ActSlot) (s : State) : (s.setSlot i f).folds = s.folds := rfl
@[simp] theorem State.setSlot_lanes (i : Nat) (f : ActSlot → ActSlot) (s : State) : (s.setSlot i f).lanes = s.lanes := rfl
@[simp] theorem State.setSlot_lens (i : Nat) (f : ActSlot → ActSlot) (s : State) : (s.setSlot i f).lens = s.lens := rfl
@[simp] theorem State.setSlot_reg (i : Nat) (f : ActSlot → ActSlot) (s : State) : (s.setSlot i f).reg = s.reg := rfl
@[simp] theorem State.setSlot_xlt (i : Nat) (f : ActSlot → ActSlot) (s : State) : (s.setSlot i f).xlt = s.xlt := rfl
@[simp] theorem State.setSlot_hot (i : Nat) (f : ActSlot → ActSlot) (s : State) : (s.setSlot i f).hot = s.hot := rfl
@[simp] theorem State.setSlot_presc (i : Nat) (f : ActSlot → ActSlot) (s : State) : (s.setSlot i f).presc = s.presc := rfl
@[simp] theorem State.setSlot_mbs (i : Nat) (f : ActSlot → ActSlot) (s : State) : (s.setSlot i f).mbs = s.mbs := rfl
@[simp] theorem State.setSlot_pws (i : Nat) (f : ActSlot → ActSlot) (s : State) : (s.setSlot i f).pws = s.pws := rfl
@[simp] theorem State.setSlot_regs (i : Nat) (f : ActSlot → ActSlot) (s : State) : (s.setSlot i f).regs = s.regs := rfl
@[simp] theorem State.setSlot_elog (i : Nat) (f : ActSlot → ActSlot) (s : State) : (s.setSlot i f).elog = s.elog := rfl
@[simp] theorem State.setSlot_meas (i : Nat) (f : ActSlot → ActSlot) (s : State) : (s.setSlot i f).meas = s.meas := rfl
@[simp] theorem State.setSlot_ctr (i : Nat) (f : ActSlot → ActSlot) (s : State) : (s.setSlot i f).ctr = s.ctr := rfl
@[simp] theorem State.setSlot_hist (i : Nat) (f : ActSlot → ActSlot) (s : State) : (s.setSlot i f).hist = s.hist := rfl
@[simp] theorem State.setSlot_power (i : Nat) (f : ActSlot → ActSlot) (s : State) : (s.setSlot i f).power = s.power := rfl
@[simp] theorem State.setSlot_fuses (i : Nat) (f : ActSlot → ActSlot) (s : State) : (s.setSlot i f).fuses = s.fuses := rfl
@[simp] theorem State.setSlot_res (i : Nat) (f : ActSlot → ActSlot) (s : State) : (s.setSlot i f).res = s.res := rfl
@[simp] theorem State.setSlot_hand (i : Nat) (f : ActSlot → ActSlot) (s : State) : (s.setSlot i f).hand = s.hand := rfl
@[simp] theorem State.setSlot_down (i : Nat) (f : ActSlot → ActSlot) (s : State) : (s.setSlot i f).down = s.down := rfl
@[simp] theorem State.setSlot_acks (i : Nat) (f : ActSlot → ActSlot) (s : State) : (s.setSlot i f).acks = s.acks := rfl
@[simp] theorem State.setSlot_ranges (i : Nat) (f : ActSlot → ActSlot) (s : State) : (s.setSlot i f).ranges = s.ranges := rfl
@[simp] theorem State.setSlot_walks (i : Nat) (f : ActSlot → ActSlot) (s : State) : (s.setSlot i f).walks = s.walks := rfl
@[simp] theorem State.setSlot_span (i : Nat) (f : ActSlot → ActSlot) (s : State) : (s.setSlot i f).span = s.span := rfl
@[simp] theorem State.setSlot_test (i : Nat) (f : ActSlot → ActSlot) (s : State) : (s.setSlot i f).test = s.test := rfl
@[simp] theorem State.setSlot_upsets (i : Nat) (f : ActSlot → ActSlot) (s : State) : (s.setSlot i f).upsets = s.upsets := rfl
@[simp] theorem State.setSlot_bad (i : Nat) (f : ActSlot → ActSlot) (s : State) : (s.setSlot i f).bad = s.bad := rfl
@[simp] theorem State.setSlot_acts (i : Nat) (f : ActSlot → ActSlot) (s : State) : (s.setSlot i f).acts = s.acts := rfl
@[simp] theorem State.setSlot_sig (i : Nat) (f : ActSlot → ActSlot) (s : State) : (s.setSlot i f).sig = s.sig := rfl
@[simp] theorem State.setSlot_ctrBit (i : Nat) (f : ActSlot → ActSlot) (s : State) : (s.setSlot i f).ctrBit = s.ctrBit := rfl
@[simp] theorem State.setSlot_fresh (i : Nat) (f : ActSlot → ActSlot) (s : State) : (s.setSlot i f).fresh = s.fresh := rfl
@[simp] theorem State.setSlot_out (i : Nat) (f : ActSlot → ActSlot) (s : State) : (s.setSlot i f).out = s.out := rfl
@[simp] theorem State.setSlot_pending (i : Nat) (f : ActSlot → ActSlot) (s : State) : (s.setSlot i f).pending = s.pending := rfl

/-! ### A transaction -/

@[simp] theorem State.setTxn_fab (i : Nat) (f : Txn → Txn) (s : State) : (s.setTxn i f).fab = s.fab := rfl
@[simp] theorem State.setTxn_mem (i : Nat) (f : Txn → Txn) (s : State) : (s.setTxn i f).mem = s.mem := rfl
@[simp] theorem State.setTxn_heldOut (i : Nat) (f : Txn → Txn) (s : State) : (s.setTxn i f).heldOut = s.heldOut := rfl
@[simp] theorem State.setTxn_memWait (i : Nat) (f : Txn → Txn) (s : State) : (s.setTxn i f).memWait = s.memWait := rfl
@[simp] theorem State.setTxn_memOut (i : Nat) (f : Txn → Txn) (s : State) : (s.setTxn i f).memOut = s.memOut := rfl
@[simp] theorem State.setTxn_cfg (i : Nat) (f : Txn → Txn) (s : State) : (s.setTxn i f).cfg = s.cfg := rfl
@[simp] theorem State.setTxn_arr (i : Nat) (f : Txn → Txn) (s : State) : (s.setTxn i f).arr = s.arr := rfl
@[simp] theorem State.setTxn_dir (i : Nat) (f : Txn → Txn) (s : State) : (s.setTxn i f).dir = s.dir := rfl
@[simp] theorem State.setTxn_rot (i : Nat) (f : Txn → Txn) (s : State) : (s.setTxn i f).rot = s.rot := rfl
@[simp] theorem State.setTxn_wbb (i : Nat) (f : Txn → Txn) (s : State) : (s.setTxn i f).wbb = s.wbb := rfl
@[simp] theorem State.setTxn_mrs (i : Nat) (f : Txn → Txn) (s : State) : (s.setTxn i f).mrs = s.mrs := rfl
@[simp] theorem State.setTxn_nextId (i : Nat) (f : Txn → Txn) (s : State) : (s.setTxn i f).nextId = s.nextId := rfl
@[simp] theorem State.setTxn_waiting (i : Nat) (f : Txn → Txn) (s : State) : (s.setTxn i f).waiting = s.waiting := rfl
@[simp] theorem State.setTxn_prov (i : Nat) (f : Txn → Txn) (s : State) : (s.setTxn i f).prov = s.prov := rfl
@[simp] theorem State.setTxn_wins (i : Nat) (f : Txn → Txn) (s : State) : (s.setTxn i f).wins = s.wins := rfl
@[simp] theorem State.setTxn_folds (i : Nat) (f : Txn → Txn) (s : State) : (s.setTxn i f).folds = s.folds := rfl
@[simp] theorem State.setTxn_lanes (i : Nat) (f : Txn → Txn) (s : State) : (s.setTxn i f).lanes = s.lanes := rfl
@[simp] theorem State.setTxn_lens (i : Nat) (f : Txn → Txn) (s : State) : (s.setTxn i f).lens = s.lens := rfl
@[simp] theorem State.setTxn_reg (i : Nat) (f : Txn → Txn) (s : State) : (s.setTxn i f).reg = s.reg := rfl
@[simp] theorem State.setTxn_cue (i : Nat) (f : Txn → Txn) (s : State) : (s.setTxn i f).cue = s.cue := rfl
@[simp] theorem State.setTxn_xlt (i : Nat) (f : Txn → Txn) (s : State) : (s.setTxn i f).xlt = s.xlt := rfl
@[simp] theorem State.setTxn_hot (i : Nat) (f : Txn → Txn) (s : State) : (s.setTxn i f).hot = s.hot := rfl
@[simp] theorem State.setTxn_presc (i : Nat) (f : Txn → Txn) (s : State) : (s.setTxn i f).presc = s.presc := rfl
@[simp] theorem State.setTxn_mbs (i : Nat) (f : Txn → Txn) (s : State) : (s.setTxn i f).mbs = s.mbs := rfl
@[simp] theorem State.setTxn_pws (i : Nat) (f : Txn → Txn) (s : State) : (s.setTxn i f).pws = s.pws := rfl
@[simp] theorem State.setTxn_regs (i : Nat) (f : Txn → Txn) (s : State) : (s.setTxn i f).regs = s.regs := rfl
@[simp] theorem State.setTxn_elog (i : Nat) (f : Txn → Txn) (s : State) : (s.setTxn i f).elog = s.elog := rfl
@[simp] theorem State.setTxn_meas (i : Nat) (f : Txn → Txn) (s : State) : (s.setTxn i f).meas = s.meas := rfl
@[simp] theorem State.setTxn_ctr (i : Nat) (f : Txn → Txn) (s : State) : (s.setTxn i f).ctr = s.ctr := rfl
@[simp] theorem State.setTxn_hist (i : Nat) (f : Txn → Txn) (s : State) : (s.setTxn i f).hist = s.hist := rfl
@[simp] theorem State.setTxn_power (i : Nat) (f : Txn → Txn) (s : State) : (s.setTxn i f).power = s.power := rfl
@[simp] theorem State.setTxn_fuses (i : Nat) (f : Txn → Txn) (s : State) : (s.setTxn i f).fuses = s.fuses := rfl
@[simp] theorem State.setTxn_res (i : Nat) (f : Txn → Txn) (s : State) : (s.setTxn i f).res = s.res := rfl
@[simp] theorem State.setTxn_hand (i : Nat) (f : Txn → Txn) (s : State) : (s.setTxn i f).hand = s.hand := rfl
@[simp] theorem State.setTxn_down (i : Nat) (f : Txn → Txn) (s : State) : (s.setTxn i f).down = s.down := rfl
@[simp] theorem State.setTxn_acks (i : Nat) (f : Txn → Txn) (s : State) : (s.setTxn i f).acks = s.acks := rfl
@[simp] theorem State.setTxn_ranges (i : Nat) (f : Txn → Txn) (s : State) : (s.setTxn i f).ranges = s.ranges := rfl
@[simp] theorem State.setTxn_walks (i : Nat) (f : Txn → Txn) (s : State) : (s.setTxn i f).walks = s.walks := rfl
@[simp] theorem State.setTxn_span (i : Nat) (f : Txn → Txn) (s : State) : (s.setTxn i f).span = s.span := rfl
@[simp] theorem State.setTxn_test (i : Nat) (f : Txn → Txn) (s : State) : (s.setTxn i f).test = s.test := rfl
@[simp] theorem State.setTxn_upsets (i : Nat) (f : Txn → Txn) (s : State) : (s.setTxn i f).upsets = s.upsets := rfl
@[simp] theorem State.setTxn_bad (i : Nat) (f : Txn → Txn) (s : State) : (s.setTxn i f).bad = s.bad := rfl
@[simp] theorem State.setTxn_acts (i : Nat) (f : Txn → Txn) (s : State) : (s.setTxn i f).acts = s.acts := rfl
@[simp] theorem State.setTxn_sig (i : Nat) (f : Txn → Txn) (s : State) : (s.setTxn i f).sig = s.sig := rfl
@[simp] theorem State.setTxn_ctrBit (i : Nat) (f : Txn → Txn) (s : State) : (s.setTxn i f).ctrBit = s.ctrBit := rfl
@[simp] theorem State.setTxn_fresh (i : Nat) (f : Txn → Txn) (s : State) : (s.setTxn i f).fresh = s.fresh := rfl
@[simp] theorem State.setTxn_out (i : Nat) (f : Txn → Txn) (s : State) : (s.setTxn i f).out = s.out := rfl
@[simp] theorem State.setTxn_pending (i : Nat) (f : Txn → Txn) (s : State) : (s.setTxn i f).pending = s.pending := rfl

/-! ### The end of a transaction -/

@[simp] theorem State.dropTxn_fab (i : Nat) (s : State) : (s.dropTxn i).fab = s.fab := rfl
@[simp] theorem State.dropTxn_mem (i : Nat) (s : State) : (s.dropTxn i).mem = s.mem := rfl
@[simp] theorem State.dropTxn_heldOut (i : Nat) (s : State) : (s.dropTxn i).heldOut = s.heldOut := rfl
@[simp] theorem State.dropTxn_memWait (i : Nat) (s : State) : (s.dropTxn i).memWait = s.memWait := rfl
@[simp] theorem State.dropTxn_memOut (i : Nat) (s : State) : (s.dropTxn i).memOut = s.memOut := rfl
@[simp] theorem State.dropTxn_cfg (i : Nat) (s : State) : (s.dropTxn i).cfg = s.cfg := rfl
@[simp] theorem State.dropTxn_arr (i : Nat) (s : State) : (s.dropTxn i).arr = s.arr := rfl
@[simp] theorem State.dropTxn_dir (i : Nat) (s : State) : (s.dropTxn i).dir = s.dir := rfl
@[simp] theorem State.dropTxn_rot (i : Nat) (s : State) : (s.dropTxn i).rot = s.rot := rfl
@[simp] theorem State.dropTxn_wbb (i : Nat) (s : State) : (s.dropTxn i).wbb = s.wbb := rfl
@[simp] theorem State.dropTxn_mrs (i : Nat) (s : State) : (s.dropTxn i).mrs = s.mrs := rfl
@[simp] theorem State.dropTxn_nextId (i : Nat) (s : State) : (s.dropTxn i).nextId = s.nextId := rfl
@[simp] theorem State.dropTxn_waiting (i : Nat) (s : State) : (s.dropTxn i).waiting = s.waiting := rfl
@[simp] theorem State.dropTxn_prov (i : Nat) (s : State) : (s.dropTxn i).prov = s.prov := rfl
@[simp] theorem State.dropTxn_wins (i : Nat) (s : State) : (s.dropTxn i).wins = s.wins := rfl
@[simp] theorem State.dropTxn_folds (i : Nat) (s : State) : (s.dropTxn i).folds = s.folds := rfl
@[simp] theorem State.dropTxn_lanes (i : Nat) (s : State) : (s.dropTxn i).lanes = s.lanes := rfl
@[simp] theorem State.dropTxn_lens (i : Nat) (s : State) : (s.dropTxn i).lens = s.lens := rfl
@[simp] theorem State.dropTxn_reg (i : Nat) (s : State) : (s.dropTxn i).reg = s.reg := rfl
@[simp] theorem State.dropTxn_cue (i : Nat) (s : State) : (s.dropTxn i).cue = s.cue := rfl
@[simp] theorem State.dropTxn_xlt (i : Nat) (s : State) : (s.dropTxn i).xlt = s.xlt := rfl
@[simp] theorem State.dropTxn_hot (i : Nat) (s : State) : (s.dropTxn i).hot = s.hot := rfl
@[simp] theorem State.dropTxn_presc (i : Nat) (s : State) : (s.dropTxn i).presc = s.presc := rfl
@[simp] theorem State.dropTxn_mbs (i : Nat) (s : State) : (s.dropTxn i).mbs = s.mbs := rfl
@[simp] theorem State.dropTxn_pws (i : Nat) (s : State) : (s.dropTxn i).pws = s.pws := rfl
@[simp] theorem State.dropTxn_regs (i : Nat) (s : State) : (s.dropTxn i).regs = s.regs := rfl
@[simp] theorem State.dropTxn_elog (i : Nat) (s : State) : (s.dropTxn i).elog = s.elog := rfl
@[simp] theorem State.dropTxn_meas (i : Nat) (s : State) : (s.dropTxn i).meas = s.meas := rfl
@[simp] theorem State.dropTxn_ctr (i : Nat) (s : State) : (s.dropTxn i).ctr = s.ctr := rfl
@[simp] theorem State.dropTxn_hist (i : Nat) (s : State) : (s.dropTxn i).hist = s.hist := rfl
@[simp] theorem State.dropTxn_power (i : Nat) (s : State) : (s.dropTxn i).power = s.power := rfl
@[simp] theorem State.dropTxn_fuses (i : Nat) (s : State) : (s.dropTxn i).fuses = s.fuses := rfl
@[simp] theorem State.dropTxn_res (i : Nat) (s : State) : (s.dropTxn i).res = s.res := rfl
@[simp] theorem State.dropTxn_hand (i : Nat) (s : State) : (s.dropTxn i).hand = s.hand := rfl
@[simp] theorem State.dropTxn_down (i : Nat) (s : State) : (s.dropTxn i).down = s.down := rfl
@[simp] theorem State.dropTxn_acks (i : Nat) (s : State) : (s.dropTxn i).acks = s.acks := rfl
@[simp] theorem State.dropTxn_ranges (i : Nat) (s : State) : (s.dropTxn i).ranges = s.ranges := rfl
@[simp] theorem State.dropTxn_walks (i : Nat) (s : State) : (s.dropTxn i).walks = s.walks := rfl
@[simp] theorem State.dropTxn_span (i : Nat) (s : State) : (s.dropTxn i).span = s.span := rfl
@[simp] theorem State.dropTxn_test (i : Nat) (s : State) : (s.dropTxn i).test = s.test := rfl
@[simp] theorem State.dropTxn_upsets (i : Nat) (s : State) : (s.dropTxn i).upsets = s.upsets := rfl
@[simp] theorem State.dropTxn_bad (i : Nat) (s : State) : (s.dropTxn i).bad = s.bad := rfl
@[simp] theorem State.dropTxn_acts (i : Nat) (s : State) : (s.dropTxn i).acts = s.acts := rfl
@[simp] theorem State.dropTxn_sig (i : Nat) (s : State) : (s.dropTxn i).sig = s.sig := rfl
@[simp] theorem State.dropTxn_ctrBit (i : Nat) (s : State) : (s.dropTxn i).ctrBit = s.ctrBit := rfl
@[simp] theorem State.dropTxn_fresh (i : Nat) (s : State) : (s.dropTxn i).fresh = s.fresh := rfl
@[simp] theorem State.dropTxn_out (i : Nat) (s : State) : (s.dropTxn i).out = s.out := rfl
@[simp] theorem State.dropTxn_pending (i : Nat) (s : State) : (s.dropTxn i).pending = s.pending := rfl

/-! ### `PW_STATUS` -/

@[simp] theorem State.pwStatus_fab (p : Nat) (b : BitVec 4) (s : State) : (s.pwStatus p b).fab = s.fab := rfl
@[simp] theorem State.pwStatus_mem (p : Nat) (b : BitVec 4) (s : State) : (s.pwStatus p b).mem = s.mem := rfl
@[simp] theorem State.pwStatus_heldOut (p : Nat) (b : BitVec 4) (s : State) : (s.pwStatus p b).heldOut = s.heldOut := rfl
@[simp] theorem State.pwStatus_memWait (p : Nat) (b : BitVec 4) (s : State) : (s.pwStatus p b).memWait = s.memWait := rfl
@[simp] theorem State.pwStatus_memOut (p : Nat) (b : BitVec 4) (s : State) : (s.pwStatus p b).memOut = s.memOut := rfl
@[simp] theorem State.pwStatus_cfg (p : Nat) (b : BitVec 4) (s : State) : (s.pwStatus p b).cfg = s.cfg := rfl
@[simp] theorem State.pwStatus_arr (p : Nat) (b : BitVec 4) (s : State) : (s.pwStatus p b).arr = s.arr := rfl
@[simp] theorem State.pwStatus_dir (p : Nat) (b : BitVec 4) (s : State) : (s.pwStatus p b).dir = s.dir := rfl
@[simp] theorem State.pwStatus_rot (p : Nat) (b : BitVec 4) (s : State) : (s.pwStatus p b).rot = s.rot := rfl
@[simp] theorem State.pwStatus_wbb (p : Nat) (b : BitVec 4) (s : State) : (s.pwStatus p b).wbb = s.wbb := rfl
@[simp] theorem State.pwStatus_mrs (p : Nat) (b : BitVec 4) (s : State) : (s.pwStatus p b).mrs = s.mrs := rfl
@[simp] theorem State.pwStatus_txns (p : Nat) (b : BitVec 4) (s : State) : (s.pwStatus p b).txns = s.txns := rfl
@[simp] theorem State.pwStatus_nextId (p : Nat) (b : BitVec 4) (s : State) : (s.pwStatus p b).nextId = s.nextId := rfl
@[simp] theorem State.pwStatus_waiting (p : Nat) (b : BitVec 4) (s : State) : (s.pwStatus p b).waiting = s.waiting := rfl
@[simp] theorem State.pwStatus_prov (p : Nat) (b : BitVec 4) (s : State) : (s.pwStatus p b).prov = s.prov := rfl
@[simp] theorem State.pwStatus_wins (p : Nat) (b : BitVec 4) (s : State) : (s.pwStatus p b).wins = s.wins := rfl
@[simp] theorem State.pwStatus_folds (p : Nat) (b : BitVec 4) (s : State) : (s.pwStatus p b).folds = s.folds := rfl
@[simp] theorem State.pwStatus_lanes (p : Nat) (b : BitVec 4) (s : State) : (s.pwStatus p b).lanes = s.lanes := rfl
@[simp] theorem State.pwStatus_lens (p : Nat) (b : BitVec 4) (s : State) : (s.pwStatus p b).lens = s.lens := rfl
@[simp] theorem State.pwStatus_reg (p : Nat) (b : BitVec 4) (s : State) : (s.pwStatus p b).reg = s.reg := rfl
@[simp] theorem State.pwStatus_cue (p : Nat) (b : BitVec 4) (s : State) : (s.pwStatus p b).cue = s.cue := rfl
@[simp] theorem State.pwStatus_xlt (p : Nat) (b : BitVec 4) (s : State) : (s.pwStatus p b).xlt = s.xlt := rfl
@[simp] theorem State.pwStatus_hot (p : Nat) (b : BitVec 4) (s : State) : (s.pwStatus p b).hot = s.hot := rfl
@[simp] theorem State.pwStatus_presc (p : Nat) (b : BitVec 4) (s : State) : (s.pwStatus p b).presc = s.presc := rfl
@[simp] theorem State.pwStatus_mbs (p : Nat) (b : BitVec 4) (s : State) : (s.pwStatus p b).mbs = s.mbs := rfl
@[simp] theorem State.pwStatus_regs (p : Nat) (b : BitVec 4) (s : State) : (s.pwStatus p b).regs = s.regs := rfl
@[simp] theorem State.pwStatus_elog (p : Nat) (b : BitVec 4) (s : State) : (s.pwStatus p b).elog = s.elog := rfl
@[simp] theorem State.pwStatus_meas (p : Nat) (b : BitVec 4) (s : State) : (s.pwStatus p b).meas = s.meas := rfl
@[simp] theorem State.pwStatus_ctr (p : Nat) (b : BitVec 4) (s : State) : (s.pwStatus p b).ctr = s.ctr := rfl
@[simp] theorem State.pwStatus_hist (p : Nat) (b : BitVec 4) (s : State) : (s.pwStatus p b).hist = s.hist := rfl
@[simp] theorem State.pwStatus_power (p : Nat) (b : BitVec 4) (s : State) : (s.pwStatus p b).power = s.power := rfl
@[simp] theorem State.pwStatus_fuses (p : Nat) (b : BitVec 4) (s : State) : (s.pwStatus p b).fuses = s.fuses := rfl
@[simp] theorem State.pwStatus_res (p : Nat) (b : BitVec 4) (s : State) : (s.pwStatus p b).res = s.res := rfl
@[simp] theorem State.pwStatus_hand (p : Nat) (b : BitVec 4) (s : State) : (s.pwStatus p b).hand = s.hand := rfl
@[simp] theorem State.pwStatus_down (p : Nat) (b : BitVec 4) (s : State) : (s.pwStatus p b).down = s.down := rfl
@[simp] theorem State.pwStatus_acks (p : Nat) (b : BitVec 4) (s : State) : (s.pwStatus p b).acks = s.acks := rfl
@[simp] theorem State.pwStatus_ranges (p : Nat) (b : BitVec 4) (s : State) : (s.pwStatus p b).ranges = s.ranges := rfl
@[simp] theorem State.pwStatus_walks (p : Nat) (b : BitVec 4) (s : State) : (s.pwStatus p b).walks = s.walks := rfl
@[simp] theorem State.pwStatus_span (p : Nat) (b : BitVec 4) (s : State) : (s.pwStatus p b).span = s.span := rfl
@[simp] theorem State.pwStatus_test (p : Nat) (b : BitVec 4) (s : State) : (s.pwStatus p b).test = s.test := rfl
@[simp] theorem State.pwStatus_upsets (p : Nat) (b : BitVec 4) (s : State) : (s.pwStatus p b).upsets = s.upsets := rfl
@[simp] theorem State.pwStatus_bad (p : Nat) (b : BitVec 4) (s : State) : (s.pwStatus p b).bad = s.bad := rfl
@[simp] theorem State.pwStatus_acts (p : Nat) (b : BitVec 4) (s : State) : (s.pwStatus p b).acts = s.acts := rfl
@[simp] theorem State.pwStatus_sig (p : Nat) (b : BitVec 4) (s : State) : (s.pwStatus p b).sig = s.sig := rfl
@[simp] theorem State.pwStatus_ctrBit (p : Nat) (b : BitVec 4) (s : State) : (s.pwStatus p b).ctrBit = s.ctrBit := rfl
@[simp] theorem State.pwStatus_fresh (p : Nat) (b : BitVec 4) (s : State) : (s.pwStatus p b).fresh = s.fresh := rfl
@[simp] theorem State.pwStatus_out (p : Nat) (b : BitVec 4) (s : State) : (s.pwStatus p b).out = s.out := rfl
@[simp] theorem State.pwStatus_pending (p : Nat) (b : BitVec 4) (s : State) : (s.pwStatus p b).pending = s.pending := rfl

/-! ### `STATUS` -/

@[simp] theorem State.setStatus_fab (b : BitVec 4) (s : State) : (s.setStatus b).fab = s.fab := rfl
@[simp] theorem State.setStatus_mem (b : BitVec 4) (s : State) : (s.setStatus b).mem = s.mem := rfl
@[simp] theorem State.setStatus_heldOut (b : BitVec 4) (s : State) : (s.setStatus b).heldOut = s.heldOut := rfl
@[simp] theorem State.setStatus_memWait (b : BitVec 4) (s : State) : (s.setStatus b).memWait = s.memWait := rfl
@[simp] theorem State.setStatus_memOut (b : BitVec 4) (s : State) : (s.setStatus b).memOut = s.memOut := rfl
@[simp] theorem State.setStatus_cfg (b : BitVec 4) (s : State) : (s.setStatus b).cfg = s.cfg := rfl
@[simp] theorem State.setStatus_arr (b : BitVec 4) (s : State) : (s.setStatus b).arr = s.arr := rfl
@[simp] theorem State.setStatus_dir (b : BitVec 4) (s : State) : (s.setStatus b).dir = s.dir := rfl
@[simp] theorem State.setStatus_rot (b : BitVec 4) (s : State) : (s.setStatus b).rot = s.rot := rfl
@[simp] theorem State.setStatus_wbb (b : BitVec 4) (s : State) : (s.setStatus b).wbb = s.wbb := rfl
@[simp] theorem State.setStatus_mrs (b : BitVec 4) (s : State) : (s.setStatus b).mrs = s.mrs := rfl
@[simp] theorem State.setStatus_txns (b : BitVec 4) (s : State) : (s.setStatus b).txns = s.txns := rfl
@[simp] theorem State.setStatus_nextId (b : BitVec 4) (s : State) : (s.setStatus b).nextId = s.nextId := rfl
@[simp] theorem State.setStatus_waiting (b : BitVec 4) (s : State) : (s.setStatus b).waiting = s.waiting := rfl
@[simp] theorem State.setStatus_prov (b : BitVec 4) (s : State) : (s.setStatus b).prov = s.prov := rfl
@[simp] theorem State.setStatus_wins (b : BitVec 4) (s : State) : (s.setStatus b).wins = s.wins := rfl
@[simp] theorem State.setStatus_folds (b : BitVec 4) (s : State) : (s.setStatus b).folds = s.folds := rfl
@[simp] theorem State.setStatus_lanes (b : BitVec 4) (s : State) : (s.setStatus b).lanes = s.lanes := rfl
@[simp] theorem State.setStatus_lens (b : BitVec 4) (s : State) : (s.setStatus b).lens = s.lens := rfl
@[simp] theorem State.setStatus_reg (b : BitVec 4) (s : State) : (s.setStatus b).reg = s.reg := rfl
@[simp] theorem State.setStatus_cue (b : BitVec 4) (s : State) : (s.setStatus b).cue = s.cue := rfl
@[simp] theorem State.setStatus_xlt (b : BitVec 4) (s : State) : (s.setStatus b).xlt = s.xlt := rfl
@[simp] theorem State.setStatus_hot (b : BitVec 4) (s : State) : (s.setStatus b).hot = s.hot := rfl
@[simp] theorem State.setStatus_presc (b : BitVec 4) (s : State) : (s.setStatus b).presc = s.presc := rfl
@[simp] theorem State.setStatus_mbs (b : BitVec 4) (s : State) : (s.setStatus b).mbs = s.mbs := rfl
@[simp] theorem State.setStatus_pws (b : BitVec 4) (s : State) : (s.setStatus b).pws = s.pws := rfl
@[simp] theorem State.setStatus_elog (b : BitVec 4) (s : State) : (s.setStatus b).elog = s.elog := rfl
@[simp] theorem State.setStatus_meas (b : BitVec 4) (s : State) : (s.setStatus b).meas = s.meas := rfl
@[simp] theorem State.setStatus_ctr (b : BitVec 4) (s : State) : (s.setStatus b).ctr = s.ctr := rfl
@[simp] theorem State.setStatus_hist (b : BitVec 4) (s : State) : (s.setStatus b).hist = s.hist := rfl
@[simp] theorem State.setStatus_power (b : BitVec 4) (s : State) : (s.setStatus b).power = s.power := rfl
@[simp] theorem State.setStatus_fuses (b : BitVec 4) (s : State) : (s.setStatus b).fuses = s.fuses := rfl
@[simp] theorem State.setStatus_res (b : BitVec 4) (s : State) : (s.setStatus b).res = s.res := rfl
@[simp] theorem State.setStatus_hand (b : BitVec 4) (s : State) : (s.setStatus b).hand = s.hand := rfl
@[simp] theorem State.setStatus_down (b : BitVec 4) (s : State) : (s.setStatus b).down = s.down := rfl
@[simp] theorem State.setStatus_acks (b : BitVec 4) (s : State) : (s.setStatus b).acks = s.acks := rfl
@[simp] theorem State.setStatus_ranges (b : BitVec 4) (s : State) : (s.setStatus b).ranges = s.ranges := rfl
@[simp] theorem State.setStatus_walks (b : BitVec 4) (s : State) : (s.setStatus b).walks = s.walks := rfl
@[simp] theorem State.setStatus_span (b : BitVec 4) (s : State) : (s.setStatus b).span = s.span := rfl
@[simp] theorem State.setStatus_test (b : BitVec 4) (s : State) : (s.setStatus b).test = s.test := rfl
@[simp] theorem State.setStatus_upsets (b : BitVec 4) (s : State) : (s.setStatus b).upsets = s.upsets := rfl
@[simp] theorem State.setStatus_bad (b : BitVec 4) (s : State) : (s.setStatus b).bad = s.bad := rfl
@[simp] theorem State.setStatus_acts (b : BitVec 4) (s : State) : (s.setStatus b).acts = s.acts := rfl
@[simp] theorem State.setStatus_sig (b : BitVec 4) (s : State) : (s.setStatus b).sig = s.sig := rfl
@[simp] theorem State.setStatus_ctrBit (b : BitVec 4) (s : State) : (s.setStatus b).ctrBit = s.ctrBit := rfl
@[simp] theorem State.setStatus_fresh (b : BitVec 4) (s : State) : (s.setStatus b).fresh = s.fresh := rfl
@[simp] theorem State.setStatus_out (b : BitVec 4) (s : State) : (s.setStatus b).out = s.out := rfl
@[simp] theorem State.setStatus_pending (b : BitVec 4) (s : State) : (s.setStatus b).pending = s.pending := rfl

/-! ### A refusal of a mailbox command -/

@[simp] theorem State.mbRefuse_fab (w : Option Nat) (e : Err) (s : State) : (s.mbRefuse w e).fab = s.fab := rfl
@[simp] theorem State.mbRefuse_mem (w : Option Nat) (e : Err) (s : State) : (s.mbRefuse w e).mem = s.mem := rfl
@[simp] theorem State.mbRefuse_heldOut (w : Option Nat) (e : Err) (s : State) : (s.mbRefuse w e).heldOut = s.heldOut := rfl
@[simp] theorem State.mbRefuse_memWait (w : Option Nat) (e : Err) (s : State) : (s.mbRefuse w e).memWait = s.memWait := rfl
@[simp] theorem State.mbRefuse_memOut (w : Option Nat) (e : Err) (s : State) : (s.mbRefuse w e).memOut = s.memOut := rfl
@[simp] theorem State.mbRefuse_cfg (w : Option Nat) (e : Err) (s : State) : (s.mbRefuse w e).cfg = s.cfg := rfl
@[simp] theorem State.mbRefuse_arr (w : Option Nat) (e : Err) (s : State) : (s.mbRefuse w e).arr = s.arr := rfl
@[simp] theorem State.mbRefuse_dir (w : Option Nat) (e : Err) (s : State) : (s.mbRefuse w e).dir = s.dir := rfl
@[simp] theorem State.mbRefuse_rot (w : Option Nat) (e : Err) (s : State) : (s.mbRefuse w e).rot = s.rot := rfl
@[simp] theorem State.mbRefuse_wbb (w : Option Nat) (e : Err) (s : State) : (s.mbRefuse w e).wbb = s.wbb := rfl
@[simp] theorem State.mbRefuse_mrs (w : Option Nat) (e : Err) (s : State) : (s.mbRefuse w e).mrs = s.mrs := rfl
@[simp] theorem State.mbRefuse_txns (w : Option Nat) (e : Err) (s : State) : (s.mbRefuse w e).txns = s.txns := rfl
@[simp] theorem State.mbRefuse_nextId (w : Option Nat) (e : Err) (s : State) : (s.mbRefuse w e).nextId = s.nextId := rfl
@[simp] theorem State.mbRefuse_waiting (w : Option Nat) (e : Err) (s : State) : (s.mbRefuse w e).waiting = s.waiting := rfl
@[simp] theorem State.mbRefuse_prov (w : Option Nat) (e : Err) (s : State) : (s.mbRefuse w e).prov = s.prov := rfl
@[simp] theorem State.mbRefuse_wins (w : Option Nat) (e : Err) (s : State) : (s.mbRefuse w e).wins = s.wins := rfl
@[simp] theorem State.mbRefuse_folds (w : Option Nat) (e : Err) (s : State) : (s.mbRefuse w e).folds = s.folds := rfl
@[simp] theorem State.mbRefuse_lanes (w : Option Nat) (e : Err) (s : State) : (s.mbRefuse w e).lanes = s.lanes := rfl
@[simp] theorem State.mbRefuse_lens (w : Option Nat) (e : Err) (s : State) : (s.mbRefuse w e).lens = s.lens := rfl
@[simp] theorem State.mbRefuse_reg (w : Option Nat) (e : Err) (s : State) : (s.mbRefuse w e).reg = s.reg := rfl
@[simp] theorem State.mbRefuse_cue (w : Option Nat) (e : Err) (s : State) : (s.mbRefuse w e).cue = s.cue := rfl
@[simp] theorem State.mbRefuse_xlt (w : Option Nat) (e : Err) (s : State) : (s.mbRefuse w e).xlt = s.xlt := rfl
@[simp] theorem State.mbRefuse_hot (w : Option Nat) (e : Err) (s : State) : (s.mbRefuse w e).hot = s.hot := rfl
@[simp] theorem State.mbRefuse_presc (w : Option Nat) (e : Err) (s : State) : (s.mbRefuse w e).presc = s.presc := rfl
@[simp] theorem State.mbRefuse_pws (w : Option Nat) (e : Err) (s : State) : (s.mbRefuse w e).pws = s.pws := rfl
@[simp] theorem State.mbRefuse_regs (w : Option Nat) (e : Err) (s : State) : (s.mbRefuse w e).regs = s.regs := rfl
@[simp] theorem State.mbRefuse_elog (w : Option Nat) (e : Err) (s : State) : (s.mbRefuse w e).elog = s.elog := rfl
@[simp] theorem State.mbRefuse_meas (w : Option Nat) (e : Err) (s : State) : (s.mbRefuse w e).meas = s.meas := rfl
@[simp] theorem State.mbRefuse_ctr (w : Option Nat) (e : Err) (s : State) : (s.mbRefuse w e).ctr = s.ctr := rfl
@[simp] theorem State.mbRefuse_hist (w : Option Nat) (e : Err) (s : State) : (s.mbRefuse w e).hist = s.hist := rfl
@[simp] theorem State.mbRefuse_power (w : Option Nat) (e : Err) (s : State) : (s.mbRefuse w e).power = s.power := rfl
@[simp] theorem State.mbRefuse_fuses (w : Option Nat) (e : Err) (s : State) : (s.mbRefuse w e).fuses = s.fuses := rfl
@[simp] theorem State.mbRefuse_res (w : Option Nat) (e : Err) (s : State) : (s.mbRefuse w e).res = s.res := rfl
@[simp] theorem State.mbRefuse_hand (w : Option Nat) (e : Err) (s : State) : (s.mbRefuse w e).hand = s.hand := rfl
@[simp] theorem State.mbRefuse_down (w : Option Nat) (e : Err) (s : State) : (s.mbRefuse w e).down = s.down := rfl
@[simp] theorem State.mbRefuse_acks (w : Option Nat) (e : Err) (s : State) : (s.mbRefuse w e).acks = s.acks := rfl
@[simp] theorem State.mbRefuse_ranges (w : Option Nat) (e : Err) (s : State) : (s.mbRefuse w e).ranges = s.ranges := rfl
@[simp] theorem State.mbRefuse_walks (w : Option Nat) (e : Err) (s : State) : (s.mbRefuse w e).walks = s.walks := rfl
@[simp] theorem State.mbRefuse_span (w : Option Nat) (e : Err) (s : State) : (s.mbRefuse w e).span = s.span := rfl
@[simp] theorem State.mbRefuse_test (w : Option Nat) (e : Err) (s : State) : (s.mbRefuse w e).test = s.test := rfl
@[simp] theorem State.mbRefuse_upsets (w : Option Nat) (e : Err) (s : State) : (s.mbRefuse w e).upsets = s.upsets := rfl
@[simp] theorem State.mbRefuse_bad (w : Option Nat) (e : Err) (s : State) : (s.mbRefuse w e).bad = s.bad := rfl
@[simp] theorem State.mbRefuse_acts (w : Option Nat) (e : Err) (s : State) : (s.mbRefuse w e).acts = s.acts := rfl
@[simp] theorem State.mbRefuse_sig (w : Option Nat) (e : Err) (s : State) : (s.mbRefuse w e).sig = s.sig := rfl
@[simp] theorem State.mbRefuse_ctrBit (w : Option Nat) (e : Err) (s : State) : (s.mbRefuse w e).ctrBit = s.ctrBit := rfl
@[simp] theorem State.mbRefuse_fresh (w : Option Nat) (e : Err) (s : State) : (s.mbRefuse w e).fresh = s.fresh := rfl
@[simp] theorem State.mbRefuse_out (w : Option Nat) (e : Err) (s : State) : (s.mbRefuse w e).out = s.out := rfl
@[simp] theorem State.mbRefuse_pending (w : Option Nat) (e : Err) (s : State) : (s.mbRefuse w e).pending = s.pending := rfl

/-! ### `MEAS_GEN` -/

@[simp] theorem State.measBump_fab (s : State) : (s.measBump).fab = s.fab := rfl
@[simp] theorem State.measBump_mem (s : State) : (s.measBump).mem = s.mem := rfl
@[simp] theorem State.measBump_heldOut (s : State) : (s.measBump).heldOut = s.heldOut := rfl
@[simp] theorem State.measBump_memWait (s : State) : (s.measBump).memWait = s.memWait := rfl
@[simp] theorem State.measBump_memOut (s : State) : (s.measBump).memOut = s.memOut := rfl
@[simp] theorem State.measBump_cfg (s : State) : (s.measBump).cfg = s.cfg := rfl
@[simp] theorem State.measBump_arr (s : State) : (s.measBump).arr = s.arr := rfl
@[simp] theorem State.measBump_dir (s : State) : (s.measBump).dir = s.dir := rfl
@[simp] theorem State.measBump_rot (s : State) : (s.measBump).rot = s.rot := rfl
@[simp] theorem State.measBump_wbb (s : State) : (s.measBump).wbb = s.wbb := rfl
@[simp] theorem State.measBump_mrs (s : State) : (s.measBump).mrs = s.mrs := rfl
@[simp] theorem State.measBump_txns (s : State) : (s.measBump).txns = s.txns := rfl
@[simp] theorem State.measBump_nextId (s : State) : (s.measBump).nextId = s.nextId := rfl
@[simp] theorem State.measBump_waiting (s : State) : (s.measBump).waiting = s.waiting := rfl
@[simp] theorem State.measBump_prov (s : State) : (s.measBump).prov = s.prov := rfl
@[simp] theorem State.measBump_wins (s : State) : (s.measBump).wins = s.wins := rfl
@[simp] theorem State.measBump_folds (s : State) : (s.measBump).folds = s.folds := rfl
@[simp] theorem State.measBump_lanes (s : State) : (s.measBump).lanes = s.lanes := rfl
@[simp] theorem State.measBump_lens (s : State) : (s.measBump).lens = s.lens := rfl
@[simp] theorem State.measBump_reg (s : State) : (s.measBump).reg = s.reg := rfl
@[simp] theorem State.measBump_cue (s : State) : (s.measBump).cue = s.cue := rfl
@[simp] theorem State.measBump_xlt (s : State) : (s.measBump).xlt = s.xlt := rfl
@[simp] theorem State.measBump_hot (s : State) : (s.measBump).hot = s.hot := rfl
@[simp] theorem State.measBump_presc (s : State) : (s.measBump).presc = s.presc := rfl
@[simp] theorem State.measBump_mbs (s : State) : (s.measBump).mbs = s.mbs := rfl
@[simp] theorem State.measBump_pws (s : State) : (s.measBump).pws = s.pws := rfl
@[simp] theorem State.measBump_regs (s : State) : (s.measBump).regs = s.regs := rfl
@[simp] theorem State.measBump_elog (s : State) : (s.measBump).elog = s.elog := rfl
@[simp] theorem State.measBump_ctr (s : State) : (s.measBump).ctr = s.ctr := rfl
@[simp] theorem State.measBump_hist (s : State) : (s.measBump).hist = s.hist := rfl
@[simp] theorem State.measBump_power (s : State) : (s.measBump).power = s.power := rfl
@[simp] theorem State.measBump_fuses (s : State) : (s.measBump).fuses = s.fuses := rfl
@[simp] theorem State.measBump_res (s : State) : (s.measBump).res = s.res := rfl
@[simp] theorem State.measBump_hand (s : State) : (s.measBump).hand = s.hand := rfl
@[simp] theorem State.measBump_down (s : State) : (s.measBump).down = s.down := rfl
@[simp] theorem State.measBump_acks (s : State) : (s.measBump).acks = s.acks := rfl
@[simp] theorem State.measBump_ranges (s : State) : (s.measBump).ranges = s.ranges := rfl
@[simp] theorem State.measBump_walks (s : State) : (s.measBump).walks = s.walks := rfl
@[simp] theorem State.measBump_span (s : State) : (s.measBump).span = s.span := rfl
@[simp] theorem State.measBump_test (s : State) : (s.measBump).test = s.test := rfl
@[simp] theorem State.measBump_upsets (s : State) : (s.measBump).upsets = s.upsets := rfl
@[simp] theorem State.measBump_bad (s : State) : (s.measBump).bad = s.bad := rfl
@[simp] theorem State.measBump_acts (s : State) : (s.measBump).acts = s.acts := rfl
@[simp] theorem State.measBump_sig (s : State) : (s.measBump).sig = s.sig := rfl
@[simp] theorem State.measBump_ctrBit (s : State) : (s.measBump).ctrBit = s.ctrBit := rfl
@[simp] theorem State.measBump_fresh (s : State) : (s.measBump).fresh = s.fresh := rfl
@[simp] theorem State.measBump_out (s : State) : (s.measBump).out = s.out := rfl
@[simp] theorem State.measBump_pending (s : State) : (s.measBump).pending = s.pending := rfl

/-! ### A credit spent -/

@[simp] theorem State.spend_mem (c : Nat × Nat) (s : State) : (s.spend c).mem = s.mem := rfl
@[simp] theorem State.spend_heldOut (c : Nat × Nat) (s : State) : (s.spend c).heldOut = s.heldOut := rfl
@[simp] theorem State.spend_memWait (c : Nat × Nat) (s : State) : (s.spend c).memWait = s.memWait := rfl
@[simp] theorem State.spend_memOut (c : Nat × Nat) (s : State) : (s.spend c).memOut = s.memOut := rfl
@[simp] theorem State.spend_cfg (c : Nat × Nat) (s : State) : (s.spend c).cfg = s.cfg := rfl
@[simp] theorem State.spend_arr (c : Nat × Nat) (s : State) : (s.spend c).arr = s.arr := rfl
@[simp] theorem State.spend_dir (c : Nat × Nat) (s : State) : (s.spend c).dir = s.dir := rfl
@[simp] theorem State.spend_rot (c : Nat × Nat) (s : State) : (s.spend c).rot = s.rot := rfl
@[simp] theorem State.spend_wbb (c : Nat × Nat) (s : State) : (s.spend c).wbb = s.wbb := rfl
@[simp] theorem State.spend_mrs (c : Nat × Nat) (s : State) : (s.spend c).mrs = s.mrs := rfl
@[simp] theorem State.spend_txns (c : Nat × Nat) (s : State) : (s.spend c).txns = s.txns := rfl
@[simp] theorem State.spend_nextId (c : Nat × Nat) (s : State) : (s.spend c).nextId = s.nextId := rfl
@[simp] theorem State.spend_waiting (c : Nat × Nat) (s : State) : (s.spend c).waiting = s.waiting := rfl
@[simp] theorem State.spend_prov (c : Nat × Nat) (s : State) : (s.spend c).prov = s.prov := rfl
@[simp] theorem State.spend_wins (c : Nat × Nat) (s : State) : (s.spend c).wins = s.wins := rfl
@[simp] theorem State.spend_folds (c : Nat × Nat) (s : State) : (s.spend c).folds = s.folds := rfl
@[simp] theorem State.spend_lanes (c : Nat × Nat) (s : State) : (s.spend c).lanes = s.lanes := rfl
@[simp] theorem State.spend_lens (c : Nat × Nat) (s : State) : (s.spend c).lens = s.lens := rfl
@[simp] theorem State.spend_reg (c : Nat × Nat) (s : State) : (s.spend c).reg = s.reg := rfl
@[simp] theorem State.spend_cue (c : Nat × Nat) (s : State) : (s.spend c).cue = s.cue := rfl
@[simp] theorem State.spend_xlt (c : Nat × Nat) (s : State) : (s.spend c).xlt = s.xlt := rfl
@[simp] theorem State.spend_hot (c : Nat × Nat) (s : State) : (s.spend c).hot = s.hot := rfl
@[simp] theorem State.spend_presc (c : Nat × Nat) (s : State) : (s.spend c).presc = s.presc := rfl
@[simp] theorem State.spend_mbs (c : Nat × Nat) (s : State) : (s.spend c).mbs = s.mbs := rfl
@[simp] theorem State.spend_pws (c : Nat × Nat) (s : State) : (s.spend c).pws = s.pws := rfl
@[simp] theorem State.spend_regs (c : Nat × Nat) (s : State) : (s.spend c).regs = s.regs := rfl
@[simp] theorem State.spend_elog (c : Nat × Nat) (s : State) : (s.spend c).elog = s.elog := rfl
@[simp] theorem State.spend_meas (c : Nat × Nat) (s : State) : (s.spend c).meas = s.meas := rfl
@[simp] theorem State.spend_ctr (c : Nat × Nat) (s : State) : (s.spend c).ctr = s.ctr := rfl
@[simp] theorem State.spend_hist (c : Nat × Nat) (s : State) : (s.spend c).hist = s.hist := rfl
@[simp] theorem State.spend_power (c : Nat × Nat) (s : State) : (s.spend c).power = s.power := rfl
@[simp] theorem State.spend_fuses (c : Nat × Nat) (s : State) : (s.spend c).fuses = s.fuses := rfl
@[simp] theorem State.spend_res (c : Nat × Nat) (s : State) : (s.spend c).res = s.res := rfl
@[simp] theorem State.spend_hand (c : Nat × Nat) (s : State) : (s.spend c).hand = s.hand := rfl
@[simp] theorem State.spend_down (c : Nat × Nat) (s : State) : (s.spend c).down = s.down := rfl
@[simp] theorem State.spend_acks (c : Nat × Nat) (s : State) : (s.spend c).acks = s.acks := rfl
@[simp] theorem State.spend_ranges (c : Nat × Nat) (s : State) : (s.spend c).ranges = s.ranges := rfl
@[simp] theorem State.spend_walks (c : Nat × Nat) (s : State) : (s.spend c).walks = s.walks := rfl
@[simp] theorem State.spend_span (c : Nat × Nat) (s : State) : (s.spend c).span = s.span := rfl
@[simp] theorem State.spend_test (c : Nat × Nat) (s : State) : (s.spend c).test = s.test := rfl
@[simp] theorem State.spend_upsets (c : Nat × Nat) (s : State) : (s.spend c).upsets = s.upsets := rfl
@[simp] theorem State.spend_bad (c : Nat × Nat) (s : State) : (s.spend c).bad = s.bad := rfl
@[simp] theorem State.spend_sig (c : Nat × Nat) (s : State) : (s.spend c).sig = s.sig := rfl
@[simp] theorem State.spend_ctrBit (c : Nat × Nat) (s : State) : (s.spend c).ctrBit = s.ctrBit := rfl
@[simp] theorem State.spend_fresh (c : Nat × Nat) (s : State) : (s.spend c).fresh = s.fresh := rfl
@[simp] theorem State.spend_out (c : Nat × Nat) (s : State) : (s.spend c).out = s.out := rfl
@[simp] theorem State.spend_pending (c : Nat × Nat) (s : State) : (s.spend c).pending = s.pending := rfl

/-! ### Debug signals of the step -/

@[simp] theorem State.sign_fab (src mask val : Nat) (p : Option Nat) (s : State) : (s.sign src mask val p).fab = s.fab := rfl
@[simp] theorem State.sign_mem (src mask val : Nat) (p : Option Nat) (s : State) : (s.sign src mask val p).mem = s.mem := rfl
@[simp] theorem State.sign_heldOut (src mask val : Nat) (p : Option Nat) (s : State) : (s.sign src mask val p).heldOut = s.heldOut := rfl
@[simp] theorem State.sign_memWait (src mask val : Nat) (p : Option Nat) (s : State) : (s.sign src mask val p).memWait = s.memWait := rfl
@[simp] theorem State.sign_memOut (src mask val : Nat) (p : Option Nat) (s : State) : (s.sign src mask val p).memOut = s.memOut := rfl
@[simp] theorem State.sign_cfg (src mask val : Nat) (p : Option Nat) (s : State) : (s.sign src mask val p).cfg = s.cfg := rfl
@[simp] theorem State.sign_arr (src mask val : Nat) (p : Option Nat) (s : State) : (s.sign src mask val p).arr = s.arr := rfl
@[simp] theorem State.sign_dir (src mask val : Nat) (p : Option Nat) (s : State) : (s.sign src mask val p).dir = s.dir := rfl
@[simp] theorem State.sign_rot (src mask val : Nat) (p : Option Nat) (s : State) : (s.sign src mask val p).rot = s.rot := rfl
@[simp] theorem State.sign_wbb (src mask val : Nat) (p : Option Nat) (s : State) : (s.sign src mask val p).wbb = s.wbb := rfl
@[simp] theorem State.sign_mrs (src mask val : Nat) (p : Option Nat) (s : State) : (s.sign src mask val p).mrs = s.mrs := rfl
@[simp] theorem State.sign_txns (src mask val : Nat) (p : Option Nat) (s : State) : (s.sign src mask val p).txns = s.txns := rfl
@[simp] theorem State.sign_nextId (src mask val : Nat) (p : Option Nat) (s : State) : (s.sign src mask val p).nextId = s.nextId := rfl
@[simp] theorem State.sign_waiting (src mask val : Nat) (p : Option Nat) (s : State) : (s.sign src mask val p).waiting = s.waiting := rfl
@[simp] theorem State.sign_prov (src mask val : Nat) (p : Option Nat) (s : State) : (s.sign src mask val p).prov = s.prov := rfl
@[simp] theorem State.sign_wins (src mask val : Nat) (p : Option Nat) (s : State) : (s.sign src mask val p).wins = s.wins := rfl
@[simp] theorem State.sign_folds (src mask val : Nat) (p : Option Nat) (s : State) : (s.sign src mask val p).folds = s.folds := rfl
@[simp] theorem State.sign_lanes (src mask val : Nat) (p : Option Nat) (s : State) : (s.sign src mask val p).lanes = s.lanes := rfl
@[simp] theorem State.sign_lens (src mask val : Nat) (p : Option Nat) (s : State) : (s.sign src mask val p).lens = s.lens := rfl
@[simp] theorem State.sign_reg (src mask val : Nat) (p : Option Nat) (s : State) : (s.sign src mask val p).reg = s.reg := rfl
@[simp] theorem State.sign_cue (src mask val : Nat) (p : Option Nat) (s : State) : (s.sign src mask val p).cue = s.cue := rfl
@[simp] theorem State.sign_xlt (src mask val : Nat) (p : Option Nat) (s : State) : (s.sign src mask val p).xlt = s.xlt := rfl
@[simp] theorem State.sign_hot (src mask val : Nat) (p : Option Nat) (s : State) : (s.sign src mask val p).hot = s.hot := rfl
@[simp] theorem State.sign_presc (src mask val : Nat) (p : Option Nat) (s : State) : (s.sign src mask val p).presc = s.presc := rfl
@[simp] theorem State.sign_mbs (src mask val : Nat) (p : Option Nat) (s : State) : (s.sign src mask val p).mbs = s.mbs := rfl
@[simp] theorem State.sign_pws (src mask val : Nat) (p : Option Nat) (s : State) : (s.sign src mask val p).pws = s.pws := rfl
@[simp] theorem State.sign_regs (src mask val : Nat) (p : Option Nat) (s : State) : (s.sign src mask val p).regs = s.regs := rfl
@[simp] theorem State.sign_elog (src mask val : Nat) (p : Option Nat) (s : State) : (s.sign src mask val p).elog = s.elog := rfl
@[simp] theorem State.sign_meas (src mask val : Nat) (p : Option Nat) (s : State) : (s.sign src mask val p).meas = s.meas := rfl
@[simp] theorem State.sign_ctr (src mask val : Nat) (p : Option Nat) (s : State) : (s.sign src mask val p).ctr = s.ctr := rfl
@[simp] theorem State.sign_hist (src mask val : Nat) (p : Option Nat) (s : State) : (s.sign src mask val p).hist = s.hist := rfl
@[simp] theorem State.sign_power (src mask val : Nat) (p : Option Nat) (s : State) : (s.sign src mask val p).power = s.power := rfl
@[simp] theorem State.sign_fuses (src mask val : Nat) (p : Option Nat) (s : State) : (s.sign src mask val p).fuses = s.fuses := rfl
@[simp] theorem State.sign_res (src mask val : Nat) (p : Option Nat) (s : State) : (s.sign src mask val p).res = s.res := rfl
@[simp] theorem State.sign_hand (src mask val : Nat) (p : Option Nat) (s : State) : (s.sign src mask val p).hand = s.hand := rfl
@[simp] theorem State.sign_down (src mask val : Nat) (p : Option Nat) (s : State) : (s.sign src mask val p).down = s.down := rfl
@[simp] theorem State.sign_acks (src mask val : Nat) (p : Option Nat) (s : State) : (s.sign src mask val p).acks = s.acks := rfl
@[simp] theorem State.sign_ranges (src mask val : Nat) (p : Option Nat) (s : State) : (s.sign src mask val p).ranges = s.ranges := rfl
@[simp] theorem State.sign_walks (src mask val : Nat) (p : Option Nat) (s : State) : (s.sign src mask val p).walks = s.walks := rfl
@[simp] theorem State.sign_span (src mask val : Nat) (p : Option Nat) (s : State) : (s.sign src mask val p).span = s.span := rfl
@[simp] theorem State.sign_test (src mask val : Nat) (p : Option Nat) (s : State) : (s.sign src mask val p).test = s.test := rfl
@[simp] theorem State.sign_upsets (src mask val : Nat) (p : Option Nat) (s : State) : (s.sign src mask val p).upsets = s.upsets := rfl
@[simp] theorem State.sign_bad (src mask val : Nat) (p : Option Nat) (s : State) : (s.sign src mask val p).bad = s.bad := rfl
@[simp] theorem State.sign_acts (src mask val : Nat) (p : Option Nat) (s : State) : (s.sign src mask val p).acts = s.acts := rfl
@[simp] theorem State.sign_ctrBit (src mask val : Nat) (p : Option Nat) (s : State) : (s.sign src mask val p).ctrBit = s.ctrBit := rfl
@[simp] theorem State.sign_fresh (src mask val : Nat) (p : Option Nat) (s : State) : (s.sign src mask val p).fresh = s.fresh := rfl
@[simp] theorem State.sign_out (src mask val : Nat) (p : Option Nat) (s : State) : (s.sign src mask val p).out = s.out := rfl
@[simp] theorem State.sign_pending (src mask val : Nat) (p : Option Nat) (s : State) : (s.sign src mask val p).pending = s.pending := rfl

/-! ### The activity counts -/

@[simp] theorem State.act_fab (i n : Nat) (s : State) : (s.act i n).fab = s.fab := rfl
@[simp] theorem State.act_mem (i n : Nat) (s : State) : (s.act i n).mem = s.mem := rfl
@[simp] theorem State.act_heldOut (i n : Nat) (s : State) : (s.act i n).heldOut = s.heldOut := rfl
@[simp] theorem State.act_memWait (i n : Nat) (s : State) : (s.act i n).memWait = s.memWait := rfl
@[simp] theorem State.act_memOut (i n : Nat) (s : State) : (s.act i n).memOut = s.memOut := rfl
@[simp] theorem State.act_cfg (i n : Nat) (s : State) : (s.act i n).cfg = s.cfg := rfl
@[simp] theorem State.act_arr (i n : Nat) (s : State) : (s.act i n).arr = s.arr := rfl
@[simp] theorem State.act_dir (i n : Nat) (s : State) : (s.act i n).dir = s.dir := rfl
@[simp] theorem State.act_rot (i n : Nat) (s : State) : (s.act i n).rot = s.rot := rfl
@[simp] theorem State.act_wbb (i n : Nat) (s : State) : (s.act i n).wbb = s.wbb := rfl
@[simp] theorem State.act_mrs (i n : Nat) (s : State) : (s.act i n).mrs = s.mrs := rfl
@[simp] theorem State.act_txns (i n : Nat) (s : State) : (s.act i n).txns = s.txns := rfl
@[simp] theorem State.act_nextId (i n : Nat) (s : State) : (s.act i n).nextId = s.nextId := rfl
@[simp] theorem State.act_waiting (i n : Nat) (s : State) : (s.act i n).waiting = s.waiting := rfl
@[simp] theorem State.act_prov (i n : Nat) (s : State) : (s.act i n).prov = s.prov := rfl
@[simp] theorem State.act_wins (i n : Nat) (s : State) : (s.act i n).wins = s.wins := rfl
@[simp] theorem State.act_folds (i n : Nat) (s : State) : (s.act i n).folds = s.folds := rfl
@[simp] theorem State.act_lanes (i n : Nat) (s : State) : (s.act i n).lanes = s.lanes := rfl
@[simp] theorem State.act_lens (i n : Nat) (s : State) : (s.act i n).lens = s.lens := rfl
@[simp] theorem State.act_reg (i n : Nat) (s : State) : (s.act i n).reg = s.reg := rfl
@[simp] theorem State.act_cue (i n : Nat) (s : State) : (s.act i n).cue = s.cue := rfl
@[simp] theorem State.act_xlt (i n : Nat) (s : State) : (s.act i n).xlt = s.xlt := rfl
@[simp] theorem State.act_hot (i n : Nat) (s : State) : (s.act i n).hot = s.hot := rfl
@[simp] theorem State.act_presc (i n : Nat) (s : State) : (s.act i n).presc = s.presc := rfl
@[simp] theorem State.act_mbs (i n : Nat) (s : State) : (s.act i n).mbs = s.mbs := rfl
@[simp] theorem State.act_pws (i n : Nat) (s : State) : (s.act i n).pws = s.pws := rfl
@[simp] theorem State.act_regs (i n : Nat) (s : State) : (s.act i n).regs = s.regs := rfl
@[simp] theorem State.act_elog (i n : Nat) (s : State) : (s.act i n).elog = s.elog := rfl
@[simp] theorem State.act_meas (i n : Nat) (s : State) : (s.act i n).meas = s.meas := rfl
@[simp] theorem State.act_ctr (i n : Nat) (s : State) : (s.act i n).ctr = s.ctr := rfl
@[simp] theorem State.act_hist (i n : Nat) (s : State) : (s.act i n).hist = s.hist := rfl
@[simp] theorem State.act_power (i n : Nat) (s : State) : (s.act i n).power = s.power := rfl
@[simp] theorem State.act_fuses (i n : Nat) (s : State) : (s.act i n).fuses = s.fuses := rfl
@[simp] theorem State.act_res (i n : Nat) (s : State) : (s.act i n).res = s.res := rfl
@[simp] theorem State.act_hand (i n : Nat) (s : State) : (s.act i n).hand = s.hand := rfl
@[simp] theorem State.act_down (i n : Nat) (s : State) : (s.act i n).down = s.down := rfl
@[simp] theorem State.act_acks (i n : Nat) (s : State) : (s.act i n).acks = s.acks := rfl
@[simp] theorem State.act_ranges (i n : Nat) (s : State) : (s.act i n).ranges = s.ranges := rfl
@[simp] theorem State.act_walks (i n : Nat) (s : State) : (s.act i n).walks = s.walks := rfl
@[simp] theorem State.act_span (i n : Nat) (s : State) : (s.act i n).span = s.span := rfl
@[simp] theorem State.act_test (i n : Nat) (s : State) : (s.act i n).test = s.test := rfl
@[simp] theorem State.act_upsets (i n : Nat) (s : State) : (s.act i n).upsets = s.upsets := rfl
@[simp] theorem State.act_bad (i n : Nat) (s : State) : (s.act i n).bad = s.bad := rfl
@[simp] theorem State.act_sig (i n : Nat) (s : State) : (s.act i n).sig = s.sig := rfl
@[simp] theorem State.act_ctrBit (i n : Nat) (s : State) : (s.act i n).ctrBit = s.ctrBit := rfl
@[simp] theorem State.act_fresh (i n : Nat) (s : State) : (s.act i n).fresh = s.fresh := rfl
@[simp] theorem State.act_out (i n : Nat) (s : State) : (s.act i n).out = s.out := rfl
@[simp] theorem State.act_pending (i n : Nat) (s : State) : (s.act i n).pending = s.pending := rfl

/-! ### A line dropped -/

@[simp] theorem State.delLine_fab (c : CLine) (s : State) : (s.delLine c).fab = s.fab := rfl
@[simp] theorem State.delLine_mem (c : CLine) (s : State) : (s.delLine c).mem = s.mem := rfl
@[simp] theorem State.delLine_heldOut (c : CLine) (s : State) : (s.delLine c).heldOut = s.heldOut := rfl
@[simp] theorem State.delLine_memWait (c : CLine) (s : State) : (s.delLine c).memWait = s.memWait := rfl
@[simp] theorem State.delLine_memOut (c : CLine) (s : State) : (s.delLine c).memOut = s.memOut := rfl
@[simp] theorem State.delLine_cfg (c : CLine) (s : State) : (s.delLine c).cfg = s.cfg := rfl
@[simp] theorem State.delLine_dir (c : CLine) (s : State) : (s.delLine c).dir = s.dir := rfl
@[simp] theorem State.delLine_rot (c : CLine) (s : State) : (s.delLine c).rot = s.rot := rfl
@[simp] theorem State.delLine_wbb (c : CLine) (s : State) : (s.delLine c).wbb = s.wbb := rfl
@[simp] theorem State.delLine_mrs (c : CLine) (s : State) : (s.delLine c).mrs = s.mrs := rfl
@[simp] theorem State.delLine_txns (c : CLine) (s : State) : (s.delLine c).txns = s.txns := rfl
@[simp] theorem State.delLine_nextId (c : CLine) (s : State) : (s.delLine c).nextId = s.nextId := rfl
@[simp] theorem State.delLine_waiting (c : CLine) (s : State) : (s.delLine c).waiting = s.waiting := rfl
@[simp] theorem State.delLine_prov (c : CLine) (s : State) : (s.delLine c).prov = s.prov := rfl
@[simp] theorem State.delLine_wins (c : CLine) (s : State) : (s.delLine c).wins = s.wins := rfl
@[simp] theorem State.delLine_folds (c : CLine) (s : State) : (s.delLine c).folds = s.folds := rfl
@[simp] theorem State.delLine_lanes (c : CLine) (s : State) : (s.delLine c).lanes = s.lanes := rfl
@[simp] theorem State.delLine_lens (c : CLine) (s : State) : (s.delLine c).lens = s.lens := rfl
@[simp] theorem State.delLine_reg (c : CLine) (s : State) : (s.delLine c).reg = s.reg := rfl
@[simp] theorem State.delLine_cue (c : CLine) (s : State) : (s.delLine c).cue = s.cue := rfl
@[simp] theorem State.delLine_xlt (c : CLine) (s : State) : (s.delLine c).xlt = s.xlt := rfl
@[simp] theorem State.delLine_hot (c : CLine) (s : State) : (s.delLine c).hot = s.hot := rfl
@[simp] theorem State.delLine_presc (c : CLine) (s : State) : (s.delLine c).presc = s.presc := rfl
@[simp] theorem State.delLine_mbs (c : CLine) (s : State) : (s.delLine c).mbs = s.mbs := rfl
@[simp] theorem State.delLine_pws (c : CLine) (s : State) : (s.delLine c).pws = s.pws := rfl
@[simp] theorem State.delLine_regs (c : CLine) (s : State) : (s.delLine c).regs = s.regs := rfl
@[simp] theorem State.delLine_elog (c : CLine) (s : State) : (s.delLine c).elog = s.elog := rfl
@[simp] theorem State.delLine_meas (c : CLine) (s : State) : (s.delLine c).meas = s.meas := rfl
@[simp] theorem State.delLine_ctr (c : CLine) (s : State) : (s.delLine c).ctr = s.ctr := rfl
@[simp] theorem State.delLine_hist (c : CLine) (s : State) : (s.delLine c).hist = s.hist := rfl
@[simp] theorem State.delLine_power (c : CLine) (s : State) : (s.delLine c).power = s.power := rfl
@[simp] theorem State.delLine_fuses (c : CLine) (s : State) : (s.delLine c).fuses = s.fuses := rfl
@[simp] theorem State.delLine_res (c : CLine) (s : State) : (s.delLine c).res = s.res := rfl
@[simp] theorem State.delLine_hand (c : CLine) (s : State) : (s.delLine c).hand = s.hand := rfl
@[simp] theorem State.delLine_down (c : CLine) (s : State) : (s.delLine c).down = s.down := rfl
@[simp] theorem State.delLine_acks (c : CLine) (s : State) : (s.delLine c).acks = s.acks := rfl
@[simp] theorem State.delLine_ranges (c : CLine) (s : State) : (s.delLine c).ranges = s.ranges := rfl
@[simp] theorem State.delLine_walks (c : CLine) (s : State) : (s.delLine c).walks = s.walks := rfl
@[simp] theorem State.delLine_span (c : CLine) (s : State) : (s.delLine c).span = s.span := rfl
@[simp] theorem State.delLine_test (c : CLine) (s : State) : (s.delLine c).test = s.test := rfl
@[simp] theorem State.delLine_upsets (c : CLine) (s : State) : (s.delLine c).upsets = s.upsets := rfl
@[simp] theorem State.delLine_bad (c : CLine) (s : State) : (s.delLine c).bad = s.bad := rfl
@[simp] theorem State.delLine_acts (c : CLine) (s : State) : (s.delLine c).acts = s.acts := rfl
@[simp] theorem State.delLine_sig (c : CLine) (s : State) : (s.delLine c).sig = s.sig := rfl
@[simp] theorem State.delLine_ctrBit (c : CLine) (s : State) : (s.delLine c).ctrBit = s.ctrBit := rfl
@[simp] theorem State.delLine_fresh (c : CLine) (s : State) : (s.delLine c).fresh = s.fresh := rfl
@[simp] theorem State.delLine_out (c : CLine) (s : State) : (s.delLine c).out = s.out := rfl
@[simp] theorem State.delLine_pending (c : CLine) (s : State) : (s.delLine c).pending = s.pending := rfl

/-! ### The end of every meaning -/

@[simp] theorem State.settle_fab (s : State) : (s.settle).fab = s.fab := rfl
@[simp] theorem State.settle_mem (s : State) : (s.settle).mem = s.mem := rfl
@[simp] theorem State.settle_heldOut (s : State) : (s.settle).heldOut = s.heldOut := rfl
@[simp] theorem State.settle_memWait (s : State) : (s.settle).memWait = s.memWait := rfl
@[simp] theorem State.settle_memOut (s : State) : (s.settle).memOut = s.memOut := rfl
@[simp] theorem State.settle_cfg (s : State) : (s.settle).cfg = s.cfg := rfl
@[simp] theorem State.settle_arr (s : State) : (s.settle).arr = s.arr := rfl
@[simp] theorem State.settle_dir (s : State) : (s.settle).dir = s.dir := rfl
@[simp] theorem State.settle_rot (s : State) : (s.settle).rot = s.rot := rfl
@[simp] theorem State.settle_wbb (s : State) : (s.settle).wbb = s.wbb := rfl
@[simp] theorem State.settle_mrs (s : State) : (s.settle).mrs = s.mrs := rfl
@[simp] theorem State.settle_txns (s : State) : (s.settle).txns = s.txns := rfl
@[simp] theorem State.settle_nextId (s : State) : (s.settle).nextId = s.nextId := rfl
@[simp] theorem State.settle_waiting (s : State) : (s.settle).waiting = s.waiting := rfl
@[simp] theorem State.settle_prov (s : State) : (s.settle).prov = s.prov := rfl
@[simp] theorem State.settle_wins (s : State) : (s.settle).wins = s.wins := rfl
@[simp] theorem State.settle_folds (s : State) : (s.settle).folds = s.folds := rfl
@[simp] theorem State.settle_lanes (s : State) : (s.settle).lanes = s.lanes := rfl
@[simp] theorem State.settle_reg (s : State) : (s.settle).reg = s.reg := rfl
@[simp] theorem State.settle_cue (s : State) : (s.settle).cue = s.cue := rfl
@[simp] theorem State.settle_xlt (s : State) : (s.settle).xlt = s.xlt := rfl
@[simp] theorem State.settle_hot (s : State) : (s.settle).hot = s.hot := rfl
@[simp] theorem State.settle_presc (s : State) : (s.settle).presc = s.presc := rfl
@[simp] theorem State.settle_mbs (s : State) : (s.settle).mbs = s.mbs := rfl
@[simp] theorem State.settle_pws (s : State) : (s.settle).pws = s.pws := rfl
@[simp] theorem State.settle_regs (s : State) : (s.settle).regs = s.regs := rfl
@[simp] theorem State.settle_elog (s : State) : (s.settle).elog = s.elog := rfl
@[simp] theorem State.settle_meas (s : State) : (s.settle).meas = s.meas := rfl
@[simp] theorem State.settle_ctr (s : State) : (s.settle).ctr = s.ctr := rfl
@[simp] theorem State.settle_hist (s : State) : (s.settle).hist = s.hist := rfl
@[simp] theorem State.settle_power (s : State) : (s.settle).power = s.power := rfl
@[simp] theorem State.settle_fuses (s : State) : (s.settle).fuses = s.fuses := rfl
@[simp] theorem State.settle_res (s : State) : (s.settle).res = s.res := rfl
@[simp] theorem State.settle_hand (s : State) : (s.settle).hand = s.hand := rfl
@[simp] theorem State.settle_down (s : State) : (s.settle).down = s.down := rfl
@[simp] theorem State.settle_acks (s : State) : (s.settle).acks = s.acks := rfl
@[simp] theorem State.settle_ranges (s : State) : (s.settle).ranges = s.ranges := rfl
@[simp] theorem State.settle_walks (s : State) : (s.settle).walks = s.walks := rfl
@[simp] theorem State.settle_span (s : State) : (s.settle).span = s.span := rfl
@[simp] theorem State.settle_test (s : State) : (s.settle).test = s.test := rfl
@[simp] theorem State.settle_upsets (s : State) : (s.settle).upsets = s.upsets := rfl
@[simp] theorem State.settle_bad (s : State) : (s.settle).bad = s.bad := rfl
@[simp] theorem State.settle_acts (s : State) : (s.settle).acts = s.acts := rfl
@[simp] theorem State.settle_sig (s : State) : (s.settle).sig = s.sig := rfl
@[simp] theorem State.settle_ctrBit (s : State) : (s.settle).ctrBit = s.ctrBit := rfl
@[simp] theorem State.settle_fresh (s : State) : (s.settle).fresh = s.fresh := rfl
@[simp] theorem State.settle_out (s : State) : (s.settle).out = s.out := rfl
@[simp] theorem State.settle_pending (s : State) : (s.settle).pending = s.pending := rfl

/-! ### Metering -/

@[simp] theorem State.useOf_fab (g : Option Nat) (r n : Nat) (s : State) : (s.useOf g r n).fab = s.fab := by cases g <;> rfl
@[simp] theorem State.useOf_mem (g : Option Nat) (r n : Nat) (s : State) : (s.useOf g r n).mem = s.mem := by cases g <;> rfl
@[simp] theorem State.useOf_heldOut (g : Option Nat) (r n : Nat) (s : State) : (s.useOf g r n).heldOut = s.heldOut := by cases g <;> rfl
@[simp] theorem State.useOf_memWait (g : Option Nat) (r n : Nat) (s : State) : (s.useOf g r n).memWait = s.memWait := by cases g <;> rfl
@[simp] theorem State.useOf_memOut (g : Option Nat) (r n : Nat) (s : State) : (s.useOf g r n).memOut = s.memOut := by cases g <;> rfl
@[simp] theorem State.useOf_cfg (g : Option Nat) (r n : Nat) (s : State) : (s.useOf g r n).cfg = s.cfg := by cases g <;> rfl
@[simp] theorem State.useOf_arr (g : Option Nat) (r n : Nat) (s : State) : (s.useOf g r n).arr = s.arr := by cases g <;> rfl
@[simp] theorem State.useOf_dir (g : Option Nat) (r n : Nat) (s : State) : (s.useOf g r n).dir = s.dir := by cases g <;> rfl
@[simp] theorem State.useOf_rot (g : Option Nat) (r n : Nat) (s : State) : (s.useOf g r n).rot = s.rot := by cases g <;> rfl
@[simp] theorem State.useOf_wbb (g : Option Nat) (r n : Nat) (s : State) : (s.useOf g r n).wbb = s.wbb := by cases g <;> rfl
@[simp] theorem State.useOf_mrs (g : Option Nat) (r n : Nat) (s : State) : (s.useOf g r n).mrs = s.mrs := by cases g <;> rfl
@[simp] theorem State.useOf_txns (g : Option Nat) (r n : Nat) (s : State) : (s.useOf g r n).txns = s.txns := by cases g <;> rfl
@[simp] theorem State.useOf_nextId (g : Option Nat) (r n : Nat) (s : State) : (s.useOf g r n).nextId = s.nextId := by cases g <;> rfl
@[simp] theorem State.useOf_waiting (g : Option Nat) (r n : Nat) (s : State) : (s.useOf g r n).waiting = s.waiting := by cases g <;> rfl
@[simp] theorem State.useOf_prov (g : Option Nat) (r n : Nat) (s : State) : (s.useOf g r n).prov = s.prov := by cases g <;> rfl
@[simp] theorem State.useOf_wins (g : Option Nat) (r n : Nat) (s : State) : (s.useOf g r n).wins = s.wins := by cases g <;> rfl
@[simp] theorem State.useOf_folds (g : Option Nat) (r n : Nat) (s : State) : (s.useOf g r n).folds = s.folds := by cases g <;> rfl
@[simp] theorem State.useOf_lanes (g : Option Nat) (r n : Nat) (s : State) : (s.useOf g r n).lanes = s.lanes := by cases g <;> rfl
@[simp] theorem State.useOf_lens (g : Option Nat) (r n : Nat) (s : State) : (s.useOf g r n).lens = s.lens := by cases g <;> rfl
@[simp] theorem State.useOf_cue (g : Option Nat) (r n : Nat) (s : State) : (s.useOf g r n).cue = s.cue := by cases g <;> rfl
@[simp] theorem State.useOf_xlt (g : Option Nat) (r n : Nat) (s : State) : (s.useOf g r n).xlt = s.xlt := by cases g <;> rfl
@[simp] theorem State.useOf_hot (g : Option Nat) (r n : Nat) (s : State) : (s.useOf g r n).hot = s.hot := by cases g <;> rfl
@[simp] theorem State.useOf_presc (g : Option Nat) (r n : Nat) (s : State) : (s.useOf g r n).presc = s.presc := by cases g <;> rfl
@[simp] theorem State.useOf_mbs (g : Option Nat) (r n : Nat) (s : State) : (s.useOf g r n).mbs = s.mbs := by cases g <;> rfl
@[simp] theorem State.useOf_pws (g : Option Nat) (r n : Nat) (s : State) : (s.useOf g r n).pws = s.pws := by cases g <;> rfl
@[simp] theorem State.useOf_regs (g : Option Nat) (r n : Nat) (s : State) : (s.useOf g r n).regs = s.regs := by cases g <;> rfl
@[simp] theorem State.useOf_elog (g : Option Nat) (r n : Nat) (s : State) : (s.useOf g r n).elog = s.elog := by cases g <;> rfl
@[simp] theorem State.useOf_meas (g : Option Nat) (r n : Nat) (s : State) : (s.useOf g r n).meas = s.meas := by cases g <;> rfl
@[simp] theorem State.useOf_ctr (g : Option Nat) (r n : Nat) (s : State) : (s.useOf g r n).ctr = s.ctr := by cases g <;> rfl
@[simp] theorem State.useOf_hist (g : Option Nat) (r n : Nat) (s : State) : (s.useOf g r n).hist = s.hist := by cases g <;> rfl
@[simp] theorem State.useOf_power (g : Option Nat) (r n : Nat) (s : State) : (s.useOf g r n).power = s.power := by cases g <;> rfl
@[simp] theorem State.useOf_fuses (g : Option Nat) (r n : Nat) (s : State) : (s.useOf g r n).fuses = s.fuses := by cases g <;> rfl
@[simp] theorem State.useOf_res (g : Option Nat) (r n : Nat) (s : State) : (s.useOf g r n).res = s.res := by cases g <;> rfl
@[simp] theorem State.useOf_hand (g : Option Nat) (r n : Nat) (s : State) : (s.useOf g r n).hand = s.hand := by cases g <;> rfl
@[simp] theorem State.useOf_down (g : Option Nat) (r n : Nat) (s : State) : (s.useOf g r n).down = s.down := by cases g <;> rfl
@[simp] theorem State.useOf_acks (g : Option Nat) (r n : Nat) (s : State) : (s.useOf g r n).acks = s.acks := by cases g <;> rfl
@[simp] theorem State.useOf_ranges (g : Option Nat) (r n : Nat) (s : State) : (s.useOf g r n).ranges = s.ranges := by cases g <;> rfl
@[simp] theorem State.useOf_walks (g : Option Nat) (r n : Nat) (s : State) : (s.useOf g r n).walks = s.walks := by cases g <;> rfl
@[simp] theorem State.useOf_span (g : Option Nat) (r n : Nat) (s : State) : (s.useOf g r n).span = s.span := by cases g <;> rfl
@[simp] theorem State.useOf_test (g : Option Nat) (r n : Nat) (s : State) : (s.useOf g r n).test = s.test := by cases g <;> rfl
@[simp] theorem State.useOf_upsets (g : Option Nat) (r n : Nat) (s : State) : (s.useOf g r n).upsets = s.upsets := by cases g <;> rfl
@[simp] theorem State.useOf_bad (g : Option Nat) (r n : Nat) (s : State) : (s.useOf g r n).bad = s.bad := by cases g <;> rfl
@[simp] theorem State.useOf_acts (g : Option Nat) (r n : Nat) (s : State) : (s.useOf g r n).acts = s.acts := by cases g <;> rfl
@[simp] theorem State.useOf_sig (g : Option Nat) (r n : Nat) (s : State) : (s.useOf g r n).sig = s.sig := by cases g <;> rfl
@[simp] theorem State.useOf_ctrBit (g : Option Nat) (r n : Nat) (s : State) : (s.useOf g r n).ctrBit = s.ctrBit := by cases g <;> rfl
@[simp] theorem State.useOf_fresh (g : Option Nat) (r n : Nat) (s : State) : (s.useOf g r n).fresh = s.fresh := by cases g <;> rfl
@[simp] theorem State.useOf_out (g : Option Nat) (r n : Nat) (s : State) : (s.useOf g r n).out = s.out := by cases g <;> rfl
@[simp] theorem State.useOf_pending (g : Option Nat) (r n : Nat) (s : State) : (s.useOf g r n).pending = s.pending := by cases g <;> rfl

/-! ### A line put -/

@[simp] theorem State.putLine_fab (c : CLine) (s : State) : (s.putLine c).fab = s.fab := by unfold State.putLine; split <;> rfl
@[simp] theorem State.putLine_mem (c : CLine) (s : State) : (s.putLine c).mem = s.mem := by unfold State.putLine; split <;> rfl
@[simp] theorem State.putLine_heldOut (c : CLine) (s : State) : (s.putLine c).heldOut = s.heldOut := by unfold State.putLine; split <;> rfl
@[simp] theorem State.putLine_memWait (c : CLine) (s : State) : (s.putLine c).memWait = s.memWait := by unfold State.putLine; split <;> rfl
@[simp] theorem State.putLine_memOut (c : CLine) (s : State) : (s.putLine c).memOut = s.memOut := by unfold State.putLine; split <;> rfl
@[simp] theorem State.putLine_cfg (c : CLine) (s : State) : (s.putLine c).cfg = s.cfg := by unfold State.putLine; split <;> rfl
@[simp] theorem State.putLine_dir (c : CLine) (s : State) : (s.putLine c).dir = s.dir := by unfold State.putLine; split <;> rfl
@[simp] theorem State.putLine_rot (c : CLine) (s : State) : (s.putLine c).rot = s.rot := by unfold State.putLine; split <;> rfl
@[simp] theorem State.putLine_wbb (c : CLine) (s : State) : (s.putLine c).wbb = s.wbb := by unfold State.putLine; split <;> rfl
@[simp] theorem State.putLine_mrs (c : CLine) (s : State) : (s.putLine c).mrs = s.mrs := by unfold State.putLine; split <;> rfl
@[simp] theorem State.putLine_txns (c : CLine) (s : State) : (s.putLine c).txns = s.txns := by unfold State.putLine; split <;> rfl
@[simp] theorem State.putLine_nextId (c : CLine) (s : State) : (s.putLine c).nextId = s.nextId := by unfold State.putLine; split <;> rfl
@[simp] theorem State.putLine_waiting (c : CLine) (s : State) : (s.putLine c).waiting = s.waiting := by unfold State.putLine; split <;> rfl
@[simp] theorem State.putLine_prov (c : CLine) (s : State) : (s.putLine c).prov = s.prov := by unfold State.putLine; split <;> rfl
@[simp] theorem State.putLine_wins (c : CLine) (s : State) : (s.putLine c).wins = s.wins := by unfold State.putLine; split <;> rfl
@[simp] theorem State.putLine_folds (c : CLine) (s : State) : (s.putLine c).folds = s.folds := by unfold State.putLine; split <;> rfl
@[simp] theorem State.putLine_lanes (c : CLine) (s : State) : (s.putLine c).lanes = s.lanes := by unfold State.putLine; split <;> rfl
@[simp] theorem State.putLine_lens (c : CLine) (s : State) : (s.putLine c).lens = s.lens := by unfold State.putLine; split <;> rfl
@[simp] theorem State.putLine_reg (c : CLine) (s : State) : (s.putLine c).reg = s.reg := by unfold State.putLine; split <;> rfl
@[simp] theorem State.putLine_cue (c : CLine) (s : State) : (s.putLine c).cue = s.cue := by unfold State.putLine; split <;> rfl
@[simp] theorem State.putLine_xlt (c : CLine) (s : State) : (s.putLine c).xlt = s.xlt := by unfold State.putLine; split <;> rfl
@[simp] theorem State.putLine_hot (c : CLine) (s : State) : (s.putLine c).hot = s.hot := by unfold State.putLine; split <;> rfl
@[simp] theorem State.putLine_presc (c : CLine) (s : State) : (s.putLine c).presc = s.presc := by unfold State.putLine; split <;> rfl
@[simp] theorem State.putLine_mbs (c : CLine) (s : State) : (s.putLine c).mbs = s.mbs := by unfold State.putLine; split <;> rfl
@[simp] theorem State.putLine_pws (c : CLine) (s : State) : (s.putLine c).pws = s.pws := by unfold State.putLine; split <;> rfl
@[simp] theorem State.putLine_regs (c : CLine) (s : State) : (s.putLine c).regs = s.regs := by unfold State.putLine; split <;> rfl
@[simp] theorem State.putLine_elog (c : CLine) (s : State) : (s.putLine c).elog = s.elog := by unfold State.putLine; split <;> rfl
@[simp] theorem State.putLine_meas (c : CLine) (s : State) : (s.putLine c).meas = s.meas := by unfold State.putLine; split <;> rfl
@[simp] theorem State.putLine_ctr (c : CLine) (s : State) : (s.putLine c).ctr = s.ctr := by unfold State.putLine; split <;> rfl
@[simp] theorem State.putLine_hist (c : CLine) (s : State) : (s.putLine c).hist = s.hist := by unfold State.putLine; split <;> rfl
@[simp] theorem State.putLine_power (c : CLine) (s : State) : (s.putLine c).power = s.power := by unfold State.putLine; split <;> rfl
@[simp] theorem State.putLine_fuses (c : CLine) (s : State) : (s.putLine c).fuses = s.fuses := by unfold State.putLine; split <;> rfl
@[simp] theorem State.putLine_res (c : CLine) (s : State) : (s.putLine c).res = s.res := by unfold State.putLine; split <;> rfl
@[simp] theorem State.putLine_hand (c : CLine) (s : State) : (s.putLine c).hand = s.hand := by unfold State.putLine; split <;> rfl
@[simp] theorem State.putLine_down (c : CLine) (s : State) : (s.putLine c).down = s.down := by unfold State.putLine; split <;> rfl
@[simp] theorem State.putLine_acks (c : CLine) (s : State) : (s.putLine c).acks = s.acks := by unfold State.putLine; split <;> rfl
@[simp] theorem State.putLine_ranges (c : CLine) (s : State) : (s.putLine c).ranges = s.ranges := by unfold State.putLine; split <;> rfl
@[simp] theorem State.putLine_walks (c : CLine) (s : State) : (s.putLine c).walks = s.walks := by unfold State.putLine; split <;> rfl
@[simp] theorem State.putLine_span (c : CLine) (s : State) : (s.putLine c).span = s.span := by unfold State.putLine; split <;> rfl
@[simp] theorem State.putLine_test (c : CLine) (s : State) : (s.putLine c).test = s.test := by unfold State.putLine; split <;> rfl
@[simp] theorem State.putLine_upsets (c : CLine) (s : State) : (s.putLine c).upsets = s.upsets := by unfold State.putLine; split <;> rfl
@[simp] theorem State.putLine_bad (c : CLine) (s : State) : (s.putLine c).bad = s.bad := by unfold State.putLine; split <;> rfl
@[simp] theorem State.putLine_acts (c : CLine) (s : State) : (s.putLine c).acts = s.acts := by unfold State.putLine; split <;> rfl
@[simp] theorem State.putLine_sig (c : CLine) (s : State) : (s.putLine c).sig = s.sig := by unfold State.putLine; split <;> rfl
@[simp] theorem State.putLine_ctrBit (c : CLine) (s : State) : (s.putLine c).ctrBit = s.ctrBit := by unfold State.putLine; split <;> rfl
@[simp] theorem State.putLine_fresh (c : CLine) (s : State) : (s.putLine c).fresh = s.fresh := by unfold State.putLine; split <;> rfl
@[simp] theorem State.putLine_out (c : CLine) (s : State) : (s.putLine c).out = s.out := by unfold State.putLine; split <;> rfl
@[simp] theorem State.putLine_pending (c : CLine) (s : State) : (s.putLine c).pending = s.pending := by unfold State.putLine; split <;> rfl

/-! ### A flit sent or held -/

@[simp] theorem State.emitOf_mem (p : Option Nat) (f : Out) (s : State) : (s.emitOf p f).mem = s.mem := (by unfold State.emitOf; split; rfl; split <;> rfl)
@[simp] theorem State.emitOf_memWait (p : Option Nat) (f : Out) (s : State) : (s.emitOf p f).memWait = s.memWait := (by unfold State.emitOf; split; rfl; split <;> rfl)
@[simp] theorem State.emitOf_memOut (p : Option Nat) (f : Out) (s : State) : (s.emitOf p f).memOut = s.memOut := (by unfold State.emitOf; split; rfl; split <;> rfl)
@[simp] theorem State.emitOf_cfg (p : Option Nat) (f : Out) (s : State) : (s.emitOf p f).cfg = s.cfg := (by unfold State.emitOf; split; rfl; split <;> rfl)
@[simp] theorem State.emitOf_arr (p : Option Nat) (f : Out) (s : State) : (s.emitOf p f).arr = s.arr := (by unfold State.emitOf; split; rfl; split <;> rfl)
@[simp] theorem State.emitOf_dir (p : Option Nat) (f : Out) (s : State) : (s.emitOf p f).dir = s.dir := (by unfold State.emitOf; split; rfl; split <;> rfl)
@[simp] theorem State.emitOf_rot (p : Option Nat) (f : Out) (s : State) : (s.emitOf p f).rot = s.rot := (by unfold State.emitOf; split; rfl; split <;> rfl)
@[simp] theorem State.emitOf_wbb (p : Option Nat) (f : Out) (s : State) : (s.emitOf p f).wbb = s.wbb := (by unfold State.emitOf; split; rfl; split <;> rfl)
@[simp] theorem State.emitOf_mrs (p : Option Nat) (f : Out) (s : State) : (s.emitOf p f).mrs = s.mrs := (by unfold State.emitOf; split; rfl; split <;> rfl)
@[simp] theorem State.emitOf_txns (p : Option Nat) (f : Out) (s : State) : (s.emitOf p f).txns = s.txns := (by unfold State.emitOf; split; rfl; split <;> rfl)
@[simp] theorem State.emitOf_nextId (p : Option Nat) (f : Out) (s : State) : (s.emitOf p f).nextId = s.nextId := (by unfold State.emitOf; split; rfl; split <;> rfl)
@[simp] theorem State.emitOf_waiting (p : Option Nat) (f : Out) (s : State) : (s.emitOf p f).waiting = s.waiting := (by unfold State.emitOf; split; rfl; split <;> rfl)
@[simp] theorem State.emitOf_prov (p : Option Nat) (f : Out) (s : State) : (s.emitOf p f).prov = s.prov := (by unfold State.emitOf; split; rfl; split <;> rfl)
@[simp] theorem State.emitOf_wins (p : Option Nat) (f : Out) (s : State) : (s.emitOf p f).wins = s.wins := (by unfold State.emitOf; split; rfl; split <;> rfl)
@[simp] theorem State.emitOf_folds (p : Option Nat) (f : Out) (s : State) : (s.emitOf p f).folds = s.folds := (by unfold State.emitOf; split; rfl; split <;> rfl)
@[simp] theorem State.emitOf_lanes (p : Option Nat) (f : Out) (s : State) : (s.emitOf p f).lanes = s.lanes := (by unfold State.emitOf; split; rfl; split <;> rfl)
@[simp] theorem State.emitOf_lens (p : Option Nat) (f : Out) (s : State) : (s.emitOf p f).lens = s.lens := (by unfold State.emitOf; split; rfl; split <;> rfl)
@[simp] theorem State.emitOf_reg (p : Option Nat) (f : Out) (s : State) : (s.emitOf p f).reg = s.reg := (by unfold State.emitOf; split; rfl; split <;> rfl)
@[simp] theorem State.emitOf_cue (p : Option Nat) (f : Out) (s : State) : (s.emitOf p f).cue = s.cue := (by unfold State.emitOf; split; rfl; split <;> rfl)
@[simp] theorem State.emitOf_xlt (p : Option Nat) (f : Out) (s : State) : (s.emitOf p f).xlt = s.xlt := (by unfold State.emitOf; split; rfl; split <;> rfl)
@[simp] theorem State.emitOf_hot (p : Option Nat) (f : Out) (s : State) : (s.emitOf p f).hot = s.hot := (by unfold State.emitOf; split; rfl; split <;> rfl)
@[simp] theorem State.emitOf_presc (p : Option Nat) (f : Out) (s : State) : (s.emitOf p f).presc = s.presc := (by unfold State.emitOf; split; rfl; split <;> rfl)
@[simp] theorem State.emitOf_mbs (p : Option Nat) (f : Out) (s : State) : (s.emitOf p f).mbs = s.mbs := (by unfold State.emitOf; split; rfl; split <;> rfl)
@[simp] theorem State.emitOf_pws (p : Option Nat) (f : Out) (s : State) : (s.emitOf p f).pws = s.pws := (by unfold State.emitOf; split; rfl; split <;> rfl)
@[simp] theorem State.emitOf_regs (p : Option Nat) (f : Out) (s : State) : (s.emitOf p f).regs = s.regs := (by unfold State.emitOf; split; rfl; split <;> rfl)
@[simp] theorem State.emitOf_elog (p : Option Nat) (f : Out) (s : State) : (s.emitOf p f).elog = s.elog := (by unfold State.emitOf; split; rfl; split <;> rfl)
@[simp] theorem State.emitOf_meas (p : Option Nat) (f : Out) (s : State) : (s.emitOf p f).meas = s.meas := (by unfold State.emitOf; split; rfl; split <;> rfl)
@[simp] theorem State.emitOf_ctr (p : Option Nat) (f : Out) (s : State) : (s.emitOf p f).ctr = s.ctr := (by unfold State.emitOf; split; rfl; split <;> rfl)
@[simp] theorem State.emitOf_hist (p : Option Nat) (f : Out) (s : State) : (s.emitOf p f).hist = s.hist := (by unfold State.emitOf; split; rfl; split <;> rfl)
@[simp] theorem State.emitOf_power (p : Option Nat) (f : Out) (s : State) : (s.emitOf p f).power = s.power := (by unfold State.emitOf; split; rfl; split <;> rfl)
@[simp] theorem State.emitOf_fuses (p : Option Nat) (f : Out) (s : State) : (s.emitOf p f).fuses = s.fuses := (by unfold State.emitOf; split; rfl; split <;> rfl)
@[simp] theorem State.emitOf_res (p : Option Nat) (f : Out) (s : State) : (s.emitOf p f).res = s.res := (by unfold State.emitOf; split; rfl; split <;> rfl)
@[simp] theorem State.emitOf_hand (p : Option Nat) (f : Out) (s : State) : (s.emitOf p f).hand = s.hand := (by unfold State.emitOf; split; rfl; split <;> rfl)
@[simp] theorem State.emitOf_down (p : Option Nat) (f : Out) (s : State) : (s.emitOf p f).down = s.down := (by unfold State.emitOf; split; rfl; split <;> rfl)
@[simp] theorem State.emitOf_acks (p : Option Nat) (f : Out) (s : State) : (s.emitOf p f).acks = s.acks := (by unfold State.emitOf; split; rfl; split <;> rfl)
@[simp] theorem State.emitOf_ranges (p : Option Nat) (f : Out) (s : State) : (s.emitOf p f).ranges = s.ranges := (by unfold State.emitOf; split; rfl; split <;> rfl)
@[simp] theorem State.emitOf_walks (p : Option Nat) (f : Out) (s : State) : (s.emitOf p f).walks = s.walks := (by unfold State.emitOf; split; rfl; split <;> rfl)
@[simp] theorem State.emitOf_span (p : Option Nat) (f : Out) (s : State) : (s.emitOf p f).span = s.span := (by unfold State.emitOf; split; rfl; split <;> rfl)
@[simp] theorem State.emitOf_test (p : Option Nat) (f : Out) (s : State) : (s.emitOf p f).test = s.test := (by unfold State.emitOf; split; rfl; split <;> rfl)
@[simp] theorem State.emitOf_upsets (p : Option Nat) (f : Out) (s : State) : (s.emitOf p f).upsets = s.upsets := (by unfold State.emitOf; split; rfl; split <;> rfl)
@[simp] theorem State.emitOf_bad (p : Option Nat) (f : Out) (s : State) : (s.emitOf p f).bad = s.bad := (by unfold State.emitOf; split; rfl; split <;> rfl)
@[simp] theorem State.emitOf_ctrBit (p : Option Nat) (f : Out) (s : State) : (s.emitOf p f).ctrBit = s.ctrBit := (by unfold State.emitOf; split; rfl; split <;> rfl)
@[simp] theorem State.emitOf_fresh (p : Option Nat) (f : Out) (s : State) : (s.emitOf p f).fresh = s.fresh := (by unfold State.emitOf; split; rfl; split <;> rfl)
@[simp] theorem State.emitOf_pending (p : Option Nat) (f : Out) (s : State) : (s.emitOf p f).pending = s.pending := (by unfold State.emitOf; split; rfl; split <;> rfl)

/-! ### A flit of a request or a line -/

@[simp] theorem State.emit_mem (f : Out) (s : State) : (s.emit f).mem = s.mem := by simp [State.emit]
@[simp] theorem State.emit_memWait (f : Out) (s : State) : (s.emit f).memWait = s.memWait := by simp [State.emit]
@[simp] theorem State.emit_memOut (f : Out) (s : State) : (s.emit f).memOut = s.memOut := by simp [State.emit]
@[simp] theorem State.emit_cfg (f : Out) (s : State) : (s.emit f).cfg = s.cfg := by simp [State.emit]
@[simp] theorem State.emit_arr (f : Out) (s : State) : (s.emit f).arr = s.arr := by simp [State.emit]
@[simp] theorem State.emit_dir (f : Out) (s : State) : (s.emit f).dir = s.dir := by simp [State.emit]
@[simp] theorem State.emit_rot (f : Out) (s : State) : (s.emit f).rot = s.rot := by simp [State.emit]
@[simp] theorem State.emit_wbb (f : Out) (s : State) : (s.emit f).wbb = s.wbb := by simp [State.emit]
@[simp] theorem State.emit_mrs (f : Out) (s : State) : (s.emit f).mrs = s.mrs := by simp [State.emit]
@[simp] theorem State.emit_txns (f : Out) (s : State) : (s.emit f).txns = s.txns := by simp [State.emit]
@[simp] theorem State.emit_nextId (f : Out) (s : State) : (s.emit f).nextId = s.nextId := by simp [State.emit]
@[simp] theorem State.emit_waiting (f : Out) (s : State) : (s.emit f).waiting = s.waiting := by simp [State.emit]
@[simp] theorem State.emit_prov (f : Out) (s : State) : (s.emit f).prov = s.prov := by simp [State.emit]
@[simp] theorem State.emit_wins (f : Out) (s : State) : (s.emit f).wins = s.wins := by simp [State.emit]
@[simp] theorem State.emit_folds (f : Out) (s : State) : (s.emit f).folds = s.folds := by simp [State.emit]
@[simp] theorem State.emit_lanes (f : Out) (s : State) : (s.emit f).lanes = s.lanes := by simp [State.emit]
@[simp] theorem State.emit_lens (f : Out) (s : State) : (s.emit f).lens = s.lens := by simp [State.emit]
@[simp] theorem State.emit_reg (f : Out) (s : State) : (s.emit f).reg = s.reg := by simp [State.emit]
@[simp] theorem State.emit_cue (f : Out) (s : State) : (s.emit f).cue = s.cue := by simp [State.emit]
@[simp] theorem State.emit_xlt (f : Out) (s : State) : (s.emit f).xlt = s.xlt := by simp [State.emit]
@[simp] theorem State.emit_hot (f : Out) (s : State) : (s.emit f).hot = s.hot := by simp [State.emit]
@[simp] theorem State.emit_presc (f : Out) (s : State) : (s.emit f).presc = s.presc := by simp [State.emit]
@[simp] theorem State.emit_mbs (f : Out) (s : State) : (s.emit f).mbs = s.mbs := by simp [State.emit]
@[simp] theorem State.emit_pws (f : Out) (s : State) : (s.emit f).pws = s.pws := by simp [State.emit]
@[simp] theorem State.emit_regs (f : Out) (s : State) : (s.emit f).regs = s.regs := by simp [State.emit]
@[simp] theorem State.emit_elog (f : Out) (s : State) : (s.emit f).elog = s.elog := by simp [State.emit]
@[simp] theorem State.emit_meas (f : Out) (s : State) : (s.emit f).meas = s.meas := by simp [State.emit]
@[simp] theorem State.emit_ctr (f : Out) (s : State) : (s.emit f).ctr = s.ctr := by simp [State.emit]
@[simp] theorem State.emit_hist (f : Out) (s : State) : (s.emit f).hist = s.hist := by simp [State.emit]
@[simp] theorem State.emit_power (f : Out) (s : State) : (s.emit f).power = s.power := by simp [State.emit]
@[simp] theorem State.emit_fuses (f : Out) (s : State) : (s.emit f).fuses = s.fuses := by simp [State.emit]
@[simp] theorem State.emit_res (f : Out) (s : State) : (s.emit f).res = s.res := by simp [State.emit]
@[simp] theorem State.emit_hand (f : Out) (s : State) : (s.emit f).hand = s.hand := by simp [State.emit]
@[simp] theorem State.emit_down (f : Out) (s : State) : (s.emit f).down = s.down := by simp [State.emit]
@[simp] theorem State.emit_acks (f : Out) (s : State) : (s.emit f).acks = s.acks := by simp [State.emit]
@[simp] theorem State.emit_ranges (f : Out) (s : State) : (s.emit f).ranges = s.ranges := by simp [State.emit]
@[simp] theorem State.emit_walks (f : Out) (s : State) : (s.emit f).walks = s.walks := by simp [State.emit]
@[simp] theorem State.emit_span (f : Out) (s : State) : (s.emit f).span = s.span := by simp [State.emit]
@[simp] theorem State.emit_test (f : Out) (s : State) : (s.emit f).test = s.test := by simp [State.emit]
@[simp] theorem State.emit_upsets (f : Out) (s : State) : (s.emit f).upsets = s.upsets := by simp [State.emit]
@[simp] theorem State.emit_bad (f : Out) (s : State) : (s.emit f).bad = s.bad := by simp [State.emit]
@[simp] theorem State.emit_ctrBit (f : Out) (s : State) : (s.emit f).ctrBit = s.ctrBit := by simp [State.emit]
@[simp] theorem State.emit_fresh (f : Out) (s : State) : (s.emit f).fresh = s.fresh := by simp [State.emit]
@[simp] theorem State.emit_pending (f : Out) (s : State) : (s.emit f).pending = s.pending := by simp [State.emit]

/-! ### A parity check of a counter -/

@[simp] theorem State.ctrParity_fab (i : Nat) (s : State) : (s.ctrParity i).fab = s.fab := by unfold State.ctrParity; split <;> rfl
@[simp] theorem State.ctrParity_mem (i : Nat) (s : State) : (s.ctrParity i).mem = s.mem := by unfold State.ctrParity; split <;> rfl
@[simp] theorem State.ctrParity_heldOut (i : Nat) (s : State) : (s.ctrParity i).heldOut = s.heldOut := by unfold State.ctrParity; split <;> rfl
@[simp] theorem State.ctrParity_memWait (i : Nat) (s : State) : (s.ctrParity i).memWait = s.memWait := by unfold State.ctrParity; split <;> rfl
@[simp] theorem State.ctrParity_memOut (i : Nat) (s : State) : (s.ctrParity i).memOut = s.memOut := by unfold State.ctrParity; split <;> rfl
@[simp] theorem State.ctrParity_cfg (i : Nat) (s : State) : (s.ctrParity i).cfg = s.cfg := by unfold State.ctrParity; split <;> rfl
@[simp] theorem State.ctrParity_arr (i : Nat) (s : State) : (s.ctrParity i).arr = s.arr := by unfold State.ctrParity; split <;> rfl
@[simp] theorem State.ctrParity_dir (i : Nat) (s : State) : (s.ctrParity i).dir = s.dir := by unfold State.ctrParity; split <;> rfl
@[simp] theorem State.ctrParity_rot (i : Nat) (s : State) : (s.ctrParity i).rot = s.rot := by unfold State.ctrParity; split <;> rfl
@[simp] theorem State.ctrParity_wbb (i : Nat) (s : State) : (s.ctrParity i).wbb = s.wbb := by unfold State.ctrParity; split <;> rfl
@[simp] theorem State.ctrParity_mrs (i : Nat) (s : State) : (s.ctrParity i).mrs = s.mrs := by unfold State.ctrParity; split <;> rfl
@[simp] theorem State.ctrParity_txns (i : Nat) (s : State) : (s.ctrParity i).txns = s.txns := by unfold State.ctrParity; split <;> rfl
@[simp] theorem State.ctrParity_nextId (i : Nat) (s : State) : (s.ctrParity i).nextId = s.nextId := by unfold State.ctrParity; split <;> rfl
@[simp] theorem State.ctrParity_waiting (i : Nat) (s : State) : (s.ctrParity i).waiting = s.waiting := by unfold State.ctrParity; split <;> rfl
@[simp] theorem State.ctrParity_prov (i : Nat) (s : State) : (s.ctrParity i).prov = s.prov := by unfold State.ctrParity; split <;> rfl
@[simp] theorem State.ctrParity_wins (i : Nat) (s : State) : (s.ctrParity i).wins = s.wins := by unfold State.ctrParity; split <;> rfl
@[simp] theorem State.ctrParity_folds (i : Nat) (s : State) : (s.ctrParity i).folds = s.folds := by unfold State.ctrParity; split <;> rfl
@[simp] theorem State.ctrParity_lanes (i : Nat) (s : State) : (s.ctrParity i).lanes = s.lanes := by unfold State.ctrParity; split <;> rfl
@[simp] theorem State.ctrParity_lens (i : Nat) (s : State) : (s.ctrParity i).lens = s.lens := by unfold State.ctrParity; split <;> rfl
@[simp] theorem State.ctrParity_reg (i : Nat) (s : State) : (s.ctrParity i).reg = s.reg := by unfold State.ctrParity; split <;> rfl
@[simp] theorem State.ctrParity_cue (i : Nat) (s : State) : (s.ctrParity i).cue = s.cue := by unfold State.ctrParity; split <;> rfl
@[simp] theorem State.ctrParity_xlt (i : Nat) (s : State) : (s.ctrParity i).xlt = s.xlt := by unfold State.ctrParity; split <;> rfl
@[simp] theorem State.ctrParity_hot (i : Nat) (s : State) : (s.ctrParity i).hot = s.hot := by unfold State.ctrParity; split <;> rfl
@[simp] theorem State.ctrParity_presc (i : Nat) (s : State) : (s.ctrParity i).presc = s.presc := by unfold State.ctrParity; split <;> rfl
@[simp] theorem State.ctrParity_mbs (i : Nat) (s : State) : (s.ctrParity i).mbs = s.mbs := by unfold State.ctrParity; split <;> rfl
@[simp] theorem State.ctrParity_pws (i : Nat) (s : State) : (s.ctrParity i).pws = s.pws := by unfold State.ctrParity; split <;> rfl
@[simp] theorem State.ctrParity_regs (i : Nat) (s : State) : (s.ctrParity i).regs = s.regs := by unfold State.ctrParity; split <;> rfl
@[simp] theorem State.ctrParity_meas (i : Nat) (s : State) : (s.ctrParity i).meas = s.meas := by unfold State.ctrParity; split <;> rfl
@[simp] theorem State.ctrParity_hist (i : Nat) (s : State) : (s.ctrParity i).hist = s.hist := by unfold State.ctrParity; split <;> rfl
@[simp] theorem State.ctrParity_power (i : Nat) (s : State) : (s.ctrParity i).power = s.power := by unfold State.ctrParity; split <;> rfl
@[simp] theorem State.ctrParity_fuses (i : Nat) (s : State) : (s.ctrParity i).fuses = s.fuses := by unfold State.ctrParity; split <;> rfl
@[simp] theorem State.ctrParity_res (i : Nat) (s : State) : (s.ctrParity i).res = s.res := by unfold State.ctrParity; split <;> rfl
@[simp] theorem State.ctrParity_hand (i : Nat) (s : State) : (s.ctrParity i).hand = s.hand := by unfold State.ctrParity; split <;> rfl
@[simp] theorem State.ctrParity_down (i : Nat) (s : State) : (s.ctrParity i).down = s.down := by unfold State.ctrParity; split <;> rfl
@[simp] theorem State.ctrParity_acks (i : Nat) (s : State) : (s.ctrParity i).acks = s.acks := by unfold State.ctrParity; split <;> rfl
@[simp] theorem State.ctrParity_ranges (i : Nat) (s : State) : (s.ctrParity i).ranges = s.ranges := by unfold State.ctrParity; split <;> rfl
@[simp] theorem State.ctrParity_walks (i : Nat) (s : State) : (s.ctrParity i).walks = s.walks := by unfold State.ctrParity; split <;> rfl
@[simp] theorem State.ctrParity_span (i : Nat) (s : State) : (s.ctrParity i).span = s.span := by unfold State.ctrParity; split <;> rfl
@[simp] theorem State.ctrParity_test (i : Nat) (s : State) : (s.ctrParity i).test = s.test := by unfold State.ctrParity; split <;> rfl
@[simp] theorem State.ctrParity_upsets (i : Nat) (s : State) : (s.ctrParity i).upsets = s.upsets := by unfold State.ctrParity; split <;> rfl
@[simp] theorem State.ctrParity_acts (i : Nat) (s : State) : (s.ctrParity i).acts = s.acts := by unfold State.ctrParity; split <;> rfl
@[simp] theorem State.ctrParity_sig (i : Nat) (s : State) : (s.ctrParity i).sig = s.sig := by unfold State.ctrParity; split <;> rfl
@[simp] theorem State.ctrParity_ctrBit (i : Nat) (s : State) : (s.ctrParity i).ctrBit = s.ctrBit := by unfold State.ctrParity; split <;> rfl
@[simp] theorem State.ctrParity_fresh (i : Nat) (s : State) : (s.ctrParity i).fresh = s.fresh := by unfold State.ctrParity; split <;> rfl
@[simp] theorem State.ctrParity_out (i : Nat) (s : State) : (s.ctrParity i).out = s.out := by unfold State.ctrParity; split <;> rfl
@[simp] theorem State.ctrParity_pending (i : Nat) (s : State) : (s.ctrParity i).pending = s.pending := by unfold State.ctrParity; split <;> rfl

/-! ### The edges that the counters in edge mode see (R476) -/

theorem State.ctrParity_shape (i : Nat) (s : State) : ∃ c b e d, s.ctrParity i = { s with ctr := c, ctrBit := b, elog := e, bad := d } := by
  unfold State.ctrParity
  split
  · exact ⟨_, s.ctrBit, _, _, rfl⟩
  · exact ⟨s.ctr, s.ctrBit, s.elog, s.bad, rfl⟩

theorem State.edge_shape (i : Nat) (s : State) : ∃ c b e d, s.edge i = { s with ctr := c, ctrBit := b, elog := e, bad := d } := by
  obtain ⟨c, b, e, d, h⟩ := s.ctrParity_shape i
  exact ⟨c.modify i (· + 1), b, e, d, by simp only [State.edge, h]⟩

theorem State.edge_fold (l : List Nat) : ∀ s : State, ∃ c b e d,
    l.foldl (fun t i => t.edge i) s = { s with ctr := c, ctrBit := b, elog := e, bad := d } := by
  induction l with
  | nil => exact fun s => ⟨s.ctr, s.ctrBit, s.elog, s.bad, rfl⟩
  | cons i l ih =>
    intro s
    obtain ⟨c, b, e, d, h⟩ := s.edge_shape i
    obtain ⟨c', b', e', d', k⟩ := ih (s.edge i)
    exact ⟨c', b', e', d', by rw [List.foldl_cons, k, h]⟩

/-- All that the edges can change. -/
theorem State.edges_shape (s : State) : ∃ c b e d, s.edges = { s with ctr := c, ctrBit := b, elog := e, bad := d } := by
  unfold State.edges
  split
  · exact ⟨s.ctr, s.ctrBit, s.elog, s.bad, rfl⟩
  · obtain ⟨c, b, e, d, h⟩ := State.edge_fold _ s
    exact ⟨c, _, e, d, by dsimp only; rw [h]⟩

/-- Outside `TEST` and `RECOVERY` no counter sees an edge. -/
theorem State.edges_id (s : State) (h : s.debugRuns = false) : s.edges = s := by simp [State.edges, h]

@[simp] theorem State.edges_fab (s : State) : s.edges.fab = s.fab := by obtain ⟨_, _, _, _, h⟩ := s.edges_shape; rw [h]
@[simp] theorem State.edges_mem (s : State) : s.edges.mem = s.mem := by obtain ⟨_, _, _, _, h⟩ := s.edges_shape; rw [h]
@[simp] theorem State.edges_heldOut (s : State) : s.edges.heldOut = s.heldOut := by obtain ⟨_, _, _, _, h⟩ := s.edges_shape; rw [h]
@[simp] theorem State.edges_memWait (s : State) : s.edges.memWait = s.memWait := by obtain ⟨_, _, _, _, h⟩ := s.edges_shape; rw [h]
@[simp] theorem State.edges_memOut (s : State) : s.edges.memOut = s.memOut := by obtain ⟨_, _, _, _, h⟩ := s.edges_shape; rw [h]
@[simp] theorem State.edges_cfg (s : State) : s.edges.cfg = s.cfg := by obtain ⟨_, _, _, _, h⟩ := s.edges_shape; rw [h]
@[simp] theorem State.edges_arr (s : State) : s.edges.arr = s.arr := by obtain ⟨_, _, _, _, h⟩ := s.edges_shape; rw [h]
@[simp] theorem State.edges_dir (s : State) : s.edges.dir = s.dir := by obtain ⟨_, _, _, _, h⟩ := s.edges_shape; rw [h]
@[simp] theorem State.edges_rot (s : State) : s.edges.rot = s.rot := by obtain ⟨_, _, _, _, h⟩ := s.edges_shape; rw [h]
@[simp] theorem State.edges_wbb (s : State) : s.edges.wbb = s.wbb := by obtain ⟨_, _, _, _, h⟩ := s.edges_shape; rw [h]
@[simp] theorem State.edges_mrs (s : State) : s.edges.mrs = s.mrs := by obtain ⟨_, _, _, _, h⟩ := s.edges_shape; rw [h]
@[simp] theorem State.edges_txns (s : State) : s.edges.txns = s.txns := by obtain ⟨_, _, _, _, h⟩ := s.edges_shape; rw [h]
@[simp] theorem State.edges_nextId (s : State) : s.edges.nextId = s.nextId := by obtain ⟨_, _, _, _, h⟩ := s.edges_shape; rw [h]
@[simp] theorem State.edges_waiting (s : State) : s.edges.waiting = s.waiting := by obtain ⟨_, _, _, _, h⟩ := s.edges_shape; rw [h]
@[simp] theorem State.edges_prov (s : State) : s.edges.prov = s.prov := by obtain ⟨_, _, _, _, h⟩ := s.edges_shape; rw [h]
@[simp] theorem State.edges_wins (s : State) : s.edges.wins = s.wins := by obtain ⟨_, _, _, _, h⟩ := s.edges_shape; rw [h]
@[simp] theorem State.edges_folds (s : State) : s.edges.folds = s.folds := by obtain ⟨_, _, _, _, h⟩ := s.edges_shape; rw [h]
@[simp] theorem State.edges_lanes (s : State) : s.edges.lanes = s.lanes := by obtain ⟨_, _, _, _, h⟩ := s.edges_shape; rw [h]
@[simp] theorem State.edges_lens (s : State) : s.edges.lens = s.lens := by obtain ⟨_, _, _, _, h⟩ := s.edges_shape; rw [h]
@[simp] theorem State.edges_reg (s : State) : s.edges.reg = s.reg := by obtain ⟨_, _, _, _, h⟩ := s.edges_shape; rw [h]
@[simp] theorem State.edges_cue (s : State) : s.edges.cue = s.cue := by obtain ⟨_, _, _, _, h⟩ := s.edges_shape; rw [h]
@[simp] theorem State.edges_xlt (s : State) : s.edges.xlt = s.xlt := by obtain ⟨_, _, _, _, h⟩ := s.edges_shape; rw [h]
@[simp] theorem State.edges_hot (s : State) : s.edges.hot = s.hot := by obtain ⟨_, _, _, _, h⟩ := s.edges_shape; rw [h]
@[simp] theorem State.edges_presc (s : State) : s.edges.presc = s.presc := by obtain ⟨_, _, _, _, h⟩ := s.edges_shape; rw [h]
@[simp] theorem State.edges_mbs (s : State) : s.edges.mbs = s.mbs := by obtain ⟨_, _, _, _, h⟩ := s.edges_shape; rw [h]
@[simp] theorem State.edges_pws (s : State) : s.edges.pws = s.pws := by obtain ⟨_, _, _, _, h⟩ := s.edges_shape; rw [h]
@[simp] theorem State.edges_regs (s : State) : s.edges.regs = s.regs := by obtain ⟨_, _, _, _, h⟩ := s.edges_shape; rw [h]
@[simp] theorem State.edges_meas (s : State) : s.edges.meas = s.meas := by obtain ⟨_, _, _, _, h⟩ := s.edges_shape; rw [h]
@[simp] theorem State.edges_hist (s : State) : s.edges.hist = s.hist := by obtain ⟨_, _, _, _, h⟩ := s.edges_shape; rw [h]
@[simp] theorem State.edges_power (s : State) : s.edges.power = s.power := by obtain ⟨_, _, _, _, h⟩ := s.edges_shape; rw [h]
@[simp] theorem State.edges_fuses (s : State) : s.edges.fuses = s.fuses := by obtain ⟨_, _, _, _, h⟩ := s.edges_shape; rw [h]
@[simp] theorem State.edges_res (s : State) : s.edges.res = s.res := by obtain ⟨_, _, _, _, h⟩ := s.edges_shape; rw [h]
@[simp] theorem State.edges_hand (s : State) : s.edges.hand = s.hand := by obtain ⟨_, _, _, _, h⟩ := s.edges_shape; rw [h]
@[simp] theorem State.edges_down (s : State) : s.edges.down = s.down := by obtain ⟨_, _, _, _, h⟩ := s.edges_shape; rw [h]
@[simp] theorem State.edges_acks (s : State) : s.edges.acks = s.acks := by obtain ⟨_, _, _, _, h⟩ := s.edges_shape; rw [h]
@[simp] theorem State.edges_ranges (s : State) : s.edges.ranges = s.ranges := by obtain ⟨_, _, _, _, h⟩ := s.edges_shape; rw [h]
@[simp] theorem State.edges_walks (s : State) : s.edges.walks = s.walks := by obtain ⟨_, _, _, _, h⟩ := s.edges_shape; rw [h]
@[simp] theorem State.edges_span (s : State) : s.edges.span = s.span := by obtain ⟨_, _, _, _, h⟩ := s.edges_shape; rw [h]
@[simp] theorem State.edges_test (s : State) : s.edges.test = s.test := by obtain ⟨_, _, _, _, h⟩ := s.edges_shape; rw [h]
@[simp] theorem State.edges_upsets (s : State) : s.edges.upsets = s.upsets := by obtain ⟨_, _, _, _, h⟩ := s.edges_shape; rw [h]
@[simp] theorem State.edges_acts (s : State) : s.edges.acts = s.acts := by obtain ⟨_, _, _, _, h⟩ := s.edges_shape; rw [h]
@[simp] theorem State.edges_sig (s : State) : s.edges.sig = s.sig := by obtain ⟨_, _, _, _, h⟩ := s.edges_shape; rw [h]
@[simp] theorem State.edges_fresh (s : State) : s.edges.fresh = s.fresh := by obtain ⟨_, _, _, _, h⟩ := s.edges_shape; rw [h]
@[simp] theorem State.edges_out (s : State) : s.edges.out = s.out := by obtain ⟨_, _, _, _, h⟩ := s.edges_shape; rw [h]
@[simp] theorem State.edges_pending (s : State) : s.edges.pending = s.pending := by obtain ⟨_, _, _, _, h⟩ := s.edges_shape; rw [h]

/-! ### What an update writes -/

@[simp] theorem State.fresh0_out (s : State) : s.fresh0.out = [] := rfl
@[simp] theorem State.fresh0_sig (s : State) : s.fresh0.sig = [] := rfl
@[simp] theorem State.fresh0_acks (s : State) : s.fresh0.acks = [] := rfl
@[simp] theorem State.log_elog (r : LogIn) (s : State) : (s.log r).elog = s.elog.place r := rfl
@[simp] theorem State.runAs_cur (g : Option Nat) (a : Option Nat) (s : State) : (s.runAs g a).reg.cur = g := rfl
@[simp] theorem State.dropTxn_txns (i : Nat) (s : State) : (s.dropTxn i).txns = s.txns.filter (·.id != i) := rfl
@[simp] theorem State.setStatus_status (b : BitVec 4) (s : State) : (s.setStatus b).regs.status = s.regs.status ||| b := rfl
@[simp] theorem State.measBump_gen (s : State) : s.measBump.meas.gen = (s.meas.gen + 1) % 65536 := rfl

/-- A window that was updated, and every other one. -/
theorem State.win_setWin (w v : Nat) (f : Window → Window) (s : State) (h : v < s.wins.length) :
    (s.setWin w f).win v = if v = w then f (s.win v) else s.win v := by
  unfold State.win State.setWin
  simp only [List.getD_eq_getElem?_getD, List.getElem?_modify]
  rw [List.getElem?_eq_getElem h]
  by_cases e : w = v <;> simp [e, eq_comm]

/-- A lens slot that was updated, and every other one. -/
theorem State.lensSlot_setLens (i j : Nat) (f : LensSlot → LensSlot) (s : State) (h : j < s.lens.slots.length) :
    (s.setLens i f).lensSlot j = if j = i then f (s.lensSlot j) else s.lensSlot j := by
  unfold State.lensSlot State.setLens
  simp only [List.getD_eq_getElem?_getD, List.getElem?_modify]
  rw [List.getElem?_eq_getElem h]
  by_cases e : i = j <;> simp [e, eq_comm]

/-- An action slot that was updated, and every other one. -/
theorem State.slot_setSlot (i j : Nat) (f : ActSlot → ActSlot) (s : State) (h : j < s.cue.slots.length) :
    (s.setSlot i f).slot j = if j = i then f (s.slot j) else s.slot j := by
  unfold State.slot State.setSlot
  simp only [List.getD_eq_getElem?_getD, List.getElem?_modify]
  rw [List.getElem?_eq_getElem h]
  by_cases e : i = j <;> simp [e, eq_comm]

end Sys2Proof.Machine
end

