-- ==== Sys2Proof/Tests/Slice0.lean ====
section
/-! SUPPORT. Tests: ill-formed commands that WellFormed refuses, a state and operands that meet the hypotheses of each statement,
and a few values worked out by hand from the spec. -/

namespace Sys2Proof.Tests
set_option Elab.async false
open Sys2Proof Sys2Proof.Machine

/-! ### A slice in service -/

/-- One partition with a cache way range, a pin and a scratch way; one agent on port 0; every bucket at home. -/
def part0 : PartRec := { pin := 0b1, cache := 0b1110, scratch := 0b10000, active := true, thrashHit := 512, thrashEvict := 16 }

def cfg0 : Cfg :=
  { inForce := true, slices := 1, memTable := [0], route := List.replicate 4 { present := true },
    parts := part0 :: List.replicate 15 {}, map := List.replicate 1024 0, scratch := [] }

def base : State :=
  { cfg := cfg0, power := { state := .service, rstLow := false, strapsTaken := true } }

/-! ### From checks that compute to the premises of statements -/

def stillB (s : State) : Bool :=
  s.txns.isEmpty && s.span.holders.isEmpty && s.hand.buckets.isEmpty && s.wins.all (fun w => w.after.isEmpty) &&
  !s.power.cfgDrain && s.power.sleepPh == .none && !s.res.active && !s.power.relock && !s.power.rstLow && s.waiting.isEmpty &&
  s.mrs.isEmpty && s.down.isEmpty && s.hand.listed.isEmpty && s.hand.hold.isEmpty && s.walks.isEmpty && s.ranges.isEmpty &&
  s.folds.isEmpty && s.memWait.isEmpty && s.cue.postWait.isEmpty && s.span.waitTx.isEmpty && s.power.held.isEmpty &&
  s.test.inject.isNone && s.upsets.isEmpty && s.bad.isEmpty

theorem still_of {s : State} (h : stillB s = true) : s.Still := by
  simp only [stillB, Bool.and_eq_true, List.isEmpty_iff, List.all_eq_true, Bool.not_eq_true', beq_iff_eq,
    Option.isNone_iff_eq_none] at h
  obtain ⟨⟨⟨⟨⟨⟨⟨⟨⟨⟨⟨⟨⟨⟨⟨⟨⟨⟨⟨⟨⟨⟨⟨a, b⟩, c⟩, d⟩, e⟩, f⟩, g⟩, i⟩, j⟩, k⟩, l⟩, m⟩, n⟩, o⟩, p⟩, q⟩, r⟩, u⟩, v⟩, w⟩, x⟩, y⟩, z⟩, z'⟩ := h
  exact ⟨a, b, c, d, e, f, g, i, j, k, l, m, n, o, p, q, r, u, v, w, x, y, z, z'⟩

def restB (s : State) : Bool := stillB s && s.power.state == .service

theorem rest_of {s : State} (h : restB s = true) : s.AtRest := by
  simp only [restB, Bool.and_eq_true, beq_iff_eq] at h
  exact { toStill := still_of h.1, service := h.2 }

def arrivesB (s : State) (op : ReqOp) (q : Req) : Bool :=
  restB s && q.dataIn op && q.flips == 0 && q.dat.all (·.flips == 0) && !s.badHeader op q && s.homed q.line

theorem arrives_of {s : State} {op q} (h : arrivesB s op q = true) : s.Arrives op q := by
  simp only [arrivesB, Bool.and_eq_true, Bool.not_eq_true', beq_iff_eq, List.all_eq_true] at h
  obtain ⟨⟨⟨⟨⟨a, b⟩, c⟩, i⟩, d⟩, e⟩ := h
  exact { toAtRest := rest_of a, whole := b, flips := c, clean := i, header := d, home := e }

def allowedB (s : State) (op : ReqOp) (q : Req) : Bool :=
  arrivesB s op q && !s.inScratch q.addr && (s.check97 op q (s.lensAt q.addr)).isNone

theorem allowed_of {s : State} {op q} (h : allowedB s op q = true) : s.Allowed op q := by
  simp only [allowedB, Bool.and_eq_true, Bool.not_eq_true', Option.isNone_iff_eq_none] at h
  obtain ⟨⟨a, b⟩, c⟩ := h
  exact { toArrives := arrives_of a, scratch := b, allowed := c }

def admitsB (s : State) (op : ReqOp) (q : Req) : Bool :=
  allowedB s op q && s.prov.isEmpty && (s.hdrWin q.line).isNone && (s.bellOf q.line).isNone && (s.sumWin q.line).isNone

theorem admits_of {s : State} {op q} (h : admitsB s op q = true) : s.Admits op q := by
  simp only [admitsB, Bool.and_eq_true, Option.isNone_iff_eq_none, List.isEmpty_iff] at h
  obtain ⟨⟨⟨⟨a, b⟩, c⟩, d⟩, e⟩ := h
  exact { toAllowed := allowed_of a, prov := b, noHeader := c, noBell := d, noPlane := e }

theorem none_all {α : Type} {o : Option α} {P : α → Prop} (h : o = none) : ∀ e, o = some e → P e := by
  intro e he; rw [h] at he; cases he

theorem some_all {α : Type} {o : Option α} {a : α} {P : α → Prop} (h : o = some a) (hp : P a) : ∀ e, o = some e → P e := by
  intro e he; rw [h] at he; cases he; exact hp

/-! ### Reads and writes of the fabric -/

/-- A request of agent 0 on port 0 for the line at 0x10000. -/
def q0 : Req := { port := 0, agent := 0, txid := 1, addr := 0x10000, size := 7 }

def lineA : CLine := { set := setOf 0x200, way := 1, line := 0x200, lo := Sec.clean 5 false, hi := Sec.clean 7 false }

/-- The line in the array, no holder. -/
def sLine : State := { base with arr := [lineA] }

/-- A flit of each sector. -/
def two (a b : Nat) : List DatFlit := [{ sector := 0, data := BitVec.ofNat 512 a }, { sector := 1, data := BitVec.ofNat 512 b }]

def one (a : Nat) : List DatFlit := [{ sector := 0, data := BitVec.ofNat 512 a }]

theorem witness_ReadOnceHit :
    sLine.Admits .rdOnce q0 ∧ q0.provisional = false ∧ arrWf sLine.arr = true ∧ sLine.lineOf q0.line = some lineA ∧
    (∀ i < 2, q0.covers i = true → (lineA.sec i).v = true) ∧ (∀ e, sLine.dirAt q0.line = some e → e.owner = none) :=
  ⟨admits_of (by decide +kernel), by decide +kernel, by decide +kernel, by decide +kernel, by decide +kernel,
   none_all (by decide +kernel)⟩

theorem witness_ReadGrantsExclusive :
    ∀ p ∈ [(Instr.rdShared q0, ReqOp.rdShared), (Instr.rdUnique q0, ReqOp.rdUnique)],
    sLine.Admits p.2 q0 ∧ q0.provisional = false ∧ arrWf sLine.arr = true ∧ (∀ x ∈ sLine.dir, x.way < 16) ∧
    sLine.lineOf q0.line = some lineA ∧ lineA.lo.v = true ∧ lineA.hi.v = true ∧ lineA.lo.poison = false ∧ lineA.hi.poison = false ∧
    (sLine.descOf (sLine.lensAt q0.addr)).reduction = false ∧ sLine.onlyShared (sLine.lensAt q0.addr) = false ∧
    sLine.dirAt q0.line = none ∧ sLine.dirPlace (setOf q0.line) = .free 0 := by
  intro p hp
  refine ⟨admits_of ?_, ?_⟩
  · revert p; decide +kernel
  · decide +kernel

def entS : DirEnt := { set := setOf 0x200, way := 3, line := 0x200, part := 0, sharers := [0] }

def sShared : State := { sLine with dir := [entS] }

def qTxn (op : ReqOp) (q : Req) : Txn :=
  { id := 0, kind := .req op q none, line := q.line, part := 0, lens := none, started := true }

/-- A grant to agent 0 waits for its `COMP_ACK`. -/
def sGrant : State := { sShared with txns := [{ qTxn .rdShared q0 with served := true, busy := true, ack := some (0, 1, 0) }] }

theorem witness_UpgradesAndCompAcks :
    (sShared.Admits .upgrade q0 ∧ q0.provisional = false ∧ (sShared.descOf (sShared.lensAt q0.addr)).reduction = false ∧
      sShared.dirAt q0.line = some entS ∧ entS.owner = none ∧ entS.records q0.agent = true ∧ sShared.holders entS (some q0.agent) = []) ∧
    (State.AtRest { sGrant with txns := [] } ∧
      ({ port := 0, id := 1, code := 4 } : Snr).flips = 0 ∧
      sGrant.txns = [{ qTxn .rdShared q0 with served := true, busy := true, ack := some (0, 1, 0) }]) :=
  ⟨⟨admits_of (by decide +kernel), by decide +kernel⟩, rest_of (by decide +kernel), rfl, rfl⟩

theorem witness_WriteHit :
    arrWf sLine.arr = true ∧ sLine.lineOf q0.line = some lineA ∧ sLine.dirAt q0.line = none ∧
    sLine.Admits .wrFull { q0 with dat := two 1 2 } ∧ sLine.Admits .zeroLine q0 ∧
    sLine.Admits .wrPartial { q0 with addr := 0x10020, size := 5, dat := one 9 } ∧
    (lineA.sec { q0 with addr := 0x10020, size := 5, dat := one 9 }.sector).v = true :=
  ⟨by decide +kernel, by decide +kernel, by decide +kernel, admits_of (by decide +kernel), admits_of (by decide +kernel),
   admits_of (by decide +kernel), by decide +kernel⟩

/-- An append lens over the first 2 MiB, in slot 0. -/
def appDesc : Desc := { slot := 0, base := 0, size := 1, quota := 1024, append := true, spill := true }

def withLens (d : Desc) (s : State) : State :=
  { s with lens := { s.lens with slots := { desc := some d, inAct := true } :: List.replicate 255 {} } }

def sAppend : State := withLens appDesc sLine

def qApp : Req := { q0 with dat := two 1 2 }

def sSpilled : State :=
  withLens appDesc { base with txns := [{ qTxn .append qApp with lens := some 0, opAsked := true }] }

theorem witness_AppendsComplete :
    (sAppend.Admits .append qApp ∧ arrWf sAppend.arr = true ∧ sAppend.lineOf qApp.line = some lineA ∧ sAppend.dirAt qApp.line = none ∧
      sAppend.lensAt qApp.addr = some 0 ∧ (sAppend.lensSlot 0).desc = some appDesc) ∧
    (State.AtRest { sSpilled with txns := [] } ∧ sSpilled.txns = [{ qTxn .append qApp with lens := some 0, opAsked := true }] ∧
      sSpilled.prov = [] ∧ (∀ x ∈ sSpilled.txns, x.kind = .req .append qApp none ∧ x.opAsked = true ∧ x.timedOut = false ∧
        x.snoops = [] ∧ x.line = qApp.line ∧ x.lens = some 0 ∧ x.prov = false ∧ x.served = false) ∧ appDesc.append = true ∧
      (sSpilled.lensSlot 0).desc = some appDesc ∧ (sSpilled.lensSlot 0).inAct = true ∧ sSpilled.lineCount 0 < appDesc.quota ∧
      sSpilled.lineOf qApp.line = none ∧ arrWf sSpilled.arr = true ∧ sSpilled.wbb = [] ∧
      (sSpilled.lensSlot 0).tail ≤ appDesc.blockOf qApp.addr) :=
  ⟨⟨admits_of (by decide +kernel), by decide +kernel⟩, rest_of (by decide +kernel), by decide +kernel⟩

/-- The payload of an atomic: `OPA`, `OPB`, and `CTRL` with its type and `F` set. -/
def atPay (typ a b : Nat) : List DatFlit := one (a + b * 2 ^ 128 + (typ + 8) * 2 ^ 256)

def atReq (typ size a b : Nat) : Req := { q0 with size := size, dat := atPay typ a b }

def atomics : List (Instr × ReqOp × Req) :=
  [(.atAdd (atReq 0 2 3 0), .atAdd, atReq 0 2 3 0), (.atMin (atReq 3 3 3 0), .atMin, atReq 3 3 3 0),
   (.atMax (atReq 4 2 3 0), .atMax, atReq 4 2 3 0), (.atAnd (atReq 2 3 4 0), .atAnd, atReq 2 3 4 0),
   (.atOr (atReq 1 2 8 0), .atOr, atReq 1 2 8 0), (.atXor (atReq 2 3 1 0), .atXor, atReq 2 3 1 0),
   (.atSwap (atReq 0 2 9 0), .atSwap, atReq 0 2 9 0), (.atCas64 (atReq 2 3 5 6), .atCas64, atReq 2 3 5 6),
   (.atCas128 (atReq 5 4 5 6), .atCas128, atReq 5 4 5 6)]

theorem witness_AtomicHit :
    ∀ p ∈ atomics, sLine.Admits p.2.1 p.2.2 ∧ p.2.2.provisional = false ∧ arrWf sLine.arr = true ∧
      sLine.lineOf p.2.2.line = some lineA ∧ sLine.dirAt p.2.2.line = none ∧ (lineA.sec p.2.2.sector).v = true ∧
      (lineA.sec p.2.2.sector).poison = false ∧ (atOperand p.2.1 p.2.2.payload).resvOk = true ∧
      atTypeOk p.2.1 (atOperand p.2.1 p.2.2.payload).typ p.2.2.size = true := by
  intro p hp
  refine ⟨admits_of ?_, ?_⟩
  · revert p; decide +kernel
  · revert p; decide +kernel

/-! ### Reduction windows -/

def admitsWinB (s : State) (op : ReqOp) (q : Req) (w : Nat) : Bool :=
  allowedB s op q && s.hdrWin q.line == some w && q.addr == (s.win w).hdr && (s.win w).arming.isNone &&
  (s.win w).st != .idle && !winResv op q.payload

theorem admitsWin_of {s : State} {op q w} (h : admitsWinB s op q w = true) : s.AdmitsWin op q w := by
  simp only [admitsWinB, Bool.and_eq_true, Bool.not_eq_true', beq_iff_eq, bne_iff_ne, Option.isNone_iff_eq_none] at h
  obtain ⟨⟨⟨⟨⟨a, b⟩, c⟩, d⟩, e⟩, f⟩ := h
  exact { toAllowed := allowed_of a, window := b, here := c, settled := d, used := e, fields := f }

def admitsSumB (s : State) (op : ReqOp) (q : Req) (w : Nat) (c : CLine) : Bool :=
  allowedB s op q && s.prov.isEmpty && (s.hdrWin q.line).isNone && (s.bellOf q.line).isNone && s.sumWin q.line == some w &&
  s.lineOf q.line == some c && c.lo.v && c.hi.v && (s.dirAt q.line).isNone

theorem admitsSum_of {s : State} {op q w c} (h : admitsSumB s op q w c = true) : s.AdmitsSum op q w c := by
  simp only [admitsSumB, Bool.and_eq_true, beq_iff_eq, Option.isNone_iff_eq_none, List.isEmpty_iff] at h
  obtain ⟨⟨⟨⟨⟨⟨⟨⟨a, b⟩, c⟩, d⟩, e⟩, f⟩, g⟩, i⟩, j⟩ := h
  exact { toAllowed := allowed_of a, prov := b, noHeader := c, noBell := d, plane := e, line := f, valid := ⟨g, i⟩, noHolder := j }

def acceptsB (s : State) (op : Nat) (m : MbCmd) : Bool :=
  Csrp.reaches { mgmt := m.mgmt, part := m.srcPart } m.window && mbIdx m.window < s.mbs.length &&
  (s.mbs.getD (mbIdx m.window) {}).st != 1 && s.mbCheck op m == .ok && !s.power.rstLow && s.power.sleepPh == .none

theorem accepts_of {s : State} {op m} (h : acceptsB s op m = true) : s.Accepts op m := by
  simp only [acceptsB, Bool.and_eq_true, Bool.not_eq_true', beq_iff_eq, bne_iff_ne, decide_eq_true_eq] at h
  obtain ⟨⟨⟨⟨⟨a, b⟩, c⟩, d⟩, e⟩, f⟩ := h
  exact { reach := a, there := b, free := c, ok := d, powered := e, phase := f }

/-- A reduction lens from 2 MiB to 10 MiB, in slot 0. -/
def redDesc : Desc := { slot := 0, base := 1, size := 4, reduction := true }

/-- An `ARMED` FP32C window over the first 2 MiB of the lens; the bucket of its header line is 0. -/
def win2 : Window :=
  { st := .armed, gen := 7, expect := 2, base := 0x200000, size := 1, acc := 1, ifmt := 1, hdr := 0x401000 }

def sumLine : CLine := { set := setOf 0x4000, way := 0, line := 0x4000, lo := Sec.clean 0 false, hi := Sec.clean 0 false }

def sWin (x : Window) : State :=
  withLens redDesc { base with wins := (List.replicate 64 {}).set 2 x, arr := [sumLine, { sumLine with way := 4, resid := true }] }

def sSum : State := sWin win2

/-- 3.0 as binary32. -/
def qCadd : Req := { q0 with addr := 0x200000, size := 2, dat := atPay 4 0x40400000 0 }

/-- Thirty-two FP16 elements, the first of them 1.0. -/
def qAcc : Req := { q0 with addr := 0x200000, size := 6, dat := one 0x3C00 }

def qFused : Req := { q0 with addr := 0x200000, dat := one 0 }

theorem witness_ContributionsApply :
    (sSum.AdmitsSum .atCadd qCadd 2 sumLine ∧ arrWf sSum.arr = true ∧ 2 < sSum.wins.length ∧ (sSum.win 2).acc = 1 ∧
      (sSum.win 2).takes = true ∧ (atOperand .atCadd qCadd.payload).resvOk = true ∧ (atOperand .atCadd qCadd.payload).typ = 4 ∧
      (sSum.sumPair qCadd.line qCadd.sector).2.2 = false) ∧
    (sSum.AdmitsSum .accumulate qAcc 2 sumLine ∧ qAcc.addr % ifmtSpan (sSum.win 2).ifmt = 0 ∧
      qAcc.addr + ifmtSpan (sSum.win 2).ifmt ≤ (sSum.win 2).base + (sSum.win 2).size * 2 ^ 21 ∧
      decodePayload (sSum.win 2).ifmt qAcc.payload = some (0x3F800000 :: List.replicate 31 0) ∧
      (sSum.sumPair qAcc.line 0).2.2 = false ∧ (sSum.sumPair qAcc.line 1).2.2 = false) :=
  ⟨⟨admitsSum_of (by decide +kernel), by decide +kernel⟩, admitsSum_of (by decide +kernel), by decide +kernel⟩

theorem witness_FusedReadAnswers :
    sSum.AdmitsSum .rdFused qFused 2 sumLine ∧ outDescBad (getBytes qFused.payload 0 8) (getBytes qFused.payload 8 8) = false ∧ qFused.payload.toNat >>> 128 = 0 ∧
    (outDesc (getBytes qFused.payload 0 8) (getBytes qFused.payload 8 8)).fuse = 0 :=
  ⟨admitsSum_of (by decide +kernel), by decide +kernel⟩

def qHdr (pay : Nat) : Req := { q0 with addr := 0x401000, size := 6, dat := one pay }

theorem witness_WinArriveCounts :
    sSum.AdmitsWin .winArrive (qHdr 7) 2 ∧ 2 < sSum.wins.length ∧ (sSum.win 2).takes = true ∧
    getBytes (qHdr 7).payload 0 4 = (sSum.win 2).gen.toNat ∧
    (sWin { win2 with count := 1 }).AdmitsWin .winArrive (qHdr 7) 2 :=
  ⟨admitsWin_of (by decide +kernel), by decide +kernel, by decide +kernel, by decide +kernel, admitsWin_of (by decide +kernel)⟩

/-- A `FINAL` source whose plane has the bucket of the destination's. -/
def srcWin : Window := { win2 with st := .final, gen := 9, base := (0x4000 + 2 ^ 20 + 2 ^ 30) * 128, hdr := 0x12345680 }

def sFold : State := { sSum with wins := sSum.wins.set 3 srcWin }

def qFold : Req := qHdr (0x12345680 + 7 * 2 ^ 64 + 9 * 2 ^ 96)

def okIs {ε : Type} (e : Except ε Nat) (j : Nat) : Bool := match e with | .ok k => k == j | .error _ => false

theorem ok_of {ε : Type} {e : Except ε Nat} {j : Nat} (h : okIs e j = true) : e = .ok j := by
  cases e <;> simp_all [okIs]

/-- All but the last of the 16 lines of the plane are folded. -/
def foldRun : FoldRun := { src := 3, dst := 2, port := 0, txid := 1, pos := 15 }

/-- The last line of the destination's plane in a slice that homes bucket 0 alone. -/
def lastLine : CLine := { set := setOf 31775, way := 0, line := 31775, lo := Sec.clean 0x3F800000 false, hi := Sec.clean 0 false }

def sFoldRun : State :=
  { sFold with cfg := { cfg0 with map := [0] }, arr := [lastLine, { lastLine with way := 4, resid := true }], folds := [foldRun] }

/-- R297: a group without a weight covers every line of a plane. -/
theorem covers_of {s : State} {g base size : Nat} (h : (s.grp g).weight = 0) : s.CoversLines g (s.planeLines base size) := by
  refine ⟨fun l hl => ?_, .inl h⟩
  have : s.homed l = true := (List.mem_filter.mp hl).2
  simp only [State.homed, beq_iff_eq] at this
  simp [State.relayed, this]

theorem witness_FoldsRun :
    (sFold.AdmitsWin .winFold qFold 2 ∧ 2 < sFold.wins.length ∧ (sFold.win 2).takes = true ∧
      getBytes qFold.payload 8 4 = (sFold.win 2).gen.toNat ∧ sFold.foldCheck 2 sFold.foldSrcs qFold.payload = .ok 3) ∧
    (State.AtRest { sFoldRun with folds := [] } ∧ sFoldRun.prov = [] ∧ foldRun.dst = 2 ∧ foldRun.src ≠ 2 ∧
      foldRun.tag = none ∧ foldRun.timedOut = false ∧ arrWf sFoldRun.arr = true ∧
      sFoldRun.CoversLines (sFoldRun.selfGroup (sFoldRun.win 2).part) (sFoldRun.planeLines (sFoldRun.win 2).base (sFoldRun.win 2).size) ∧
      let lines := (sFoldRun.planeLines (sFoldRun.win 2).base (sFoldRun.win 2).size).drop foldRun.pos
      lines = [31775] ∧
      (∀ l ∈ lines, ((sFoldRun.win foldRun.src).base + (l * 128 - (sFoldRun.win 2).base)) / 128 ∉ lines ∧
        (sFoldRun.lineOf l).isSome = true)) :=
  ⟨⟨admitsWin_of (by decide +kernel), by decide +kernel, by decide +kernel, by decide +kernel, ok_of (by decide +kernel)⟩, rest_of (by decide +kernel),
   by decide +kernel, by decide +kernel, by decide +kernel, by decide +kernel, by decide +kernel, by decide +kernel,
   covers_of (by decide +kernel), by decide +kernel⟩

def sFinal : State := sWin { win2 with st := .final }

/-- A collect without output writes. -/
def colReq : Sector := BitVec.ofNat 512 (2 ^ 180 + 7 * 2 ^ 192)

def qCol : Req := qHdr (2 ^ 180 + 7 * 2 ^ 192)

def mbOf (args : List Nat) : MbCmd := { args := args.map (BitVec.ofNat 64) }

def mCol : MbCmd := mbOf [0, 0, 2 ^ 52, 2 + 7 * 2 ^ 6]

def colArgs (r : Option (Nat × Nat × Option Nat)) (m : Option (Option Nat)) : ColArgs :=
  { d0 := 0, d1 := 0, dst := 0, noOut := true, gen := 7, req := r, mb := m }

def sCollecting : State := sWin { win2 with st := .collected, col := some (colArgs (some (0, 1, none)) none) }

theorem witness_CollectsRun :
    (sFinal.AdmitsWin .winCollect qCol 2 ∧ sFinal.colCheck 2 .final 7 (colArgs (some (0, 1, none)) none) = .go ∧
      colArgs (some (qCol.port, qCol.txid, none)) none =
        { d0 := getBytes qCol.payload 0 8, d1 := getBytes qCol.payload 8 8, dst := bits (getBytes qCol.payload 16 8) 51 0,
          noOut := bit (getBytes qCol.payload 16 8) 52, gen := getBytes qCol.payload 24 4, req := some (qCol.port, qCol.txid, none) }) ∧
    (sFinal.AtRest ∧ sFinal.Accepts 0x09 mCol ∧ bits (mCol.arg 3) 5 0 = 2 ∧ (sFinal.win 2).arming = none ∧
      sFinal.colCheck 2 .final 7 (colArgs none (some none)) = .go) ∧
    (sCollecting.AtRest ∧ sCollecting.colDue 2 = true ∧ (sCollecting.win 2).col = some (colArgs (some (0, 1, none)) none)) :=
  ⟨⟨admitsWin_of (by decide +kernel), by decide +kernel⟩,
   ⟨rest_of (by decide +kernel), accepts_of (by decide +kernel), by decide +kernel⟩, rest_of (by decide +kernel), by decide +kernel⟩

/-- Window 2, with its generation to check. -/
def mSeal : MbCmd := mbOf [2 + 2 ^ 6 + 7 * 2 ^ 7]

def sSealed : State := sWin { win2 with st := .sealed, cause := 3, finReq := true, finMbs := [none] }

def sFinalising : State := sWin { win2 with st := .sealed, drained := true, finalising := true, finReq := true, finMbs := [none] }

theorem witness_WindowsSealAndFinalise :
    (sSum.AtRest ∧ bits (mSeal.arg 0) 5 0 = 2 ∧ (sSum.win 2).arming = none ∧ (sSum.win 2).takes = true ∧
      (bit (mSeal.arg 0) 6 = true → bits (mSeal.arg 0) 38 7 = (sSum.win 2).gen.toNat) ∧ sSum.Accepts 0x07 mSeal ∧
      sSum.Accepts 0x08 mSeal) ∧
    (sSealed.AtRest ∧ (sSealed.win 2).st = .sealed ∧ (sSealed.win 2).drained = false ∧ sSealed.unapplied 2 = false) ∧
    (sFinalising.AtRest ∧ (sFinalising.win 2).finalising = true ∧ (sFinalising.win 2).finNeed ≤ sFinalising.lens.done ∧
      arrWf sFinalising.arr = true ∧ sFinalising.CoversLines (sFinalising.selfGroup (sFinalising.win 2).part)
        (sFinalising.planeLines (sFinalising.win 2).base (sFinalising.win 2).size)) :=
  ⟨⟨rest_of (by decide +kernel), by decide +kernel, by decide +kernel, by decide +kernel, by decide +kernel,
    accepts_of (by decide +kernel), accepts_of (by decide +kernel)⟩, ⟨rest_of (by decide +kernel), by decide +kernel⟩,
   rest_of (by decide +kernel), by decide +kernel, by decide +kernel, by decide +kernel, covers_of (by decide +kernel)⟩

/-- A slice that homes bucket 0 alone, so that it homes 16 lines of a plane. -/
def sArm : State := withLens redDesc { base with cfg := { cfg0 with map := [0] } }

/-- `ARM` window 2 with the fields of `win2`. -/
def mArm : MbCmd := mbOf [0x401000, 0x200000 + 2 ^ 52, 2 + 2 * 2 ^ 8 + 2 ^ 32 + 2 ^ 34]

def mRearm : MbCmd := mbOf [0, 0, 2 + 64 + 5 * 2 ^ 8]

def mRelease : MbCmd := mbOf [0, 0, 2 + 128]

def sRearm : State := { sArm with wins := (List.replicate 64 {}).set 2 { win2 with st := .collected } }

def armingOf (s : State) : State :=
  { s with wins := s.wins.set 2 { s.win 2 with arming := some (s.armArgs mArm) },
           mbs := s.mbs.set 16 { st := 1, opcode := 6 } }

theorem witness_ArmingBegins :
    (sArm.AtRest ∧ arrWf sArm.arr = true ∧ 2 < sArm.wins.length ∧ sArm.Accepts 0x06 (mArm.force 2 7 6 0) ∧
      armWin (mArm.force 2 7 6 0) = 2 ∧ bits ((mArm.force 2 7 6 0).arg 2) 7 6 = 0 ∧ (sArm.win 2).arming = none ∧
      sArm.armCheck 2 mArm.window (sArm.armArgs (mArm.force 2 7 6 0)) = .ok ∧ sArm.dir = []) ∧
    (sRearm.AtRest ∧ sRearm.Accepts 0x06 (mRearm.force 2 7 6 1) ∧ armWin (mRearm.force 2 7 6 1) = 2 ∧
      bits ((mRearm.force 2 7 6 1).arg 2) 7 6 = 1 ∧ (sRearm.win 2).arming = none ∧ (sRearm.win 2).col = none ∧
      (sRearm.win 2).st = .collected) :=
  ⟨⟨rest_of (by decide +kernel), by decide +kernel, by decide +kernel, accepts_of (by decide +kernel), by decide +kernel⟩,
   rest_of (by decide +kernel), accepts_of (by decide +kernel), by decide +kernel⟩

theorem witness_ReleaseAndArmComplete :
    (sFinal.AtRest ∧ sFinal.Accepts 0x06 (mRelease.force 2 7 6 2) ∧ armWin (mRelease.force 2 7 6 2) = 2 ∧
      bits ((mRelease.force 2 7 6 2).arg 2) 7 6 = 2 ∧ (sFinal.win 2).arming = none ∧ (sFinal.win 2).st ≠ .idle ∧
      (sFinal.win 2).col = none ∧ (sFinal.win 2).finalising = false) ∧
    ((armingOf sArm).AtRest ∧ ((armingOf sArm).win 2).arming = some (sArm.armArgs mArm) ∧
      (armingOf sArm).mbs[mbIdx ((armingOf sArm).win 2).armMb]?.isSome = true) :=
  ⟨⟨rest_of (by decide +kernel), accepts_of (by decide +kernel), by decide +kernel⟩, rest_of (by decide +kernel), by decide +kernel⟩

/-! ### Notices, provisional reads, waits -/

/-- Agent 0 holds the line in E or M. -/
def entE : DirEnt := { set := setOf 0x200, way := 3, line := 0x200, part := 0, owner := some 0, excl := true }

def sOwned : State := { sLine with dir := [entE] }

def qBack : Req := { q0 with dat := two 1 2 }

theorem witness_NoticesOfHolders :
    sOwned.prov = [] ∧ qBack.provisional = false ∧ arrWf sOwned.arr = true ∧ sOwned.dirAt qBack.line = some entE ∧
    sOwned.lineOf qBack.line = some lineA ∧ lineA.dead = false ∧ entE.owner = some qBack.agent ∧ sOwned.Admits .writeback qBack ∧
    sOwned.Admits .writeclean qBack ∧
    (sShared.dirAt q0.line = some entS ∧ entS.records q0.agent = true ∧ (entS.owner = some q0.agent → entS.excl = true) ∧
      sShared.Admits .evictClean q0) :=
  ⟨by decide +kernel, by decide +kernel, by decide +kernel, by decide +kernel, by decide +kernel, by decide +kernel,
   by decide +kernel, admits_of (by decide +kernel), admits_of (by decide +kernel), by decide +kernel, by decide +kernel,
   by decide +kernel, admits_of (by decide +kernel)⟩

def qProv : Req := { q0 with provisional := true }

def provEnt (once : Bool) : ProvEnt :=
  { agent := 0, port := 0, txid := 1, line := 0x200, part := 0, lens := none, once := once, st := .opened }

def sProv (once : Bool) : State := { sLine with prov := [provEnt once] }

theorem witness_ProvisionalReads :
    (∀ op ∈ [ReqOp.rdOnce, ReqOp.rdShared], sLine.Admits op qProv ∧ arrWf sLine.arr = true ∧ sLine.lineOf q0.line = some lineA ∧
      (∀ i < 2, q0.covers i = true → (lineA.sec i).v = true ∧ (lineA.sec i).poison = false) ∧
      (∀ e, sLine.dirAt q0.line = some e → e.owner = none) ∧ (sLine.descOf (sLine.lensAt q0.addr)).reduction = false) ∧
    ((sProv true).prov = [provEnt true] ∧ (provEnt true).port = q0.port ∧ (provEnt true).txid = q0.txid ∧
      (provEnt true).line = q0.line ∧ (provEnt true).tag = none ∧ (sProv true).Allowed .confirm q0 ∧ (provEnt true).st = .opened ∧ (provEnt true).once = true ∧ (sProv true).Allowed .cancel q0) ∧
    ((sProv false).Allowed .confirm q0 ∧ (provEnt false).once = false ∧ ((sProv false).descOf none).reduction = false ∧ (sProv false).onlyShared none = false ∧
      (sProv false).onlyShared ((sProv false).lensAt q0.addr) = false ∧ (sProv false).dirAt q0.line = none ∧ (sProv false).dirPlace (setOf q0.line) = .free 0) := by
  refine ⟨?_, ⟨by decide +kernel, by decide +kernel, by decide +kernel, by decide +kernel, by decide +kernel, allowed_of (by decide +kernel),
    by decide +kernel, by decide +kernel, allowed_of (by decide +kernel)⟩, allowed_of (by decide +kernel), by decide +kernel⟩
  intro op hop
  refine ⟨admits_of ?_, by decide +kernel, by decide +kernel, by decide +kernel, none_all (by decide +kernel), by decide +kernel⟩
  revert op; decide +kernel

theorem witness_ReservedOpcodeAborts : base.AtRest ∧ q0.flips = 0 ∧ (∀ f ∈ q0.dat, f.flips = 0) ∧ 0xFF < 256 ∧ assignedOpcode 0xFF = false :=
  ⟨rest_of (by decide +kernel), by decide +kernel⟩

/-- A write whose flit has not come, and a `ZERO_LINE` behind a busy line. -/
def waitWr : WaitReq := { op := .wrPartial, q := { q0 with size := 5 }, cause := .tracker }

def waitZero : WaitReq := { op := .zeroLine, q := q0, cause := .busyLine }

def sBusy : State := { sLine with waiting := [waitZero], txns := [{ qTxn .rdShared q0 with served := true, busy := true, ack := some (0, 1, 0) }] }

theorem witness_RequestsWaitAndRestart :
    (State.AtRest { ({ sLine with waiting := [waitWr] } : State) with waiting := [] } ∧ (∀ w ∈ [waitWr], w.cause ≠ .span) ∧ sLine.prov = [] ∧
      ({ sector := 0, data := 3 } : DatFlit).flips = 0 ∧ wantsFlit waitWr.op waitWr.q waitWr.tag 0 1 = true) ∧
    (State.Admits { ({ sLine with waiting := [waitZero] } : State) with waiting := [] } .zeroLine q0 ∧
      State.freed waitZero { ({ sLine with waiting := [waitZero] } : State) with waiting := [] } = true) ∧
    (State.AtRest { sBusy with waiting := [], txns := [] } ∧ sBusy.txns = [{ qTxn .rdShared q0 with served := true, busy := true, ack := some (0, 1, 0) }] ∧
      waitZero.cause = .busyLine ∧ (∀ x ∈ sBusy.txns, x.served = true ∧ x.kind = .req .rdShared q0 none) ∧ sBusy.prov = [] ∧ sBusy.busy waitZero.q.line = true) :=
  ⟨⟨rest_of (by decide +kernel), by decide +kernel⟩, ⟨admits_of (by decide +kernel), by decide +kernel⟩, rest_of (by decide +kernel),
   by decide +kernel⟩

/-- The same write, as old as the watchdog allows. -/
def waitLate : WaitReq := { waitWr with age := 100000 }

theorem witness_DeadlinesComplete :
    ((sProv true).AtRest ∧ (provEnt true).st ≠ .pending ∧ (provEnt true).tag = none) ∧
    (State.AtRest { ({ sLine with waiting := [waitLate] } : State) with waiting := [] } ∧ watched waitLate.op = true ∧
      waitLate.tag = none ∧ sLine.prov = [] ∧ sLine.regs.fwdWd ≤ waitLate.age) :=
  ⟨⟨rest_of (by decide +kernel), by decide +kernel⟩, rest_of (by decide +kernel), by decide +kernel⟩

/-! ### Cues -/

/-- Channel 3 of partition 0: its bell is line 0x900, `APPLIED` is 5, and slot 4 is `ARMED` on it with target 9 (`FINALIZE`). -/
def chanCfg : ChanCfg := { en := true, owner := 0, bell := 0x900, lagLimit := 100, wdMode := 2, wdLimit := 50 }

def slotWord0 (act : Nat) : Word := BitVec.ofNat 64 (4 + 3 * 2 ^ 9 + act * 2 ^ 13)

def armedSlot : ActSlot := { words := [slotWord0 3, 9, 0, 0, 0, 0, 0, 0], st := .armed }

def sCue : State :=
  { base with cue := { chans := (List.replicate 16 {}).set 3 { cfg := chanCfg, applied := 5, issued := 6, since := 40 },
                       ranges := (0, 512) :: List.replicate 15 (0, 0), slots := (List.replicate 512 {}).set 4 armedSlot } }

/-- A ring: the value, and the `ADD` bit. -/
def qRing (add : Bool) : Req := { q0 with addr := 0x900 * 128, size := 6, dat := one (3 + if add then 2 ^ 32 else 0) }

def mPost : MbCmd := mbOf [3 + 16 + 2 * 2 ^ 32]

def beatA : BeatQ := { part := 0, chan := 3, count := 9, src := some (0, 1, none) }

def sBeat : State := { sCue with cue := { sCue.cue with beats := [beatA] } }

theorem witness_BeatsAreSent :
    (∀ add ∈ [false, true], sCue.Allowed .cueRing (qRing add) ∧ sCue.hdrWin (qRing add).line = none ∧
      sCue.bellOf (qRing add).line = some 3 ∧ (qRing add).addr % 128 = 0 ∧ (sCue.chan 3).cfg.owner = (qRing add).part ∧
      sCue.beatsFull = false ∧ (qRing add).payload.toNat >>> 33 = 0 ∧
      valueOk (bit (getBytes (qRing add).payload 4 1) 0) (getBytes (qRing add).payload 0 4) = true) ∧
    (sCue.AtRest ∧ sCue.Accepts 0x0E mPost ∧ bits (mPost.arg 0) 3 0 = 3 ∧ (sCue.chan 3).cfg.en = true ∧
      valueOk (bit (mPost.arg 0) 4) (bits (mPost.arg 0) 63 32) = true ∧ sCue.keeper 3 = true) ∧
    (sBeat.AtRest ∧ sBeat.cue.beats = [beatA] ∧ sBeat.prov = []) := by
  refine ⟨?_, ⟨rest_of (by decide +kernel), accepts_of (by decide +kernel), by decide +kernel⟩, rest_of (by decide +kernel),
    by decide +kernel⟩
  intro add hadd
  refine ⟨allowed_of ?_, ?_⟩
  · revert add; decide +kernel
  · revert add; decide +kernel

theorem witness_CueBeatsAndLag :
    sCue.AtRest ∧ (3 < sCue.cue.chans.length ∧
      sCue.cue.slots.length = 512 ∧ sCue.beatOk 0 3 = true ∧ isAfter 9 (sCue.chan 3).applied = true ∧
      isAfter (5 + 0x7FFFFFFF) (sCue.chan 3).applied = true) ∧
    (sCue.lagDue 3 = true ∧ sCue.wdDue 3 = true) :=
  ⟨rest_of (by decide +kernel), by decide +kernel⟩

/-- A record for the free slot 5 that passes R273: `SEAL` of window 0 at a target that `APPLIED` has reached. -/
def recPast : List Word := [BitVec.ofNat 64 (5 + 3 * 2 ^ 9 + 3 * 2 ^ 13), 5]

theorem witness_ArmAndDisarmSlot :
    sCue.AtRest ∧ sCue.power.rstLow = false ∧ sCue.reaches {} none = true ∧ sCue.reaches { mgmt := false } (some 0) = true ∧
    sCue.cueView.check none recPast = .ok ∧ sCue.cueView.check (some 0) recPast = .ok ∧ (sCue.slot 5).st = .free ∧
    (sCue.slot 4).st = .armed ∧ (∀ p, some 0 = some p → inRange sCue.cue.ranges p 4 = true) :=
  ⟨rest_of (by decide +kernel), by decide +kernel, by decide +kernel, by decide +kernel, by decide +kernel, by decide +kernel,
   by decide +kernel, by decide +kernel, some_all rfl (by decide +kernel)⟩

/-! ### Snoops, dead agents, regulation -/

/-- A snoop of agent 0 under the first ID. -/
def snoop0 : SnoopRec := { agent := 0, port := 0, id := 0xF00, op := 1, sent := true }

def snoopTxn (k : SnoopRec) : Txn := { qTxn .rdShared q0 with snoops := [k], busy := true }

def sSnoop (k : SnoopRec) : State := { sOwned with txns := [snoopTxn k] }

def evictTxn : Txn := { id := 0, kind := .evict entE, line := 0x200, part := 0, lens := none, started := true, snoops := [snoop0] }

def sEvict : State := { sLine with txns := [evictTxn] }

def answered : SnoopRec := { snoop0 with ans := some { code := 1, data := true, pd := true } }

def ansData : Snr := { port := 0, id := 0xF00, code := 1, data := true, pd := true }

theorem witness_SnoopsAnswered :
    (State.AtRest { sSnoop snoop0 with txns := [] } ∧ (sSnoop snoop0).txns = [snoopTxn snoop0] ∧
      (snoopTxn snoop0).kind = .req .rdShared q0 none ∧ ansData.flips = 0 ∧ ansData.code < 3 ∧ ansData.data = true ∧
      (snoopTxn snoop0).served = false ∧ (snoopTxn snoop0).started = true ∧ snoop0.notice = none ∧ snoop0.inflight = none ∧
      snoop0.lo = none ∧ snoop0.hi = none ∧ snoop0.ans = none ∧ ({ port := 0, id := 0xF00, code := 7, notice := 1 } : Snr).notice < 2 ∧
      snoop0.port = 0 ∧ snoop0.id = 0xF00) ∧
    (State.AtRest { sEvict with txns := [] } ∧ sEvict.txns = [evictTxn] ∧ evictTxn.kind = .evict entE ∧
      evictTxn.served = false ∧ evictTxn.started = true) ∧
    (State.AtRest { sSnoop answered with txns := [] } ∧ (sSnoop answered).txns = [snoopTxn answered] ∧
      answered.ans = some { code := 1, data := true, pd := true }) ∧
    (State.AtRest { sSnoop { snoop0 with sent := false } with txns := [] } ∧ (sSnoop { snoop0 with sent := false }).span.fwd = [] ∧
      snoop0.far = false ∧ snoop0.port < 8) :=
  ⟨⟨rest_of (by decide +kernel), by decide +kernel⟩, ⟨rest_of (by decide +kernel), by decide +kernel⟩,
   ⟨rest_of (by decide +kernel), by decide +kernel⟩, rest_of (by decide +kernel), by decide +kernel⟩

def sDown : State := { sLine with down := [{ agent := 0, inWalk := true }] }

theorem witness_AgentDownAndReclaim :
    sLine.AtRest ∧
    (State.AtRest { sDown with down := [] } ∧ sDown.down = [{ agent := 0, inWalk := true }] ∧
      sDown.prov = [] ∧ (∀ e ∈ sDown.dir, e.records 0 = false)) :=
  ⟨rest_of (by decide +kernel), rest_of (by decide +kernel), by decide +kernel⟩

/-- Urgency input 0 is bound to group 0. -/
def sUrg : State := { base with reg := { base.reg with cfg := { base.reg.cfg with urg := (List.replicate 16 (0, false)).set 0 (0, true) } } }

theorem witness_RegulationRounds :
    (base.AtRest ∧ base.prov = [] ∧ base.reg.scale.length = 5 ∧ (base.reg.cfg.urg.getD 0 (0, false)).2 = false) ∧
    (sUrg.AtRest ∧ sUrg.prov = [] ∧ (sUrg.reg.cfg.urg.getD 0 (0, false)).2 = true ∧ sUrg.reg.urgLvl.getD 0 0 ≠ 3 ∧
      sUrg.reg.scale.length = 5) :=
  ⟨⟨rest_of (by decide +kernel), by decide +kernel⟩, rest_of (by decide +kernel), by decide +kernel⟩

/-! ### Memory -/

def specRead : MemReq := { port := 0, mopc := 1, addr := 0x10000, size := 7, part := 0, spec := true, mtag := 5 }

def specReg : MissReg := { line := 0x200, st := .discard, part := 0, lens := none, alloc := false, wantLo := true, wantHi := true }

def sSpec : State := { base with memOut := [specRead], mrs := [specReg] }

def fillRead : MemReq := { specRead with spec := false, use := .fillLine 0x200, left := 2 }

def fillReg : MissReg := { specReg with st := .miss }

def sFill : State := { base with memOut := [fillRead], mrs := [fillReg] }

def wbWrite : MemReq := { port := 0, mopc := 3, addr := 0x10000, size := 6, part := 0, use := .wback 0x200 0, mtag := 2 }

def wbEnt : WbEnt :=
  { line := 0x200, part := 0, lo := some { data := 1, poison := false, issued := true },
    hi := some { data := 2, poison := false, issued := true } }

def sWback : State := { base with wbb := [wbEnt], memOut := [wbWrite] }

theorem witness_PortAnswers :
    (State.AtRest { sSpec with mrs := [] } ∧ sSpec.prov = [] ∧ sSpec.mrs = [specReg] ∧ sSpec.readAt 0 5 = some specRead ∧
      specRead.left = 1 ∧ specRead.spec = true ∧ specRead.use = .plain ∧ specReg.line = addrLine specRead.addr ∧
      specReg.st = .discard) ∧
    (State.AtRest { sFill with mrs := [] } ∧ sFill.mrs = [fillReg] ∧ sFill.readAt 0 5 = some fillRead ∧ fillRead.left = 2 ∧
      fillRead.use = .fillLine fillReg.line ∧ fillReg.hiGot = none ∧ fillReg.st = .miss ∧ fillReg.alloc = false ∧
      fillReg.wantLo = true ∧ fillReg.wantHi = true ∧ fillReg.loGot = none ∧ sFill.lineOf fillReg.line = none) ∧
    (base.AtRest ∧ base.prov = [] ∧ base.heldOut = []) ∧
    (sWback.AtRest ∧ sWback.writeAt 0 2 = some wbWrite ∧ wbWrite.use = .wback 0x200 0 ∧
      (∀ x ∈ sWback.memOut.erase wbWrite, x.isWb 0x200 0 = false) ∧ sWback.prov = [] ∧
      (sWback.wbb.map (·.line)).Nodup) :=
  ⟨⟨rest_of (by decide +kernel), by decide +kernel⟩, ⟨rest_of (by decide +kernel), by decide +kernel⟩,
   ⟨rest_of (by decide +kernel), by decide +kernel⟩, rest_of (by decide +kernel), by decide +kernel⟩

/-! ### Walks, range commands, actions -/

/-- A tile of 2 rows of 4 lines at 0x20000, class 2. -/
def mTile : MbCmd := mbOf [0x20000, 4 + 2 ^ 14 + 2 * 2 ^ 30, 0x1000]

/-- Four lines at 0x20000, class 2. -/
def mPin : MbCmd := mbOf [0x20000, 3 + 2 * 2 ^ 33]

/-- Slot 5 holds an action at the head of the `DUE` queue: its type, and the words after the first. -/
def actSlot (act : Nat) (rest : List Word) : ActSlot :=
  { words := BitVec.ofNat 64 (5 + 3 * 2 ^ 9 + act * 2 ^ 13) :: 1 :: rest, st := .due, fire := 1 }

def sDue (act : Nat) (rest : List Word) (s : State) : State :=
  { s with cue := { s.cue with chans := (List.replicate 16 {}).set 3 { cfg := chanCfg, applied := 5 },
                               ranges := (0, 512) :: List.replicate 15 (0, 0),
                               slots := (List.replicate 512 {}).set 5 (actSlot act rest), due := [5] } }

/-- Two lines at 0x20000. -/
def walkWords : List Word := [0x20000, 2, 0, 1, 0, 0]

theorem witness_WalksBegin :
    (base.AtRest ∧ base.lens.queue = [] ∧ base.xlt.tdc = List.replicate 48 none ∧
      base.xlt.side = [] ∧ base.xlt.fetches = []) ∧
    (base.Accepts 0x05 mTile ∧ bits (mTile.arg 0) 56 0 % 128 = 0 ∧ bits (mTile.arg 2) 31 0 % 128 = 0 ∧
      0 < bits (mTile.arg 1) 13 0 ∧ bits (mTile.arg 1) 13 0 ≤ 8192 ∧ (base.part (bits (mTile.arg 1) 36 33)).active = true ∧
      bits (mTile.arg 0) 56 0 + bits (mTile.arg 1) 29 14 * bits (mTile.arg 2) 31 0 + bits (mTile.arg 1) 13 0 * 128 ≤ 2 ^ 57) ∧
    (base.Accepts 0x0A mPin ∧ bits (mPin.arg 0) 56 0 % 128 = 0 ∧ (base.part (bits (mPin.arg 1) 39 36)).active = true ∧
      bits (mPin.arg 0) 56 0 + (bits (mPin.arg 1) 32 0 + 1) * 128 ≤ 2 ^ 57) ∧
    (∀ a ∈ [0, 1, 2, 6], (sDue a walkWords base).AtRest ∧ (sDue a walkWords base).cue.due = [5] ∧
      5 < (sDue a walkWords base).cue.slots.length ∧ ((sDue a walkWords base).slot 5).act = a ∧
      (sDue a walkWords base).walkingNow < 8 ∧ 0 < bits (((sDue a walkWords base).slot 5).word 3) 13 0) := by
  refine ⟨⟨rest_of (by decide +kernel), by decide +kernel⟩, ⟨accepts_of (by decide +kernel), by decide +kernel⟩,
    ⟨accepts_of (by decide +kernel), by decide +kernel⟩, ?_⟩
  intro a ha
  refine ⟨rest_of ?_, ?_⟩
  · revert a; decide +kernel
  · revert a; decide +kernel

/-- A tile walk that has ended, with a fault and without. -/
def endedWalk (flt : Bool) : Walk :=
  { id := 7, src := .mailbox none, act := 0, va := 0x20000, rowLines := 4, rows := 2, stride := 0x1000, part := 0, cls := 2,
    pos := 3, stop := .ended, fills := 3, faulted := flt }

def sWalked (flt : Bool) : State := { base with walks := [endedWalk flt] }

def sActed (code : Nat) : State :=
  let a : ActSlot := { actSlot 3 [] with st := .running, out := some { code := code, fire := 1 } }
  { base with cue := { base.cue with slots := (List.replicate 512 {}).set 5 a } }

theorem witness_WalksAndActionsEnd :
    (∀ flt ∈ [false, true], State.AtRest { sWalked flt with walks := [] } ∧ (sWalked flt).prov = [] ∧ (sWalked flt).mbWalk none = some (endedWalk flt) ∧
      (sWalked flt).walkDue (endedWalk flt) = true ∧ (endedWalk flt).fillsLines = true ∧ (endedWalk flt).overflow = false ∧
      (endedWalk flt).endErr = none ∧ (sWalked flt).mbs[mbIdx none]? = some {}) ∧
    (∀ code ∈ [0, 4], (sActed code).AtRest ∧ (sActed code).prov = [] ∧
      5 < (sActed code).cue.slots.length ∧ ((sActed code).slot 5).st = .running ∧
      ((sActed code).slot 5).out = some { code := code, fire := 1 } ∧ ((sActed code).slot 5).part < (sActed code).pws.length) := by
  constructor
  · intro flt h
    refine ⟨rest_of ?_, ?_⟩
    · revert flt; decide +kernel
    · revert flt; decide +kernel
  · intro code h
    refine ⟨rest_of ?_, ?_⟩
    · revert code; decide +kernel
    · revert code; decide +kernel

/-- A line with a dirty sector. -/
def lineD : CLine := { lineA with lo := Sec.dirty 5 false }

def sRange : State := { base with arr := [lineD] }

/-- The same line in the pinned way. -/
def sPinned : State := { base with arr := [{ lineD with way := 0 }] }

/-- The one line at 0x10000. -/
def mRange : MbCmd := mbOf [0x10000, 128]

def rangeRun : RangeRun := { id := 4, kind := .flush, window := none, lines := 1, lo := 0x200, hi := 0x201, held := false }

def sRanged : State := { base with ranges := [rangeRun] }

theorem witness_RangeCommands :
    (∀ p ∈ [(1, RangeKind.flush), (2, .invalidate), (3, .discard), (4, .zero), (0x0B, .unpin)],
      sRange.AtRest ∧ sRange.Accepts p.1 mRange ∧ sRange.rangeCheck p.2 none 0x10000 128 = .ok ∧ bits (mRange.arg 0) 51 0 = 0x10000 ∧
      bits (mRange.arg 1) 52 0 = 128 ∧ sRange.homed 0x200 = true ∧ sRange.lineOf 0x200 = some lineD ∧ lineD.dead = false ∧
      lineD.rep = false ∧ (∀ x ∈ sRange.arr, x.line = 0x200 → x.resid = false → x = lineD) ∧ sRange.dirAt 0x200 = none ∧
      arrWf sRange.arr = true ∧ sRange.wbb = [] ∧ sRange.prov = [] ∧ (∀ p, p < 16 → sRange.selfCovers (sRange.selfGroup p) 0x200 = true)) ∧
    (sPinned.AtRest ∧ sPinned.Accepts 0x0B mRange ∧ sPinned.rangeCheck .unpin none 0x10000 128 = .ok ∧
      sPinned.pinnedWay { lineD with way := 0 } = true) ∧
    (State.AtRest { sRanged with ranges := [] } ∧ sRanged.prov = [] ∧ sRanged.ranges.find? (fun x => x.window == none) = some rangeRun ∧ sRanged.rangeDue rangeRun = true ∧
      sRanged.mbs[mbIdx none]? = some {}) := by
  refine ⟨?_, ⟨rest_of (by decide +kernel), accepts_of (by decide +kernel), by decide +kernel⟩, rest_of (by decide +kernel),
    by decide +kernel⟩
  intro p hp
  refine ⟨rest_of (by decide +kernel), accepts_of ?_, ?_⟩
  · revert p; decide +kernel
  · revert p; decide +kernel

def sWinDue (act : Nat) : State := sDue act [0, 0, 0, 0, BitVec.ofNat 64 (2 + 7 * 2 ^ 6), 0] sSum

/-- A `NORMAL` lens in slot 0, for `SET_PERS` into slot 1 with persistence 2. -/
def keepDesc : Desc := { slot := 0, base := 1, size := 1, pers := 1, quota := 64 }

def sPers : State := sDue 7 [0, 0, 0, 0, 0, BitVec.ofNat 64 (0 + 2 ^ 8 + 2 * 2 ^ 16)] (withLens keepDesc base)

theorem witness_WindowAndLensActions :
    (∀ a ∈ [3, 4], (sWinDue a).AtRest ∧ (sWinDue a).prov = [] ∧ (sWinDue a).lens.queue = [] ∧
      (sWinDue a).lens.rebuild = false ∧ (sWinDue a).cue.due = [5] ∧ 5 ∉ ([] : List Nat) ∧ 5 < (sWinDue a).cue.slots.length ∧
      bits (((sWinDue a).slot 5).word 6) 5 0 = 2 ∧ 2 < (sWinDue a).wins.length ∧ ((sWinDue a).win 2).arming = none ∧
      ((sWinDue a).win 2).takes = true ∧ ((sWinDue a).win 2).part = ((sWinDue a).slot 5).part ∧
      bits (((sWinDue a).slot 5).word 6) 37 6 = ((sWinDue a).win 2).gen.toNat ∧ ((sWinDue a).slot 5).act = a) ∧
    ((sDue 5 [] base).AtRest ∧ ((sDue 5 [] base).slot 5).act = 5) ∧
    (sPers.AtRest ∧ (sPers.slot 5).act = 7 ∧ (sPers.lensSlot 0).desc = some keepDesc ∧ (sPers.lensSlot 0).inAct = true ∧
      bits ((sPers.slot 5).word 7) 7 0 = 0 ∧ bits ((sPers.slot 5).word 7) 15 8 = 1 ∧ bits ((sPers.slot 5).word 7) 17 16 = 2 ∧
      sPers.slotKind 1 = .free ∧ 1 < sPers.lens.slots.length) := by
  refine ⟨?_, ⟨rest_of (by decide +kernel), by decide +kernel⟩, rest_of (by decide +kernel), by decide +kernel⟩
  intro a ha
  refine ⟨rest_of ?_, ?_⟩
  · revert a; decide +kernel
  · revert a; decide +kernel

def mSwap : MbCmd := mbOf []

/-- A lens that stands in the shadow set. -/
def sShadow : State := { base with lens := { base.lens with slots := (List.replicate 256 {}).set 0 { desc := some keepDesc, inSh := true }, tintSh := 9 } }

def sRebuild (q : List LensOp) : State := { sShadow with lens := { sShadow.lens with rebuild := true, queue := q } }

def sSwapDue : State := { sShadow with lens := { sShadow.lens with queue := [.swap (.mailbox none)] } }

def sThrash (hits : Nat) : State :=
  { base with lens := { base.lens with thrash := { lookups := 65536, hits := hits, evicts := 64 * 17 } :: List.replicate 15 {} } }

theorem witness_LensSetsAndThrash :
    (sShadow.AtRest ∧ sShadow.Accepts 0x0C mSwap ∧ sShadow.prov = [] ∧ sShadow.lens.queue = [] ∧
      sShadow.lens.rebuild = false) ∧
    ((sRebuild []).AtRest ∧ (sRebuild []).Accepts 0x0C mSwap ∧ (sRebuild []).lens.queue = [] ∧ (sRebuild []).lens.rebuild = true) ∧
    (sSwapDue.AtRest ∧ sSwapDue.prov = [] ∧ sSwapDue.lens.rebuild = false ∧ sSwapDue.lens.queue = [.swap (.mailbox none)] ∧
      sSwapDue.mbs[mbIdx none]? = some {}) ∧
    (∀ hits ∈ [64 * 511, 64 * 512], (sThrash hits).AtRest ∧ 0 < (sThrash hits).pws.length ∧ 65536 ≤ ((sThrash hits).lens.thrash.getD 0 {}).lookups) ∧
    ((64 * 511) / 64 < ((sThrash 0).part 0).thrashHit ∧ ((sThrash 0).part 0).thrashEvict < (64 * 17) / 64) :=
  ⟨⟨rest_of (by decide +kernel), accepts_of (by decide +kernel), by decide +kernel⟩,
   ⟨rest_of (by decide +kernel), accepts_of (by decide +kernel), by decide +kernel⟩,
   ⟨rest_of (by decide +kernel), by decide +kernel⟩,
   fun hits h => ⟨rest_of (by revert hits; decide +kernel), by revert hits; decide +kernel⟩, by decide +kernel⟩

/-- A staged descriptor in the free slot 3. -/
def sEdit : State :=
  let l : LensSlot := { stage0 := BitVec.ofNat 64 (3 + 4 * 2 ^ 8 + 2 ^ 39 + 2 ^ 59), stage1 := 64 }
  { sShadow with lens := { sShadow.lens with slots := sShadow.lens.slots.set 3 l } }

theorem witness_ShadowEditApplies :
    sEdit.AtRest ∧ sEdit.meas.locked = false ∧ sEdit.regs.editBusy = false ∧ sEdit.presc.phase = .idle ∧ sEdit.lens.queue = [] ∧
    sEdit.lens.rebuild = false ∧ 3 < sEdit.lens.slots.length ∧ (∀ k d, (sEdit.lensSlot k).desc = some d → d.slot = k) ∧
    sEdit.editCheck true 3 = .ok ∧ sEdit.editCheck false 0 = .ok := by
  refine ⟨rest_of (by decide +kernel), by decide +kernel, by decide +kernel, by decide +kernel, by decide +kernel, by decide +kernel,
    by decide +kernel, ?_, by decide +kernel⟩
  intro k d e
  have h : ∀ k < 256, ((sEdit.lensSlot k).desc.map fun e => e.slot == k).getD true = true := by decide +kernel
  rcases Nat.lt_or_ge k 256 with hk | hk
  · have := h k hk
    rw [e] at this
    exact beq_iff_eq.1 this
  · have l : sEdit.lens.slots.length = 256 := by decide +kernel
    rw [State.lensSlot, List.getD_eq_getElem?_getD, List.getElem?_eq_none (l ▸ hk)] at e
    cases e

/-! ### Resilver and handover -/

def mPhase (phase : Nat) : MbCmd := mbOf [phase * 2 ^ 4]

/-- Partition 0 in a resilver that has reached a phase. -/
def sRes (phase : Nat) (running : Option Nat) : State :=
  { base with res := { active := true, part := 0, phase := phase, running := running, lines := 3 } }

/-- A command of window 0 runs, slot 4 holds an action of partition 0, and channel 3 is its own. -/
def sBusyPart : State :=
  let mb : Mailbox := { st := 1, seq := 4, opcode := 5 }
  { sCue with mbs := base.mbs.set 0 mb }

theorem witness_ResilverPhases :
    (sBusyPart.AtRest ∧ sBusyPart.Accepts 0x0D ((mPhase 0).force 0 5 4 0) ∧ sBusyPart.res = {} ∧
      bits (((mPhase 0).force 0 5 4 0).arg 0) 3 0 = 0 ∧ (sBusyPart.part 0).active = true ∧ sBusyPart.presc.phase = .idle ∧
      sBusyPart.prov = [] ∧ sBusyPart.cue.beats = [] ∧
      sBusyPart.arr = [] ∧ sBusyPart.dir = [] ∧ (∀ x ∈ sBusyPart.wins, x.ofPart 0 = false) ∧
      (sBusyPart.mbs[0]?.map (·.st)) = some 1 ∧ (sBusyPart.slot 4).st ≠ .free ∧ (sBusyPart.slot 5).st = .free ∧ (sBusyPart.slot 4).part = 0 ∧
      (sBusyPart.chan 3).cfg.owner = 0) ∧
    (∀ n r, State.AtRest { sRes n r with res := {} }) ∧
    ((sRes 0 (some 1)).drainDone = true ∧ (sRes 0 (some 1)).mbs[16]? = some ({} : Mailbox)) ∧
    ((sRes 1 none).res.active = true ∧ (sRes 1 none).Accepts 0x0D ((mPhase 1).force 0 5 4 1) ∧ ((sRes 1 none).part 0).active = true ∧
      bits (((mPhase 1).force 0 5 4 1).arg 0) 3 0 = 0) ∧
    ((sRes 1 (some 2)).res.active = true ∧ (sRes 1 (some 2)).res.running = some 2 ∧ (sRes 1 (some 2)).mbs[16]? = some ({} : Mailbox) ∧ 0 < (sRes 1 (some 2)).pws.length) ∧
    ((sRes 2 none).res.active = true ∧ (sRes 2 none).Accepts 0x0D ((mPhase 2).force 0 5 4 2) ∧ ((sRes 2 none).part 0).active = true ∧
      bits (((mPhase 2).force 0 5 4 2).arg 0) 3 0 = 0 ∧ 0 < (sRes 2 none).meas.epochs.length ∧
      (sRes 2 none).meas.withdrawn.length = 16) :=
  ⟨⟨rest_of (by decide +kernel), accepts_of (by decide +kernel), by decide +kernel⟩,
   fun _ _ => rest_of (s := base) (by decide +kernel), by decide +kernel,
   ⟨by decide +kernel, accepts_of (by decide +kernel), by decide +kernel⟩, by decide +kernel,
   ⟨by decide +kernel, accepts_of (by decide +kernel), by decide +kernel⟩⟩

/-- Two slices in the geometry: this one at position 0, and the bucket map at 1 but for bucket 0. -/
def sPair : State := { base with cfg := { cfg0 with slices := 2, map := 0 :: List.replicate 1023 1 } }

def mHand (bucket peer count addr : Nat) : MbCmd := mbOf [bucket * 4 + peer * 2 ^ 12 + count * 2 ^ 18, addr]

/-- A split package, whose twin stands at position 32. -/
def sTwin : State := { sPair with power := { sPair.power with straps := { split := true } } }

def outgoing : Handover := { bucket := 0, incoming := false, peer := 1, listAddr := 0x40, phase := 2, crossing := [(0x200, 0)] }

def incoming : Handover := { bucket := 5, incoming := true, peer := 1 }

theorem witness_HandoverRoles :
    (sPair.AtRest ∧ sPair.Accepts 0x0F ((mHand 5 1 0 0).force 0 1 0 0) ∧ sPair.handCheck .claim 5 1 0 0 = .ok) ∧
    (sTwin.AtRest ∧ sTwin.Accepts 0x0F ((mHand 5 32 0 0).force 0 1 0 3) ∧ sTwin.handCheck .relay 5 32 0 0 = .ok) ∧
    (sPair.Accepts 0x0F ((mHand 0 1 0 64).force 0 1 0 1) ∧ sPair.handCheck .release 0 1 64 0 = .ok ∧ sPair.prov = [] ∧
      sPair.arr = [] ∧ sPair.dir = [] ∧ sPair.wbb = []) ∧
    (let s := { sPair with hand := { buckets := [outgoing] } }
     State.AtRest { s with hand := {} } ∧ s.prov = [] ∧ outgoing.incoming = false ∧ s.releaseDue outgoing = true ∧ s.mbs[16]? = some ({} : Mailbox)) ∧
    (∀ n ∈ [0, 3],
      let s := { sPair with hand := { buckets := [incoming] } }
      State.AtRest { s with hand := {} } ∧ (∀ x ∈ s.arr, x.rep = false) ∧ s.Accepts 0x0F ((mHand 5 1 n 64).force 0 1 0 2) ∧ s.handCheck .commit 5 1 64 n = .ok ∧
        bits (((mHand 5 1 n 64).force 0 1 0 2).arg 0) 11 2 = 5 ∧ bits (((mHand 5 1 n 64).force 0 1 0 2).arg 0) 38 18 = n) := by
  refine ⟨⟨rest_of (by decide +kernel), accepts_of (by decide +kernel), by decide +kernel⟩,
   ⟨rest_of (by decide +kernel), accepts_of (by decide +kernel), by decide +kernel⟩,
   ⟨accepts_of (by decide +kernel), by decide +kernel⟩, ⟨rest_of (s := sPair) (by decide +kernel), by decide +kernel⟩, ?_⟩
  intro n hn
  refine ⟨rest_of (s := sPair) (by decide +kernel), by decide +kernel, accepts_of ?_, ?_⟩
  · revert n; decide +kernel
  · revert n; decide +kernel

/-! ### Translation, fault and hot-page rings -/

def tdcEnt : TdcEnt := { part := 0, desc := false, addr := 0x40, value := 7 }

def tdcCmd : TdcCmd := { part := 0, addr := 0x40, data := 9 }

def sTdc : State := { base with xlt := { base.xlt with tdc := (List.replicate 48 none).set 3 (some tdcEnt) } }

def tdcFetch : TdcFetch := { cls := 2, part := 0, desc := false, addr := 0x48 }

def tdcRead : MemReq := { port := 0, mopc := 2, addr := 0x40, size := 6, part := 0, use := .tdc 2, mtag := 4 }

def sFetch : State := { base with xlt := { base.xlt with fetches := [tdcFetch] }, memOut := [tdcRead] }

/-- A `WRITE` whose change is in progress. -/
def sChange : State :=
  { base with xlt := { base.xlt with change := base.xlt.change.set 0 true,
                                     opBusy := base.xlt.opBusy.set 0 (some (4, false, 0x40)) } }

theorem witness_TdcCommands :
    (∀ s ∈ [base, sTdc], s.AtRest ∧ s.prov = [] ∧ tdcCmd.mgmt = true ∧ (s.part 0).active = true ∧ tdcCmd.addr % 8 = 0 ∧
      s.pws.length = 16 ∧ s.xlt.opBusy = List.replicate 16 none ∧ s.xlt.change.length = 16 ∧ s.xlt.side = [] ∧
      (s.pws.getD 0 {}).tdcBusy = false ∧ s.xlt.locked < 32) ∧
    (sTdc.xlt.at (0, false, 0x40) = some (3, tdcEnt) ∧ base.xlt.at (0, false, 0x40) = none ∧ base.xlt.fetches = []) ∧
    (sChange.AtRest ∧ sChange.prov = [] ∧ sChange.pws.length = 16 ∧ sChange.xlt.opBusy.length = 16 ∧ sChange.xlt.change.length = 16 ∧ sChange.changeDue 0 = true ∧
      sChange.memOut = [] ∧ sChange.xlt.opBusy.getD 0 none = some (4, false, 0x40)) ∧
    (sFetch.AtRest ∧ sFetch.prov = [] ∧ tdcFetch.stale = false ∧ tdcFetch.lookahead = false ∧ tdcFetch.level3 = false ∧ sFetch.readAt 0 4 = some tdcRead ∧
      sFetch.xlt.fetchOf 2 = some tdcFetch ∧ sFetch.xlt.at tdcFetch.key = none ∧ sFetch.xlt.opBusy.getD 0 none = none ∧
      sFetch.xlt.tdc.length = 48 ∧ sFetch.xlt.tdc.any (·.isNone) = true) := by
  refine ⟨?_, by decide +kernel, ⟨rest_of (by decide +kernel), by decide +kernel⟩, rest_of (by decide +kernel), by decide +kernel⟩
  intro s hs
  refine ⟨rest_of ?_, ?_⟩
  · revert s; decide +kernel
  · revert s; decide +kernel

theorem witness_XltDescriptorWrites : sTdc.AtRest ∧ 0 < sTdc.pws.length ∧ (sTdc.part 0).active = true :=
  ⟨rest_of (by decide +kernel), by decide +kernel⟩

def staged0 : FaultRec := { words := [1, 2, 3, 4], part := 0 }

/-- The fault ring with room for eight records, one staged. -/
def sRing : State := { base with xlt := { base.xlt with fqEn := true, fqLog := 3, fqProd := 9, fqCons := 9, fqBase := 0x1000, staged := [staged0] } }

def stalledWalk : Walk := { endedWalk true with stop := .stalled, flt := some (1, 2, 3) }

theorem witness_FaultRing :
    (sRing.AtRest ∧ base.AtRest ∧ sRing.xlt.fqEn = true ∧ base.xlt.fqEn = false) ∧
    (sRing.xlt.staged = [staged0] ∧ sRing.fqRoom = true ∧ sRing.prov = []) ∧
    (let s := { base with walks := [stalledWalk] }
     State.AtRest { s with walks := [] } ∧ s.prov = [] ∧ stalledWalk.stop = .stalled) :=
  ⟨⟨rest_of (by decide +kernel), rest_of (by decide +kernel), by decide +kernel⟩, by decide +kernel,
   rest_of (s := base) (by decide +kernel), by decide +kernel⟩

def sHot : State := { base with hot := { base.hot with epoch := 5, ctrs := [(1, 9, true), (4, 1, false)], thresh := 5 } }

theorem witness_HotPageCounting :
    sHot.AtRest ∧ sHot.hot.epoch ≠ 0 :=
  ⟨rest_of (by decide +kernel), by decide +kernel⟩

/-! ### Prescriptions and CONFIG -/

def sConfig : State := { base with power := { base.power with state := .config }, presc := { base.presc with cfgReq := true } }

def sLoading (phase : PrescPhase) (len : Nat) : State := { base with presc := { base.presc with phase := phase, len := len } }

/-- A partial prescription of 552 bytes with a CUE section alone: channel 3 of partition 0, its bell line at 0x900, and the slots
for partition 0. The CRC-32C and the SHA-384 in it are computed by Python's `hashlib` and by hand from R337's polynomial: offset
and value. -/
def streamParts : List (Nat × Nat) :=
  [(0, 0x4d000000010000022800000000000000010101000146414c5a), (32, 0x1c800010009), (112, 0x12001), (120, 0x200006400000005),
   (128, 0x32), (424, 0x40000), (496, 0xc3042f72),
   (504, 0xd569f11eb781c24fe69a285a1553ca6994df9bc93ee61ab4a904f8c56d6d638bcbe0b4a297865659ca8c181ad37a47ac)]

def streamNum : Nat := (streamParts.map fun x => x.2 <<< (8 * x.1)).sum

def sStream : State :=
  { base with presc := { base.presc with
      phase := .check, len := 552, sectors := (List.range 9).map fun i => (i, BitVec.ofNat 512 (streamNum >>> (512 * i)), false) } }

def accepted (s : State) : Option Presc := match s.prescCheck s.presc.bytes with | .ok p => some p | .error _ => none

def refusedAt (s : State) : Option Fail := match s.prescCheck s.presc.bytes with | .ok _ => none | .error e => some e

theorem accepted_of {s : State} {f : Presc → Bool} (h : (accepted s).any f = true) :
    ∃ p, s.prescCheck s.presc.bytes = .ok p ∧ f p = true := by
  unfold accepted at h
  split at h
  · exact ⟨_, ‹_›, by simpa using h⟩
  · simp at h

theorem refused_of {s : State} {e : Fail} (h : refusedAt s = some e) : s.prescCheck s.presc.bytes = .error e := by
  unfold refusedAt at h
  split at h
  · simp at h
  · simp only [Option.some.injEq] at h
    subst h
    assumption

set_option maxRecDepth 100000 in
theorem witness_PrescriptionLoads :
    ((sLoading .idle 104).AtRest ∧ (sLoading .check 104).AtRest ∧ (sLoading .check 104).prov = []) ∧
    ((sLoading .check 104).prescCheck (sLoading .check 104).presc.bytes = .error (.fieldRange, 0)) ∧
    (sStream.Still ∧ sStream.power.state = .service ∧ sStream.prov = [] ∧
      ∃ p, sStream.prescCheck sStream.presc.bytes = .ok p ∧
        (!p.full && p.lens.isNone && p.tint.isNone && p.hasCue && (p.chans.getD 3 {}).bell == 0x900) = true) ∧
    (let s := { sConfig with presc := { base.presc with phase := .apply, todo := some {} } }
     s.Still ∧ s.power.state = .config ∧ s.prov = [] ∧ s.presc.phase = .apply ∧ s.presc.todo = some {} ∧ ({} : Presc).full = true ∧ s.lens.queue = []) :=
  ⟨⟨rest_of (by decide +kernel), rest_of (by decide +kernel), by decide +kernel⟩, refused_of (by decide +kernel),
   ⟨still_of (by decide +kernel), by decide +kernel, by decide +kernel, accepted_of (by decide +kernel)⟩,
   still_of (by decide +kernel), by decide +kernel⟩

def sDrained : State := { base with power := { base.power with cfgDrain := true } }

theorem witness_ConfigRequests :
    (sLine.AtRest ∧ sLine.cfgRefused = false ∧ sLine.prov = [] ∧ sLine.dir = [] ∧ (∀ c ∈ sLine.arr, c.anyDirty = false)) ∧
    (sSum.AtRest ∧ sSum.cfgRefused = true) ∧ (sDrained.fclkRuns = true ∧ sDrained.cfgDrained = true) ∧
    (sConfig.Still ∧ sConfig.power.state = .config ∧ sConfig.presc.cfgReq = true ∧ sConfig.cfg.inForce = true ∧
      sConfig.presc.phase = .idle) :=
  ⟨⟨rest_of (by decide +kernel), by decide +kernel⟩, ⟨rest_of (by decide +kernel), by decide +kernel⟩, by decide +kernel,
   still_of (by decide +kernel), by decide +kernel⟩

/-! ### Registers, logs and the measurement lock -/

/-- A slice at rest in a power state. -/
def sIn (st : SliceState) : State := { base with power := { base.power with state := st } }

theorem witness_RegisterAccess :
    base.AtRest ∧ alwaysOn 0x7010 = true ∧ alwaysOn 0x100 = false ∧ alwaysOn 0xFF = true ∧
    ((sIn .sleep).power.rstLow = false ∧ (sIn .sleep).bad = [] ∧ (sIn .sleep).asleep = true ∧ (sIn .sleep).power.sleepPh = .none) :=
  ⟨rest_of (by decide +kernel), by decide +kernel⟩

def sLocked : State := { base with meas := { base.meas with locked := true } }

theorem witness_IdentityAndLogs : ∀ s ∈ [base, sLocked], s.AtRest :=
  fun s hs => rest_of (by revert s; decide +kernel)

/-- The reset state has no lens descriptor, so nothing in it is out of place. -/
theorem settled_of {s : State} (h : s.lens.slots.all (fun l => l.desc.isNone) = true) : s.Settled := by
  intro i hi
  have : (s.lensSlot i).desc.isNone = true := by
    unfold State.lensSlot
    rw [List.getD_eq_getElem?_getD]
    cases hx : s.lens.slots[i]? with
    | none => rfl
    | some l => exact List.all_eq_true.1 h l (List.mem_of_getElem? hx)
  rw [Option.isNone_iff_eq_none] at this
  rw [this] at hi
  cases hi

def nextIs (o : Res) (f : State → Bool) : Bool := match o with | .next t => f t | _ => false

theorem next_of {o : Res} {f : State → Bool} (h : nextIs o f = true) : ∃ t, o = .next t ∧ f t = true := by
  unfold nextIs at h
  split at h
  · exact ⟨_, rfl, h⟩
  · cases h

theorem witness_MeasLockHolds :
    (sLocked.Still ∧ sLocked.meas.locked = true ∧ sLocked.asleep = false ∧ base.Still ∧ base.asleep = false) ∧
    (∃ t, exec .spanWakeI sLocked = .next t ∧ t.meas.locked = true) ∧ sLocked.Settled ∧
    (∀ l ∈ sLocked.lens.slots, l.ghost = false) ∧ sLocked.stagedSlot 255 = true :=
  ⟨⟨still_of (by decide +kernel), by decide +kernel, by decide +kernel, still_of (by decide +kernel), by decide +kernel⟩,
   next_of (by decide +kernel), settled_of (by decide +kernel), by decide +kernel, by decide +kernel⟩

/-! ### Scrubbing, errors, power and sleep -/

theorem witness_ScrubVisits :
    ∀ st ∈ [SliceState.service, .config, .sleep], (sIn st).Still ∧ (sIn st).power.state = st :=
  fun st h => ⟨still_of (by revert st; decide +kernel), by revert st; decide +kernel⟩

theorem witness_FatalEntersRecovery :
    (sBusy.power.rstLow = false ∧ sBusy.asleep = false ∧ sBusy.power.relock = false ∧ sBusy.power.state ≠ .recovery ∧
      sBusy.power.state ≠ .off ∧ sBusy.power.state ≠ .init ∧ sBusy.upsets = [] ∧ sBusy.bad = [] ∧ sBusy.test.inject = none ∧ sBusy.power.held = [] ∧ waitZero ∈ sBusy.waiting ∧ waitZero.tag = none) := by
  decide +kernel

def sRelock : State := { base with power := { base.power with relock := true, nextOp := some 3 } }

theorem witness_PowerAndOperatingPoints :
    (base.drives = true ∧ State.reset.drives = false ∧ base.asleep = false ∧ base.power.relock = false ∧ (sIn .sleep).asleep = true ∧
      sRelock.power.relock = true ∧ base.bad = []) ∧
    (let s := { base with fuses := { base.fuses with pStatic := [20, 20, 20, 20, 20, 20] } }
     1 * 16 < s.estimate [] ∧ s.power.op = 0 ∧ 2 < s.power.duty) ∧
    (let s := { base with power := { base.power with winCnt := 2, winSum := 9000 } }
     0 < s.power.winCnt) ∧
    (5 ≠ base.power.op ∧ base.power.state ≠ .init ∧ base.power.rstLow = false ∧ 2500 ≤ base.power.opAge ∧
      ({ base.power with opAge := 2499 } : Power).opAge < 2500 ∧ (sIn .init).asleep = false ∧ (sIn .init).power.state = .init) ∧
    (State.Still { sRelock with power := { sRelock.power with relock := false } } ∧ sRelock.power.nextOp = some 3 ∧
      sRelock.power.opLate = false ∧ sRelock.reg.owed = false ∧ sRelock.prov = [] ∧ sRelock.heldOut = [] ∧
      ∀ x ∈ sRelock.cue.chans, x.kept = none) :=
  ⟨by decide +kernel, by decide +kernel, by decide +kernel, by decide +kernel, still_of (by decide +kernel), by decide +kernel⟩

def sSleepy (off : Bool) : State :=
  let p : PowerCfg := { sleepEn := true, offEn := off }
  { base with cfg := { cfg0 with power := p }, power := { base.power with sleepOk := true } }

def sEntry (st : SliceState) (ph : SleepPhase) : State := { base with power := { base.power with state := st, sleepPh := ph } }

theorem witness_SleepIsEntered :
    (∀ off ∈ [false, true], (sSleepy off).Still ∧ (sSleepy off).sleepDue = true ∧ (sSleepy off).cfg.power.offEn = off ∧
      (sSleepy off).arr = [] ∧ (sSleepy off).dir = []) ∧
    (sEntry .service .offDrain).fclkRuns = true ∧ (sEntry .service .offDrain).offDrained = true ∧ (sEntry .sleep .committed).power.sleepPh = .committed ∧
    (let s := { sIn .sleep with power := { (sIn .sleep).power with sleepOk := true } }
     s.power.sleepOk = true ∧ s.asleep = true ∧ s.power.sleepPh = .none) := by
  refine ⟨?_, by decide +kernel⟩
  intro off h
  refine ⟨still_of ?_, ?_⟩
  · revert off; decide +kernel
  · revert off; decide +kernel

def sWaking (st : SliceState) (op : Option Nat) : State := { base with power := { base.power with state := st, wakeDue := true, nextOp := op } }

theorem witness_Wakes :
    (∀ st ∈ [SliceState.sleep, .off], ∀ op ∈ [none, some 2], (sWaking st op).Still ∧ (sWaking st op).prov = [] ∧
      (sWaking st op).power.wakeDue = true ∧ (sWaking st op).elog.fatal = false ∧ (∀ x ∈ (sWaking st op).cue.chans, x.kept = none) ∧ (sWaking st op).power.state = st ∧ (sWaking st op).power.nextOp = op) ∧
    (let s := { sIn .sleep with power := { (sIn .sleep).power with straps := { split := true } } }
     s.power.straps.split = true ∧ s.asleep = true ∧ s.power.sleepPh = .none) ∧ base.power.straps.split = false := by
  refine ⟨?_, by decide +kernel⟩
  intro st h op ho
  refine ⟨still_of ?_, ?_⟩
  · revert st op; decide +kernel
  · revert st op; decide +kernel

theorem witness_Resets :
    State.reset.power.rstLow = true ∧ (sIn .init).power.state = .init ∧ (sIn .init).power.rstLow = false ∧ (sIn .init).power.strapErr ≠ 1 := by decide +kernel

/-! ### Test, wrapper and debug -/

theorem witness_TestAndWrapper :
    ((sIn .config).Still ∧ (sIn .config).asleep = false ∧ (sIn .config).meas.locked = false ∧ (sIn .config).power.state = .config ∧
      sLocked.Still ∧ sLocked.asleep = false ∧ sLocked.meas.locked = true ∧ (sIn .test).Still ∧ (sIn .test).asleep = false ∧
      (sIn .test).power.state = .test) ∧
    (bit (BitVec.ofNat 32 5).toNat 2 = true) ∧
    (bit (BitVec.ofNat 32 8).toNat 3 = true ∧ injectOk (BitVec.ofNat 32 8).toNat = true) ∧
    (let s := { sIn .test with test := { base.test with mbRun := true } }
     s.Still ∧ s.power.state = .test ∧ s.test.mbRun = true) ∧
    (base.power.state ≠ .test ∧ WirInstr.ofCode (BitVec.ofNat 5 0x1F).toNat ≠ .fzId) :=
  ⟨⟨still_of (by decide +kernel), by decide +kernel, by decide +kernel, by decide +kernel, still_of (by decide +kernel),
    by decide +kernel, by decide +kernel, still_of (by decide +kernel), by decide +kernel⟩, by decide +kernel, by decide +kernel,
   ⟨still_of (by decide +kernel), by decide +kernel⟩, by decide +kernel⟩

/-! ### The span -/

/-- A split package whose port is in a state. -/
def sSpan (st : SpanState) : State :=
  { base with power := { base.power with straps := { split := true } },
              span := { base.span with st := st, rx := st, width := 16, rxWidth := 16, pairLevel := 2 } }

/-- `CAPS` of a twin in half 1 on the primary die, with the first 8 bytes of Python's HMAC-SHA-384 under an empty key. -/
def caps : Caps := { word0 := 0x3ffff06201, nonce := 5, tag := 0x2188aae2067747c9, myNonce := 9 }

theorem witness_SpanTrains :
    (sSpan .down).detectDue = true ∧
    ((sSpan .align).Still ∧ (sSpan .retrain).Still) ∧
    (widthOf ((sSpan .align).span.rxFailed ||| ~~~(BitVec.ofNat 18 0x3FFFF)) ≠ 0 ∧ (sSpan .align).capsFails caps = [] ∧
      widthOf ((sSpan .align).span.failed ||| ~~~(BitVec.ofNat 18 (bits caps.word0.toNat 37 20))) ≠ 0 ∧
      (sSpan .align).span.st = .align ∧ (sSpan .align).span.replay = []) ∧
    ((sSpan .retrain).capsFails caps = [] ∧ (sSpan .retrain).span.st = .retrain) ∧
    ((sSpan .align).capsFails { caps with tag := 0 } ≠ [] ∧ (sSpan .align).span.relays = []) :=
  ⟨by decide +kernel, ⟨still_of (by decide +kernel), still_of (by decide +kernel)⟩, by decide +kernel⟩

/-- A frame of units whose payload is zero, each with the CRC of 62 zero bytes. -/
def frame0 : SpanFrame := { units := List.replicate 16 (BitVec.ofNat 512 ((crc16 (List.replicate 62 0)).toNat <<< 496)) }

def relay0 : Relay := { tag := 9, agent := 0, port := 0, txid := 1, op := .rdOnce, line := 0x200 }

def sRelay (st : SpanState) (r : Relay) : State := { sSpan st with span := { (sSpan st).span with relays := [r] } }

/-- A record that was sent under sequence number 3 and is not acknowledged. -/
def sReplay : State :=
  { sSpan .active with span := { (sSpan .active).span with replay := [({ seq := 3, ack := 0, kind := 0, credit := [] }, some (.hack 1 false))] } }

theorem witness_SpanFramesAndLanes :
    ((sSpan .active).AtRest ∧ (sSpan .active).span.st = .active ∧ (sSpan .active).span.rx = .active ∧
      (sSpan .active).span.replay.length < 128 ∧ (sSpan .active).span.remap = [] ∧ ((sSpan .active).countUnits frame0).badLanes = [] ∧
      badUnit frame0 = none ∧ bits (headerOf frame0) 15 0 = (sSpan .active).span.rxNext ∧ bits (headerOf frame0) 33 32 = 0 ∧
      frameSlots frame0 (headerOf frame0) = [] ∧ ((sSpan .active).countUnits { units := [1] }).badLanes = [] ∧
      badUnit { units := [1] } = some 0) ∧
    (sReplay.AtRest ∧ sReplay.span.rx = .active ∧ ∀ x ∈ sReplay.span.replay, (3 + 65536 - x.1.seq) % 65536 < 32768) ∧
    ((sSpan .active).span.rxFailed.getLsbD 17 = false ∧ (sSpan .active).span.failed.getLsbD 17 = false ∧
      (sSpan .active).linkUp = true ∧
      4 ≤ (goodLanes ((sSpan .active).span.rxFailed ||| BitVec.ofNat 18 (2 ^ 17))).length ∧
      4 ≤ (goodLanes ((sSpan .active).span.failed ||| BitVec.ofNat 18 (2 ^ 17))).length) ∧
    ((sRelay .down relay0).AtRest ∧ (sRelay .down relay0).prov = [] ∧ (sRelay .down relay0).power.straps.split = true ∧
      (sRelay .down relay0).span.st = .down ∧ (sRelay .down relay0).span.farDown = false ∧
      (sRelay .down relay0).span.relays = [relay0] ∧ relay0.timedOut = false ∧ relay0.ackWait = false ∧
      (sRelay .down relay0).farAgents = []) :=
  ⟨⟨rest_of (by decide +kernel), by decide +kernel⟩, ⟨rest_of (by decide +kernel), by decide +kernel⟩, by decide +kernel,
   rest_of (by decide +kernel), by decide +kernel⟩

/-- The span is one port, and the relay tag the `TXID`. -/
def sHome : State := { sSpan .active with arr := [lineA] }

def sAcked : State := { sSpan .active with txns := [{ qTxn .rdShared q0 with served := true, busy := true, ack := some (0, 7, 1) }] }

theorem witness_SpanRecordsServed :
    (sHome.linkUp = true ∧ sHome.Admits .zeroLine { q0 with port := 0 } ∧ q0.provisional = false ∧ arrWf sHome.arr = true ∧
      sHome.lineOf q0.line = some lineA ∧ sHome.dirAt q0.line = none) ∧
    ((sRelay .active relay0).linkUp = true ∧ (sRelay .active relay0).AtRest ∧ (sRelay .active relay0).prov = [] ∧ (sRelay .active relay0).relayAt 9 = some relay0 ∧
      relay0.timedOut = false) ∧
    ((sSpan .active).AtRest ∧ (sSpan .active).prov = [] ∧ ((sSpan .active).routeOf 0).present = true ∧
      (sSpan .active).freeSnoopId ((sSpan .active).routeOf 0).port = some 0xF00) ∧
    (State.AtRest { sAcked with txns := [] } ∧ sAcked.linkUp = true ∧ sAcked.prov = [] ∧ ∀ x ∈ sAcked.txns, x.served = true ∧ x.ack = some (0, 7, 1)) :=
  ⟨⟨by decide +kernel, admits_of (by decide +kernel), by decide +kernel⟩, ⟨by decide +kernel, rest_of (by decide +kernel), by decide +kernel⟩,
   ⟨rest_of (by decide +kernel), by decide +kernel⟩, rest_of (by decide +kernel), by decide +kernel⟩

/-- A mirrored lens in slot 0, filled and verified. -/
def mirrorDesc : Desc := { slot := 0, base := 0, size := 1, pers := 1, quota := 64, readOnly := true, mirror := true }

def sMirror : State :=
  let s := withLens mirrorDesc (sSpan .active)
  { s with cfg := { s.cfg with mirror := [{ slot := 0, fill := true, verify := true }] },
           lens := { s.lens with slots := s.lens.slots.modify 0 fun l => { l with unverified := true } } }

theorem witness_MirrorRecords :
    ((sSpan .active).AtRest ∧ (sSpan .active).linkUp = true ∧ (sSpan .active).mirrored 0x200 = false) ∧
    (sMirror.AtRest ∧ sMirror.linkUp = true ∧ sMirror.mirrored 0x200 = true ∧ sMirror.homed 0x200 = true ∧ sMirror.dirAt 0x200 = none ∧
      sMirror.dirPlace (setOf 0x200) = .free 0 ∧ sMirror.dir = []) ∧
    (sMirror.arr = [] ∧ sMirror.prov = [] ∧ sMirror.fillOk 0x200 = true ∧
      sMirror.place 0x200 (sMirror.descOf (sMirror.lensAt (0x200 * 128))).part (sMirror.lensAt (0x200 * 128)) = .way 1 2 none [] false) ∧
    (0 < sMirror.lens.slots.length ∧ sMirror.verifies 0 (sMirror.lensSlot 0) = true ∧ (sMirror.lensSlot 0).unverified = true ∧
      (sMirror.lensSlot 0).desc = some mirrorDesc) :=
  ⟨⟨rest_of (by decide +kernel), by decide +kernel⟩, ⟨rest_of (by decide +kernel), by decide +kernel⟩, by decide +kernel⟩

/-! ### The queue and the invariants -/

theorem witness_StepRunsFront : ({ base with pending := [.spanWakeI, .coldReset] } : State).pending = [.spanWakeI, .coldReset] ∧
    base.pending = [] := by decide +kernel

theorem shaped_of_base : base.Shaped := by constructor <;> decide +kernel

theorem witness_EveryStep :
    (∃ t, step sLine = .next t ∧ t.arr = [lineA]) ∧ sLine.InForm ∧ base.Shaped :=
  ⟨⟨_, rfl, by decide +kernel⟩, ⟨by decide +kernel, by decide +kernel, by decide +kernel⟩, shaped_of_base⟩
/-! ### Ill-formed commands -/

/-- One command for each check of `Instr.wf` on a request, a flit or a record; each is refused. -/
theorem test_wf_refuses_flits :
    ∀ i ∈ [Instr.rdOnce { q0 with port := 8 }, .rdShared { q0 with agent := 1024 }, .rdUnique { q0 with txid := 4096 },
      .upgrade { q0 with addr := 2 ^ 52 }, .wrFull { q0 with size := 8 }, .wrPartial { q0 with part := 16 },
      .zeroLine { q0 with tint := 16 }, .append { q0 with scope := 8 }, .confirm { q0 with reserved := 2 ^ 21 },
      .accumulate { q0 with dat := [{ sector := 2, data := 0 }] }, .rdFused { q0 with dat := [{ sector := 0, data := 0, reserved := 256 }] },
      .winArrive { q0 with dat := one 1 ++ one 1 }, .winFold { q0 with dat := two 0 0 ++ one 1 },
      .reservedOpcodeRequest 0x10 q0, .reservedOpcodeRequest 256 q0,
      .datInData 8 0 { sector := 0, data := 0 }, .datInData 0 4096 { sector := 0, data := 0 },
      .snoopResponse { port := 8, id := 0, code := 0 }, .snpInflight { port := 0, id := 4096, code := 6 },
      .compAck { port := 0, id := 0, code := 8 }, .compAck { port := 0, id := 0, code := 0, notice := 4 }, .snoopData 8 0 [],
      .snoopData 0 4096 [], .sendWaitingSnoop 9, .memReadData { port := 4, mtag := 0, sector := 0 },
      .memReadData { port := 0, mtag := 4096, sector := 0 }, .tdcFetchComplete { port := 0, mtag := 0, sector := 2 }, .wack 4 0 0,
      .wack 0 4096 0, .agentDown 1024, .provDeadline 8 0, .watchdogTimeout 0 4096, .appendSpillComplete 8 0,
      .spanReqRecord (.other 1) q0, .spanReqRecord (.other 256) q0, .spanRspRecord 4096 0 0 false [] false,
      .spanRspRecord 0 16 0 false [] false, .spanRspRecord 0 0 4 false [] false, .spanSnpRecord 16 0 0 0,
      .spanSnpRecord 0 (2 ^ 45) 0 0, .spanSnpRecord 0 0 4096 0, .spanSnpRecord 0 0 0 1024, .spanSnrRecord 8 0 0 false [],
      .spanSnrRecord 0 4096 0 false [], .spanSnrRecord 0 0 4 false [], .hrec (2 ^ 45) 0 0, .hrec 0 1024 0, .hrec 0 0 4096,
      .hack 4096 false, .fill (2 ^ 45) 0 [], .fill 0 256 [], .ver 256 0 0 0, .spanFrame { units := [] }, .spanNak 65536,
      .laneFailure 18, .retire 18 0, .retire 0 65536, .fabCreditReturn 8 0 0 0, .memCreditReturn 4 0 0],
    i.wf = false := by decide +kernel

/-- The same for the commands of registers, mailboxes, pins and events. -/
theorem test_wf_refuses_rest :
    ∀ i ∈ [Instr.flushRange { window := some 16 }, .lensSwap { srcPart := 16 }, .cuePost { seq := 256 }, .tileFill { resv := 2 ^ 49 },
      .unpin { args := List.replicate 9 0 }, .tdcPreload { part := 16, addr := 0 }, .tdcUnlock { part := 0, srcPart := 16 },
      .tdcWrite { part := 0, kind := 2 }, .tdcInvalAddr { part := 0, addr := 2 ^ 52 }, .tdcInvalPart { part := 0, resv := 2 ^ 64 },
      .cueBeat 16 0 0 0, .cueBeat 0 16 0 0, .actionComplete 512, .cueLagLimit 16, .cueWatchdog 16, .armSlot { part := 16 } none [],
      .armSlot {} (some 16) [], .armSlot {} none (List.replicate 9 0), .disarmSlot {} none 512, .urgChange 16 0, .urgChange 0 4,
      .walkComplete (some 16), .rangeOpComplete (some 16), .armComplete 64, .windowDrained 64, .finaliseComplete 64, .foldComplete 64,
      .collectComplete 64, .thrashWindowEnd 16, .tdcChangeComplete 16, .handoverReleaseComplete 1024, .xltDescWrite {} 16 0, .fqOvf 8,
      .fqConsWrite { part := 16 } 0, .pkgIdentWrite { part := 16 } 0, .prescGo { part := 16 }, .shadowEditInsert {} 256,
      .shadowEditRemove { part := 16 } 0, .elogClear {} 32, .registerWrite {} 4 0, .registerWrite {} 65536 0, .csrpReadInSleep {} 1,
      .configWordCheck 65536 0, .powerEstimate [] 4096, .powerEstimate (List.replicate 25 0) 0, .wsBypass { code := 0x10 }, .opChange 8, .resetRelease { index := 64 } 0,
      .resetRelease { half := 2 } 0, .resetRelease {} 8, .mirrorMismatch 256, .dbgSelChange 8, .testReq { part := 16 },
      .mbistComplete false 64 0, .mbistComplete false 0 65536],
    i.wf = false := by decide +kernel

/-- Operands at the ends of their ranges are well-formed. -/
theorem test_wf_admits :
    ∀ i ∈ [Instr.wrFull { port := 7, agent := 1023, txid := 4095, addr := 2 ^ 52 - 128, size := 7, part := 15, tint := 15, dat := two 1 2 },
      .reservedOpcodeRequest 0x0E q0, .reservedOpcodeRequest 0xFF q0, .urgChange 15 3, .fqOvf 7, .sendWaitingSnoop 8,
      .registerWrite {} 0xFFF8 0, .flushRange { window := some 15, args := List.replicate 8 0 }, .resetRelease { index := 63 } 5],
    i.wf = true := by decide +kernel

/-! ### Values worked out from the spec -/

/-- Does the step send the flit? -/
def sendsB (f : Out) : Host.Outcome State Fault Refusal → Bool
  | .next t => t.out.contains f || t.heldOut.any (·.flit == f)
  | _ => false

/-- R55, R65: one bit of the address at a time: bit 7 is bit 0 of the bucket and of the set; bit 17 is bit 0 of the bucket again,
bit 23 is bit 0 of the set again, and bit 47 is bit 0 of the bucket. -/
theorem test_hashes :
    (List.map bucketOf [1, 2 ^ 10, 2 ^ 40, 2 ^ 44, 3 * 2 ^ 9] = [1, 1, 1, 16, 512 + 1]) ∧
    (List.map Machine.setOf [1, 2 ^ 16, 2 ^ 32, 2 ^ 44, 2 ^ 15 + 2 ^ 16] = [1, 1, 1, 4096, 2 ^ 15 + 1]) := by decide +kernel

/-- R371, R316, R326: the values reset gives: `SPEC_CTL`, the forward watchdog, the LFSR of the TDC, and `FQ_HOLD`. -/
theorem test_reset_values :
    State.reset.regs.specCtl = 0xFFFF ∧ State.reset.regs.fwdWd = 100000 ∧ State.reset.xlt.lfsr = 0xACE1 ∧
      State.reset.xlt.fqHold = 50000 ∧ State.reset.pending = [] := by decide +kernel

/-- R93, R160: a read of a cached line answers with its first sector and `DONE`. -/
theorem test_rdOnce_hit :
    sendsB (.rsp 0 1 .done 0 false false) (exec (.rdOnce { q0 with size := 6 }) sLine) = true ∧
      sendsB (.dat 0 1 0 5 false false true) (exec (.rdOnce { q0 with size := 6 }) sLine) = true := by decide +kernel

/-- R219: `AT_ADD` of 32 bits wraps in its element and leaves the neighbour alone. -/
theorem test_atAdd_wraps :
    atCompute .atAdd 0 2 0xFFFFFFFF 2 0 = 1 ∧ setBytes 0xAAAAAAAA00000000 0 4 1 = (0xAAAAAAAA00000001 : Sector) := by
  decide +kernel

/-- R16: a reserved opcode is aborted. -/
theorem test_reserved_opcode : sendsB (.rsp 0 1 .aborted 0 false false) (exec (.reservedOpcodeRequest 0xFF q0) base) = true := by
  decide +kernel

/-- R261, R268: a beat raises the channel's count. -/
theorem test_beat_applies :
    (match exec (.cueBeat 0 3 6 0) { base with cue := { base.cue with chans := base.cue.chans.set 3 { cfg := { en := true } } } } with
      | .next t => (t.cue.chans.getD 3 {}).applied
      | _ => 0) = 6 := by decide +kernel

end Sys2Proof.Tests
end

section
/-! Proofs about the ports, the straps, the power unit and the wrapper (sitting 1): the end of a meaning, the events that find
nothing in progress, and the statements O20, O27, O28, O43, O44, O48, O50, O51 and O52. -/

namespace Sys2Proof.Machine
open Sys2Proof

/-! ### The end of a meaning -/

/-- R476: outside `TEST` and `RECOVERY` no counter watches the debug port. -/
theorem State.debugRuns_false {s : State} (h1 : s.power.state ≠ .test) (h2 : s.power.state ≠ .recovery) : s.debugRuns = false := by
  simp [State.debugRuns, h1, h2]

/-- R476: in reset no counter watches the debug port. -/
theorem State.debugRuns_reset {s : State} (h : s.power.rstLow = true) : s.debugRuns = false := by
  simp [State.debugRuns, State.fclkRuns, h]

/-- A meaning ends with its slots settled where no counter watches the debug port. -/
theorem finish_of_debugRuns {s : State} (h : s.debugRuns = false) : finish s = .next s.settle := by
  unfold finish
  rw [State.edges_id s.settle h]

/-- R449, R476: a counter in edge mode without a parity error logs nothing. -/
theorem State.edge_fold_calm (l : List Nat) : ∀ s : State, s.bad = [] → (l.foldl (fun t i => t.edge i) s).elog = s.elog := by
  induction l with
  | nil => exact fun _ _ => rfl
  | cons i l ih =>
    intro s h
    have he : s.edge i = { s with ctr := s.ctr.modify i (· + 1) } := by simp [State.edge, State.ctrParity, h]
    rw [List.foldl_cons, he]
    exact ih _ h

theorem State.edges_elog_calm (s : State) (h : s.bad = []) : s.edges.elog = s.elog := by
  unfold State.edges
  dsimp only
  split
  · rfl
  · exact State.edge_fold_calm _ s h

/-! ### Power estimates (R431 to R434) -/

/-- R431, R434: the power unit after an estimate is formed under a cap. -/
def State.estimated (given : List Nat) (cap : Nat) (s : State) : Power :=
  let p := { s.power with cap := cap, est := s.estimate given, winSum := s.power.winSum + s.estimate given,
                          winCnt := s.power.winCnt + 1 }
  if s.asleep || p.relock then p else p.adjust (s.estimate given)

/-- With no parity error an estimate writes the power unit, the activity counts and what a count writes. -/
theorem State.powerEstimate_calm (given : List Nat) (cap : Nat) (s : State) (h : s.bad = []) :
    ∃ a c g, s.powerEstimate given cap = { s with power := s.estimated given cap, acts := a, ctr := c, sig := g } := by
  let u : State := { s with power := s.estimated given cap, acts := List.replicate 24 0 }
  show ∃ a c g, (if (s.estimated given cap).capUnreach && !s.power.capUnreach then u.count Ev.capUnreachable none else u) = _
  split
  · rw [State.count, State.countN_calm _ _ _ u h]
    exact ⟨_, _, _, rfl⟩
  · exact ⟨_, _, _, rfl⟩

/-- The adjustment of the duty writes the duty and its counts of intervals. -/
theorem Power.adjust_shape (p : Power) (e : Nat) :
    ∃ d c o u, p.adjust e = { p with duty := d, capUnreach := c, overRun := o, underRun := u } := by
  unfold Power.adjust
  dsimp only
  repeat' split
  all_goals exact ⟨_, _, _, _, rfl⟩

/-- R433: without a cap, or away from OP0, the duty is 8. -/
theorem Power.adjust_free {p : Power} (e : Nat) (h : p.cap = 0 ∨ p.op ≠ 0) : (p.adjust e).duty = 8 := by
  have hc : (p.cap == 0 || p.op != 0) = true := by simpa using h
  unfold Power.adjust
  rw [if_pos hc]

/-- R434: an estimate above the cap lowers a duty above 2 by one. -/
theorem Power.adjust_over {p : Power} {e : Nat} (hc : p.cap ≠ 0) (ho : p.op = 0) (he : p.cap * 16 < e) (hd : 2 < p.duty) :
    (p.adjust e).duty = p.duty - 1 := by
  simp [Power.adjust, hc, ho, he, hd]

/-- What an estimate leaves of the power unit, and what it sets, whatever it does to the duty. -/
theorem State.estimated_fields (given : List Nat) (cap : Nat) (s : State) :
    (s.estimated given cap).est = s.estimate given ∧ (s.estimated given cap).cap = cap ∧
    (s.estimated given cap).winSum = s.power.winSum + s.estimate given ∧ (s.estimated given cap).winCnt = s.power.winCnt + 1 ∧
    (s.estimated given cap).state = s.power.state := by
  unfold State.estimated
  dsimp only
  split
  · exact ⟨rfl, rfl, rfl, rfl, rfl⟩
  · generalize hp : Power.adjust _ _ = p
    obtain ⟨d, c, o, u, h⟩ := Power.adjust_shape { s.power with
      cap := cap, est := s.estimate given, winSum := s.power.winSum + s.estimate given, winCnt := s.power.winCnt + 1 } (s.estimate given)
    rw [hp] at h
    subst h
    exact ⟨rfl, rfl, rfl, rfl, rfl⟩

/-- R436: a slice at rest or in a relock keeps its duty. -/
theorem State.estimated_duty_kept {s : State} (given : List Nat) (cap : Nat) (h : s.asleep = true ∨ s.power.relock = true) :
    (s.estimated given cap).duty = s.power.duty := by
  have hc : (s.asleep || s.power.relock) = true := by simpa using h
  simp [State.estimated, hc]

/-- R434: a running slice adjusts its duty. -/
theorem State.estimated_adjusts {s : State} (given : List Nat) (cap : Nat) (h1 : s.asleep = false) (h2 : s.power.relock = false) :
    s.estimated given cap = Power.adjust { s.power with
      cap := cap, est := s.estimate given, winSum := s.power.winSum + s.estimate given,
      winCnt := s.power.winCnt + 1 } (s.estimate given) := by
  simp [State.estimated, h1, h2]

/-- R432: the fixed estimates of a slice at rest. -/
theorem State.estimate_asleep {s : State} (given : List Nat) (h : s.asleep = true) :
    s.estimate given = if s.power.state = .sleep then 922 else 51 := by
  by_cases hs : s.power.state = .sleep <;> simp [State.estimate, hs, h]

/-- R431 to R434, R436: an estimate in a slice that drives its outputs. -/
theorem exec_powerEstimate (s : State) (activity : List Nat) (cap : Nat) (hd : s.drives = true) (hb : s.bad = []) :
    ∃ t, exec (.powerEstimate activity cap) s = .next t ∧ t.power = s.estimated activity cap ∧
      t.arr = s.arr ∧ t.dir = s.dir ∧ t.wins = s.wins ∧ t.cfg = s.cfg ∧ t.elog = s.elog := by
  obtain ⟨a, c, g, h⟩ := State.powerEstimate_calm activity cap s.fresh0 hb
  have he : exec (.powerEstimate activity cap) s = finish (s.fresh0.powerEstimate activity cap) := by
    show finish (if s.drives then _ else _) = _
    rw [if_pos hd]
  rw [he, h]
  refine ⟨_, rfl, ?_⟩
  simp only [State.edges_power, State.edges_arr, State.edges_dir, State.edges_wins, State.edges_cfg]
  exact ⟨rfl, rfl, rfl, rfl, rfl, State.edges_elog_calm _ hb⟩

/-- R54: in reset and in `INIT` no estimate is formed. -/
theorem exec_powerEstimate_quiet (s : State) (activity : List Nat) (cap : Nat) (hd : s.drives = false) :
    exec (.powerEstimate activity cap) s = .next s.fresh0.settle := by
  have hr : s.fresh0.debugRuns = false := by
    by_cases h : s.power.rstLow = true
    · exact State.debugRuns_reset h
    · have hi : s.power.state = .init := by simpa [State.drives, h] using hd
      exact State.debugRuns_false (by simp [hi]) (by simp [hi])
  show finish (if s.drives then _ else _) = _
  rw [hd, if_neg (by decide), finish_of_debugRuns hr]

/-! ### Power windows and operating points (R417, R419, R471) -/

/-- R471: the end of a window with at least one estimate. -/
theorem exec_powerWindow (s : State) (h : 0 < s.power.winCnt) :
    exec .powerWindow s = finish { s.fresh0 with
      power := { s.power with winSum := 0, winCnt := 0 },
      pws := s.pws.map fun w => { w with pwrView := 1024 * (s.power.winSum / (1024 * s.power.winCnt)) } } := by
  show finish s.fresh0.powerWindow = _
  simp [State.powerWindow, windowView, h.ne']

/-- R417, R419: a change of operating point writes the power unit only. -/
theorem exec_opChange {s : State} {op : Nat} {p : Power} (h : s.fresh0.opChange op = { s.fresh0 with power := p }) :
    ∃ t, exec (.opChange op) s = .next t ∧ t.power = p ∧ t.out = [] ∧ t.arr = s.arr ∧ t.dir = s.dir ∧ t.wins = s.wins ∧
      t.cfg = s.cfg := by
  have he : exec (.opChange op) s = finish { s.fresh0 with power := p } := by rw [← h]; rfl
  exact ⟨_, he, by simp⟩

/-- R417: a point that may change now begins a relock. -/
theorem State.opChange_begins {s : State} {op : Nat} (hr : s.power.rstLow = false) (h6 : op < 6) (hne : op ≠ s.power.op)
    (ha : s.asleep = false) (hi : s.power.state ≠ .init) (hl : s.power.relock = false) (hg : 2500 ≤ s.power.opAge) :
    s.opChange op = { s with power := { s.power with opWire := op, opLate := false, relock := true, nextOp := some op, opAge := 0 } } := by
  simp [State.opChange, State.opDue, hr, h6, hne, ha, hi, hl, Nat.not_lt.2 hg]

/-- R419: a point that comes too early, in `INIT` or in a relock waits. -/
theorem State.opChange_waits {s : State} {op : Nat} (hr : s.power.rstLow = false) (ha : s.asleep = false)
    (hw : s.power.state = .init ∨ s.power.relock = true ∨ s.power.opAge < 2500) :
    s.opChange op = { s with power := { s.power with opWire := op, opLate := true } } := by
  have hc : (s.power.state == .init || s.power.relock || decide (s.power.opAge < 2500)) = true := by
    simpa [or_assoc] using hw
  simp only [State.opChange, hr, ha, hc, Bool.false_eq_true, if_false, if_true]

/-- R419: a slice at rest records the point. -/
theorem State.opChange_asleep {s : State} {op : Nat} (hr : s.power.rstLow = false) (h6 : op < 6) (hne : op ≠ s.power.op)
    (ha : s.asleep = true) : s.opChange op = { s with power := { s.power with opWire := op, nextOp := some op } } := by
  simp [State.opChange, hr, ha, hne, Nat.not_le.2 h6]

/-! ### Events that find nothing in progress -/

/-- R24: with no flit held nothing leaves. -/
theorem State.flush_calm {s : State} (h : s.heldOut = []) : s.flush = s := by
  unfold State.flush
  rw [h, List.foldl_nil, ← h]

/-- R32: with no memory request waiting nothing leaves. -/
theorem State.memFlush_calm {s : State} (h : s.memWait = []) : s.memFlush = s := by
  simp [State.memFlush, h, State.memDrain]

/-- R405: with no record waiting nothing leaves. -/
theorem State.spanFlush_calm {s : State} (h : s.span.waitTx = []) : s.spanFlush = s := by
  simp [State.spanFlush, h, State.spanDrain]

/-- With no transaction no line goes on. -/
theorem State.pumpAll_calm {s : State} (h : s.txns = []) : s.pumpAll = s := by
  simp [State.pumpAll, h]

/-- With no walk and no range command none goes on. -/
theorem State.walksGo_calm {s : State} (h1 : s.walks = []) (h2 : s.ranges = []) : s.walksGo = s := by
  simp [State.walksGo, h1, h2]

/-- R418, R430: with no arrival kept none is served. -/
theorem State.replayAll_calm {s : State} (h : s.power.held = []) : s.replayAll = s := by
  unfold State.replayAll
  rw [h, List.foldl_nil, ← h]

/-- R299: in a slice with nothing in progress a grant lets nothing go on. -/
theorem State.Still.granted {s : State} (h : s.Still) (hp : s.prov = []) : s.granted = s := by
  unfold State.granted
  rw [State.memFlush_calm h.ports, State.spanFlush_calm h.records, State.pumpAll_calm h.txns,
    State.walksGo_calm h.walks h.ranges, h.tidy hp]

/-- R273: slots that were due before stay as they are. -/
theorem State.dueSorted_length (s : State) : s.dueSorted s.cue.due.length = s := by
  simp [State.dueSorted]

/-- R36, R418: with no count kept none is applied. -/
theorem State.applyKept_calm {s : State} (h : ∀ x ∈ s.cue.chans, x.kept = none) : s.applyKept = s := by
  unfold State.applyKept
  rw [foldl_id _ _ s fun c _ => ?_, State.dueSorted_length]
  have hk : (s.chan c).kept = none := by
    unfold State.chan
    rw [List.getD_eq_getElem?_getD]
    cases hc : s.cue.chans[c]? with
    | none => rfl
    | some x => exact h x (List.mem_of_getElem? hc)
  rw [hk]

/-- The flit of a wire or of a register answer leaves at once. -/
theorem State.emit_wire {f : Out} (h : f.chan = none) (s : State) :
    s.emit f = { s with out := s.out ++ [f], sig := f.sigs (s.flitPart f) ++ s.sig } := by
  simp [State.emit, State.emitOf, h]

/-- R417, R419: the recorded point comes into force. -/
theorem State.takeOp_some {s : State} {op : Nat} (h : s.power.nextOp = some op) :
    s.takeOp = State.emit .pwrcAck { s with power := { s.power with op := op, nextOp := none } } := by
  simp [State.takeOp, h]

/-- R417, R419: the end of a relock in a slice with nothing else in progress. -/
theorem State.relockDone_calm {s : State} {op : Nat} (hs : State.Still { s with power := { s.power with relock := false } })
    (hn : s.power.nextOp = some op) (hl : s.power.opLate = false) (ho : s.reg.owed = false) (hp : s.prov = [])
    (hh : s.heldOut = []) (hk : ∀ x ∈ s.cue.chans, x.kept = none) :
    s.relockDone = State.emit .pwrcAck { s with power := { s.power with relock := false, op := op, nextOp := none } } := by
  have e1 : State.takeOp { s with power := { s.power with relock := false } } =
      State.emit .pwrcAck { s with power := { s.power with relock := false, op := op, nextOp := none } } :=
    State.takeOp_some (s := { s with power := { s.power with relock := false } }) hn
  rw [State.emit_wire rfl] at e1 ⊢
  unfold State.relockDone
  rw [e1]
  generalize hu : ({ s with power := { s.power with relock := false, op := op, nextOp := none },
                            out := s.out ++ [Out.pwrcAck],
                            sig := Out.pwrcAck.sigs (State.flitPart _ Out.pwrcAck) ++ s.sig } : State) = u
  have hus : u.Still := by
    rw [← hu]
    exact ⟨hs.txns, hs.holders, hs.buckets, hs.after, hs.config, hs.phase, hs.resilver, rfl, hs.reset, hs.waiting, hs.mrs,
      hs.down, hs.listed, hs.hold, hs.walks, hs.ranges, hs.folds, hs.ports, hs.posts, hs.records, hs.held, hs.inject, hs.upsets,
      hs.bad⟩
  have hup : u.prov = [] := by rw [← hu]; exact hp
  have huh : u.heldOut = [] := by rw [← hu]; exact hh
  have huo : u.reg.owed = false := by rw [← hu]; exact ho
  have hul : u.power.opLate = false := by rw [← hu]; exact hl
  have huk : u.applyKept = u := State.applyKept_calm (by rw [← hu]; exact hk)
  simp only [huk, ite_self, State.flush_calm huh, State.replayAll_calm hus.held, huo, Bool.false_and, Bool.false_eq_true,
    if_false, hus.granted hup, hul]

theorem exec_relockComplete {s : State} {op : Nat} (hs : State.Still { s with power := { s.power with relock := false } })
    (hr : s.power.relock = true) (hn : s.power.nextOp = some op) (hl : s.power.opLate = false) (ho : s.reg.owed = false)
    (hp : s.prov = []) (hh : s.heldOut = []) (hk : ∀ x ∈ s.cue.chans, x.kept = none) :
    exec .relockComplete s = finish
      (State.emit .pwrcAck { s.fresh0 with power := { s.power with relock := false, op := op, nextOp := none } }) := by
  have hs0 : State.Still { s.fresh0 with power := { s.fresh0.power with relock := false } } :=
    ⟨hs.txns, hs.holders, hs.buckets, hs.after, hs.config, hs.phase, hs.resilver, rfl, hs.reset, hs.waiting, hs.mrs, hs.down,
      hs.listed, hs.hold, hs.walks, hs.ranges, hs.folds, hs.ports, hs.posts, hs.records, hs.held, hs.inject, hs.upsets, hs.bad⟩
  show (if s.power.relock then _ else _) = _
  rw [hr, if_pos rfl, State.relockDone_calm hs0 hn hl ho hp hh hk]
  rfl

end Sys2Proof.Machine

open Sys2Proof Sys2Proof.Machine

/-- Settles O48: an estimate writes the power unit as `State.estimated` says, and a relock's end finds nothing to let go on. -/
theorem powerAndOperatingPoints : Obligations.PowerAndOperatingPoints := by
  refine ⟨fun s activity cap hd hb => ?_, fun s activity cap hd => ?_, fun s h => ?_, fun s op hr h6 hne => ⟨?_, ?_, ?_⟩,
    fun s op hs hr hn hl ho hp hh hk => ?_⟩
  · obtain ⟨t, he, hpow, hfr⟩ := exec_powerEstimate s activity cap hd hb
    obtain ⟨hest, hcap, hsum, hcnt, hst⟩ := State.estimated_fields activity cap s
    refine ⟨t, he, ?_⟩
    rw [hpow]
    refine ⟨hest, hcap, hsum, hcnt, hst, fun ha => ⟨?_, State.estimated_duty_kept _ _ (.inl ha)⟩,
      fun hl => State.estimated_duty_kept _ _ (.inr hl), fun ha hl => ?_, hfr⟩
    · rw [hest, State.estimate_asleep activity ha]
    · rw [State.estimated_adjusts activity cap ha hl]
      exact ⟨fun hf => Power.adjust_free _ hf, fun hc ho hover hd => Power.adjust_over hc ho hover hd⟩
  · exact ⟨_, exec_powerEstimate_quiet s activity cap hd, rfl, rfl, rfl, rfl, rfl, rfl⟩
  · rw [exec_powerWindow s h]
    exact ⟨_, rfl, by simp⟩
  · exact fun ha hi hl hg => exec_opChange (State.opChange_begins (s := s.fresh0) hr h6 hne ha hi hl hg)
  · exact fun ha hw => exec_opChange (State.opChange_waits (s := s.fresh0) hr ha hw)
  · exact fun ha => exec_opChange (State.opChange_asleep (s := s.fresh0) hr h6 hne ha)
  · rw [exec_relockComplete hs hr hn hl ho hp hh hk, State.emit_wire rfl]
    exact ⟨_, rfl, by simp⟩

end

section
namespace Sys2Proof.Machine
open Sys2Proof

/-! ### Register accesses (R41, R42, R366) -/

/-- The answer to a register access leaves at once. -/
theorem State.csrp_eq (e : Err) (d : Word) (s : State) : s.csrp e d = { s with out := s.out ++ [.csrp e d] } :=
  (State.emit_wire rfl s).trans rfl

/-- R422: what a register access that is served changes before it acts. -/
theorem State.AtRest.csrGate {s : State} (h : s.AtRest) (i : Instr) (act : State → State) :
    s.fresh0.csrGate i act = act { s.fresh0 with power := { s.power with scrubWake := false, idle := 0 } } := by
  have ha : s.asleep = false := by simp [State.asleep, h.service]
  have hg : s.fresh0.csrGate i act = act s.fresh0.wakeUp.notIdle := by
    show (if s.power.rstLow then _ else if s.asleep then _ else if s.power.relock then _ else _) = _
    rw [h.reset, ha, h.clock]
    rfl
  rw [hg]
  congr 1
  show State.notIdle (if s.asleep then _ else if s.power.sleepPh == .offDrain then _ else _) = _
  rw [ha, h.phase]
  rfl

/-- R41: a register of the always-on blocks is reached outside reset. -/
theorem State.onGate_alwaysOn {s : State} {o : Nat} (ho : alwaysOn o = true) (hr : s.power.rstLow = false) (i : Instr)
    (act : State → State) : s.onGate i o act = act s := by
  simp [State.onGate, ho, hr]

/-- Any other register meets the gate of register accesses. -/
theorem State.onGate_gated {o : Nat} (ho : alwaysOn o = false) (s : State) (i : Instr) (act : State → State) :
    s.onGate i o act = s.csrGate i act := by
  simp [State.onGate, ho]

/-- The end of a meaning in `SERVICE`. -/
theorem finish_of_service {s : State} (h : s.power.state = .service) : finish s = .next s.settle :=
  finish_of_debugRuns (State.debugRuns_false (by simp [h]) (by simp [h]))

/-- A management write acts in a slice at rest. -/
theorem State.AtRest.mgmtWrite {s : State} (h : s.AtRest) (i : Instr) {src : Csrp} (hm : src.mgmt = true) (act : State → State) :
    mgmtWrite i src act s = finish (act { s.fresh0 with power := { s.power with scrubWake := false, idle := 0 } }) := by
  unfold Sys2Proof.Machine.mgmtWrite
  rw [h.csrGate, hm, if_pos rfl]

/-- R42: what a refused access leaves: its answer, and everything else but the idle count as it was. -/
structure State.Denied (s t : State) : Prop where
  out : t.out = [.csrp .partitionAccess 0]
  regs : t.regs = s.regs
  xlt : t.xlt = s.xlt
  hot : t.hot = s.hot
  presc : t.presc = s.presc
  meas : t.meas = s.meas
  elog : t.elog = s.elog
  cfg : t.cfg = s.cfg
  pws : t.pws = s.pws
  mbs : t.mbs = s.mbs
  arr : t.arr = s.arr
  dir : t.dir = s.dir
  wins : t.wins = s.wins
  state : t.power.state = s.power.state
  drain : t.power.cfgDrain = s.power.cfgDrain

/-- R42: without `MGMT` a management write is refused. -/
theorem State.AtRest.mgmtWrite_denied {s : State} (h : s.AtRest) (i : Instr) {src : Csrp} (hm : src.mgmt = false)
    (act : State → State) : ∃ t, Sys2Proof.Machine.mgmtWrite i src act s = .next t ∧ s.Denied t := by
  have he : Sys2Proof.Machine.mgmtWrite i src act s =
      finish (State.csrp .partitionAccess 0 { s.fresh0 with power := { s.power with scrubWake := false, idle := 0 } }) := by
    unfold Sys2Proof.Machine.mgmtWrite
    rw [h.csrGate, hm, if_neg (by decide)]
  rw [he, State.csrp_eq, finish_of_service (by exact h.service)]
  exact ⟨_, rfl, rfl, rfl, rfl, rfl, rfl, rfl, rfl, rfl, rfl, rfl, rfl, rfl, rfl, rfl, rfl⟩

/-- R42: the same of `MEAS_LOCK`, which is always on. -/
theorem State.AtRest.measLock_denied {s : State} (h : s.AtRest) {src : Csrp} (hm : src.mgmt = false) :
    ∃ t, exec (.measLock src) s = .next t ∧ s.Denied t := by
  have he : exec (.measLock src) s = finish (s.fresh0.csrp .partitionAccess 0) := by
    show finish (s.fresh0.onGate _ 0xE008 _) = _
    rw [State.onGate_alwaysOn (by decide) (by exact h.reset), hm, if_neg (by decide)]
  rw [he, State.csrp_eq, finish_of_service (by exact h.service)]
  exact ⟨_, rfl, rfl, rfl, rfl, rfl, rfl, rfl, rfl, rfl, rfl, rfl, rfl, rfl, rfl, rfl, rfl⟩

/-- R366, R370: a write of `STATUS`. -/
theorem State.csrpWrite_status {src : Csrp} (hm : src.mgmt = true) (v : Word) (s : State) :
    s.csrpWrite src 0x18 v =
      State.csrp .ok 0 { s with regs := { s.regs with status := s.regs.status &&& ~~~(BitVec.ofNat 4 v.toNat) } } := by
  simp [State.csrpWrite, winAt, hm, State.readMgmt, State.readIdent, State.writeMgmt]

/-- R366, R371: a write of `SPEC_CTL`. -/
theorem State.csrpWrite_specCtl {src : Csrp} (hm : src.mgmt = true) (v : Word) (s : State) :
    s.csrpWrite src 0x108 v =
      State.csrp .ok 0 { s with regs := { s.regs with specCtl := BitVec.ofNat 16 v.toNat } } := by
  simp [State.csrpWrite, winAt, hm, State.readMgmt, State.readGlobal, State.writeMgmt, State.writeGlobal]

/-- R366, R369: offset `0x20` names no register. -/
theorem State.csrpWrite_noRegister {src : Csrp} (hm : src.mgmt = true) (v : Word) (s : State) :
    s.csrpWrite src 0x20 v = s.csrp .fieldRange 0 := by
  simp [State.csrpWrite, winAt, hm, State.readMgmt, State.readIdent]

/-- A register write whose effect is an answer and new registers of the global blocks, in a slice at rest: the frame. -/
theorem State.AtRest.registerWrite_regs {s : State} (h : s.AtRest) {src : Csrp} {o : Nat} {v : Word} {e : Err} {r : Regs}
    (hw : ∀ t : State, t.regs = s.regs → t.csrpWrite src o v = State.csrp e 0 { t with regs := r }) :
    ∃ t, exec (.registerWrite src o v) s = .next t ∧ t.Sends (.csrp e 0) ∧ t.regs = r ∧ t.arr = s.arr ∧ t.wins = s.wins ∧
      t.cfg = s.cfg ∧ t.pws = s.pws := by
  show ∃ t, finish (s.fresh0.onGate _ o _) = .next t ∧ _
  by_cases ho : alwaysOn o = true
  · rw [State.onGate_alwaysOn ho (by exact h.reset), hw s.fresh0 rfl, State.csrp_eq, finish_of_service (by exact h.service)]
    exact ⟨_, rfl, .inl (List.mem_singleton.2 rfl), rfl, rfl, rfl, rfl, rfl⟩
  · rw [State.onGate_gated (Bool.eq_false_iff.2 ho), h.csrGate,
      hw { s.fresh0 with power := { s.power with scrubWake := false, idle := 0 } } rfl, State.csrp_eq,
      finish_of_service (by exact h.service)]
    exact ⟨_, rfl, .inl (List.mem_singleton.2 rfl), rfl, rfl, rfl, rfl, rfl⟩

/-- R449: with no parity error a read finds none. -/
theorem State.readParity_calm (o : Nat) {s : State} (h : s.bad = []) : s.readParity o = s := by
  have hc : ∀ i, s.ctrParity i = s := fun i => by simp [State.ctrParity, h]
  have hb : ∀ i, s.binParity i = s := fun i => by simp [State.binParity, h]
  unfold State.readParity
  simp only [hc, hb, ite_self]
  split <;> rfl

/-- The answer to a read that finds no parity error. -/
theorem State.answerRead_calm (src : Csrp) (o : Nat) {s : State} (h : s.bad = []) :
    s.answerRead src o = s.csrp (s.csrpRead src o).1 (s.csrpRead src o).2 := by
  simp [State.answerRead, State.readParity_calm o h]

/-- R41, R427: a read of a block that sleeps is kept, and wakes the slice. -/
theorem State.csrGate_asleep {s : State} (hr : s.power.rstLow = false) (ha : s.asleep = true) (hp : s.power.sleepPh = .none)
    (i : Instr) (act : State → State) :
    s.csrGate i act = { s with power := { s.power with
      held := s.power.held ++ [(i, s.power.heldAge)], scrubWake := false, wakeDue := true } } := by
  have hg : s.csrGate i act = (s.keepFor i).wakeUp := by simp [State.csrGate, hr, ha]
  rw [hg]
  show (if s.asleep then (if s.power.sleepPh == .committed then _ else _) else _) = _
  rw [ha, hp]
  rfl

end Sys2Proof.Machine

open Sys2Proof Sys2Proof.Machine

/-- Settles O43: every management write but `MEAS_LOCK` goes through `mgmtWrite`; a read in sleep is answered or kept. -/
theorem registerAccess : Obligations.RegisterAccess := by
  refine ⟨fun s src p n b v h hm c hc => ?_, fun s src v h hm => ⟨?_, ?_, ?_⟩, fun s src o hr hb => ⟨fun ho => ?_, fun ho ha hp => ?_⟩⟩
  · have hd : ∃ t, exec c s = .next t ∧ s.Denied t := by
      simp only [List.mem_cons, List.not_mem_nil, or_false] at hc
      rcases hc with rfl | rfl | rfl | rfl | rfl | rfl | rfl | rfl | rfl | rfl | rfl | rfl | rfl | rfl
      case inr.inr.inr.inr.inr.inr.inr.inr.inr.inr.inl => exact h.measLock_denied hm
      all_goals exact h.mgmtWrite_denied _ hm _
    obtain ⟨t, he, hd⟩ := hd
    exact ⟨t, he, hd.out, hd.regs, hd.xlt, hd.hot, hd.presc, hd.meas, hd.elog, hd.cfg, hd.pws, hd.mbs, hd.arr, hd.dir, hd.wins,
      hd.state.trans h.service, hd.drain.trans h.config⟩
  · exact h.registerWrite_regs fun t ht => ht ▸ State.csrpWrite_status hm v t
  · exact h.registerWrite_regs fun t ht => ht ▸ State.csrpWrite_specCtl hm v t
  · exact h.registerWrite_regs (r := s.regs) fun t ht => by rw [State.csrpWrite_noRegister hm, ← ht]
  · have he : exec (.csrpReadInSleep src o) s = finish (s.fresh0.answerRead src o) := by
      show finish (s.fresh0.onGate _ o _) = _
      rw [State.onGate_alwaysOn ho (by exact hr)]
    rw [he, State.answerRead_calm src o (by exact hb), State.csrp_eq]
    exact ⟨_, rfl, by simp⟩
  · have he : exec (.csrpReadInSleep src o) s = finish (s.fresh0.csrGate (.csrpReadInSleep src o) (State.answerRead src o)) := by
      show finish (s.fresh0.onGate _ o _) = _
      rw [State.onGate_gated ho]
    rw [he, State.csrGate_asleep (by exact hr) (by exact ha) (by exact hp)]
    exact ⟨_, rfl, by simp⟩

namespace Sys2Proof.Machine

/-! ### Identity, the lock and the logs (R45, R367, R442) -/

/-- R367, R474: the first write of `MEAS_LOCK` sets the lock and counts; another changes nothing. -/
theorem State.writeMeasLock_eq (s : State) :
    s.writeMeasLock 1 = { s with
      out := s.out ++ [.csrp .ok 0],
      meas := if s.meas.locked then s.meas else { s.meas with locked := true, gen := (s.meas.gen + 1) % 65536 } } := by
  unfold State.writeMeasLock
  rw [State.csrp_eq]
  cases hl : s.meas.locked <;> simp [hl, bit, State.setMeas, State.measBump]

/-- R45, R366: a write of `PKG_IDENT`. -/
theorem State.writePkg_eq (v : Word) (s : State) :
    s.writePkg v = { s with
      out := s.out ++ [.csrp (if s.meas.locked then .locked else .ok) 0],
      regs := if s.meas.locked then s.regs else { s.regs with pkgIdent := bits v.toNat 4 0, pkgSet := true } } := by
  unfold State.writePkg
  rw [State.csrp_eq, State.csrp_eq]
  cases hl : s.meas.locked <;> simp

/-- R442: a write of 1 to the `VALID` bit of a log entry clears it. -/
theorem State.writeElog_eq (i : Nat) (s : State) :
    s.writeElog i 4 = { s with
      out := s.out ++ [.csrp .ok 0],
      elog := { s.elog with ents := s.elog.ents.modify i fun e => { e with valid := false } } } := by
  unfold State.writeElog
  rw [State.csrp_eq, if_pos (by decide)]

end Sys2Proof.Machine

/-- Settles O44: each of the three commands acts in a slice at rest as its register's own lemma says. -/
theorem identityAndLogs : Obligations.IdentityAndLogs := by
  refine fun s src h hm => ⟨fun v => ?_, ?_, fun i => ?_⟩
  · rw [show exec (.pkgIdentWrite src v) s = _ from h.mgmtWrite _ hm _, State.writePkg_eq, finish_of_service (by exact h.service)]
    exact ⟨_, rfl, .inl (List.mem_singleton.2 rfl), rfl, rfl, rfl, rfl, rfl⟩
  · have he : exec (.measLock src) s = finish (s.fresh0.writeMeasLock 1) := by
      show finish (s.fresh0.onGate _ 0xE008 _) = _
      rw [State.onGate_alwaysOn (by decide) (by exact h.reset), hm, if_pos rfl]
    rw [he, State.writeMeasLock_eq, finish_of_service (by exact h.service)]
    refine ⟨_, rfl, .inl (List.mem_singleton.2 rfl), ?_⟩
    cases hl : s.meas.locked <;> simp [hl]
  · rw [show exec (.elogClear src i) s = _ from h.mgmtWrite _ hm _, State.writeElog_eq, finish_of_service (by exact h.service)]
    exact ⟨_, rfl, .inl (List.mem_singleton.2 rfl), rfl, rfl, rfl, rfl, rfl⟩

end

section
namespace Sys2Proof.Machine
open Sys2Proof

/-! ### Resets and the initialisation pass (R46, R437, R439) -/

/-- R119: lens slots without a descriptor and without the mark of a kept one are settled already. -/
theorem State.settle_of_bare {s : State} {n : Nat} (h : s.lens.slots = List.replicate n {}) : s.settle = s := by
  have hl : (s.lens.slots.mapIdx fun i l =>
      if l.desc.isSome && !l.inAct && !l.inSh && s.ownCount i == 0 then l.freed (s.lensInFlight i)
      else if l.ghost then { l with ghost := false } else l) = s.lens.slots := by
    rw [h]
    exact List.ext_getElem (by simp) fun i _ _ => by simp
  unfold State.settle
  rw [hl]

/-- R437: a cold reset leaves the blank state, whose slots are empty and which watches nothing. -/
theorem exec_coldReset (s : State) : exec .coldReset s = .next s.blank := by
  show finish s.fresh0.coldReset = _
  rw [finish_of_debugRuns (State.debugRuns_reset rfl), State.settle_of_bare (n := 256) rfl]
  rfl

/-- R437: a warm reset. -/
theorem exec_warmReset (s : State) : exec .warmReset s = .next s.fresh0.warmReset.settle :=
  finish_of_debugRuns (State.debugRuns_reset rfl)

/-- R439: the release of `RST_N` begins `INIT`. -/
theorem exec_resetRelease {s : State} (straps : Straps) (op : Nat) (h : s.power.rstLow = true) :
    exec (.resetRelease straps op) s = .next (s.fresh0.release straps op).settle := by
  show (if s.power.rstLow then _ else _) = _
  rw [if_pos h]
  exact finish_of_debugRuns (State.debugRuns_false (by simp [State.release]) (by simp [State.release]))

/-- R46: the strap error is that of an index beyond its range. -/
theorem strapErr_iff (t : Straps) : (if strapsValid t then 0 else 1) = 1 ↔ (if t.split then 32 else 16) ≤ t.index := by
  unfold strapsValid
  split <;> simp_all

/-- R417, R439: the state in which the initialisation pass ends, before a change of operating point that waits. -/
def State.initialised (s : State) : State :=
  { s.fresh0 with
    arr := [], dir := [], rot := [], upsets := s.upsets.filter fun j => 6 ≤ j.kind,
    reg := { s.fresh0.reg with urgLvl := s.reg.urgWire }, power := { s.power with state := .config } }

/-- R417, R439: the initialisation pass ends; what waited for it on `PWRC_OP` moves the power unit only. -/
theorem exec_initComplete {s : State} (hi : s.power.state = .init) (he : s.power.strapErr ≠ 1) :
    ∃ p : Power, exec .initComplete s = .next (State.settle { s.initialised with power := p }) ∧ p.state = .config ∧
      (s.power.opLate = false → p = { s.power with state := .config }) := by
  have hf : ∀ p : Power, p.state = .config →
      finish { s.initialised with power := p } = .next (State.settle { s.initialised with power := p }) := fun p hp =>
    finish_of_debugRuns (State.debugRuns_false (by simp [hp]) (by simp [hp]))
  have hx : exec .initComplete s = finish (if s.power.opLate && s.power.opAge == 2500 then s.initialised.opDue else s.initialised) := by
    show (if s.power.state == .init && s.power.strapErr != 1 then _ else _) = _
    rw [if_pos (by simp [hi, he])]
    rfl
  rw [hx]
  split
  · rename_i hl
    have hl' : s.power.opLate = true := by simp_all
    obtain ⟨p, hp, hc⟩ : ∃ p : Power, s.initialised.opDue = { s.initialised with power := p } ∧ p.state = .config := by
      unfold State.opDue
      dsimp only
      split <;> exact ⟨_, rfl, rfl⟩
    exact ⟨p, hp ▸ hf p hc, hc, fun h => absurd hl' (by simp [h])⟩
  · exact ⟨_, hf _ rfl, rfl, fun _ => rfl⟩

end Sys2Proof.Machine

open Sys2Proof Sys2Proof.Machine

/-- Settles O51: each of the four commands ends in a state that its lemma names, settled, and the fields are read off. -/
theorem resets : Obligations.Resets := by
  refine ⟨fun s => ⟨exec_coldReset s, _, exec_warmReset s, ?_⟩, fun s straps op h => ⟨_, exec_resetRelease straps op h, ?_⟩,
    fun s hi _ he => ?_⟩
  · exact ⟨rfl, rfl, rfl, rfl, rfl, rfl, rfl, rfl, rfl, rfl, rfl, rfl, rfl, rfl, rfl, rfl, rfl, rfl, rfl, rfl⟩
  · have hop : op < 6 → (if op < 6 then op else 0) = op := fun ho => if_pos ho
    have hst := strapErr_iff (if s.power.strapsTaken then s.power.straps else straps)
    exact ⟨rfl, rfl, rfl, rfl, hop, rfl, hst, rfl, rfl⟩
  · obtain ⟨p, hx, hc, hp⟩ := exec_initComplete hi he
    exact ⟨_, hx, hc, hp, rfl, rfl, rfl, rfl, rfl, rfl⟩

end

section
namespace Sys2Proof.Machine
open Sys2Proof

/-! ### Refutations by evaluation -/

/-- What the next state of a step shows; nothing when the step has none. -/
def nextView {α : Type} (f : State → α) : Res → Option α
  | .next t => some (f t)
  | _ => none

theorem nextView_next {α : Type} (f : State → α) (t : State) : nextView f (.next t) = some (f t) := rfl

/-- A step whose next state shows something else has not the next state that a claim names. -/
theorem view_of_next {α : Type} {f : State → α} {r : Res} {t : State} {a : α} (hv : nextView f r = some a) (hr : r = .next t) :
    f t = a :=
  Option.some.inj ((nextView_next f t).symm.trans (hr ▸ hv))

/-! ### A round that takes a section settles a collect in a new group (R304) -/

/-- A slice in `SERVICE` at rest in which window 0 has a collect under way, in group 0, the `SELF_GROUP` of partition 0, and a
REGULATE section waits that makes group 1 that `SELF_GROUP`. -/
def collectBeforeRound : State :=
  { power := { state := .service, rstLow := false },
    wins := [{ col := some { d0 := 0, d1 := 0, dst := 0, noOut := true, gen := 0, grp := some 0 } }],
    reg := { cfg := { selfGroup := [0] }, next := some { selfGroup := [1] } } }

theorem collectBeforeRound_atRest : collectBeforeRound.AtRest :=
  ⟨⟨rfl, rfl, rfl, by decide, rfl, rfl, rfl, rfl, rfl, rfl, rfl, rfl, rfl, rfl, rfl, rfl, rfl, rfl, rfl, rfl, rfl, rfl, rfl, rfl⟩, rfl⟩

/-- The groups of the collects under way, window by window. -/
def State.collectGroups (s : State) : List (Option Nat) := s.wins.map fun w => w.col.bind (·.grp)

/-- R304: after the round the collect is in group 1. -/
theorem grantRound_regroups : nextView State.collectGroups (exec .grantRound collectBeforeRound) = some [some 1] := by
  decide +kernel

/-! ### A round at the wake counts (R303, R429) -/

/-- A slice that rests in `OFF` at OP5 with OP0 recorded and a wake due: group 0 is allotted 700 of resource 0, which `G'` = 921 of
OP5 covers and 460 of OP0 does not, and counter 0 is bound to `GUARANTEE_SCALED`. -/
def offBeforeScaling : State :=
  { power := { state := .off, rstLow := false, wakeDue := true, op := 5, nextOp := some 0, opWire := 0 },
    cfg := { inForce := true, ctrs := [{ event := Ev.guaranteeScaled }] },
    reg := { cfg := { groups := [{ min := [700], weight := 1 }] }, scaled := true,
             scale := List.replicate 5 { dNow := 1024, gNow := 921, s := 1024, sp := 1024 } } }

theorem offBeforeScaling_still : offBeforeScaling.Still :=
  ⟨rfl, rfl, rfl, by decide, rfl, rfl, rfl, rfl, rfl, rfl, rfl, rfl, rfl, rfl, rfl, rfl, rfl, rfl, rfl, rfl, rfl, rfl, rfl, rfl⟩

/-- R303, R429: the grant round of the wake finds the guarantee scaled, and counter 0 counts it. -/
theorem offWake_counts : nextView (fun t => t.ctr.head?) (exec .offWakeComplete offBeforeScaling) = some (some 1) := by
  decide +kernel

/-! ### A served window request acts again (R142) -/

/-- The `WIN_ARRIVE` of a transaction that keeps line 5 busy, with its payload here. -/
def busyArrive : Txn :=
  { id := 0, kind := .req .winArrive { port := 0, agent := 0, txid := 1, addr := 640, size := 6, dat := [{ sector := 0, data := 0 }] } none,
    line := 5, part := 0, lens := none, started := true, served := true, busy := true }

/-- A request that waits for the line. -/
def waitsForLine5 : WaitReq :=
  { op := .zeroLine, q := { port := 0, agent := 0, txid := 2, addr := 640, size := 7 }, cause := .busyLine }

/-- A slice in `SERVICE` with these two and nothing else in progress. -/
def busyByArrive : State :=
  { power := { state := .service, rstLow := false }, waiting := [waitsForLine5], txns := [busyArrive] }

theorem busyByArrive_atRest : State.AtRest { busyByArrive with waiting := [], txns := [] } :=
  ⟨⟨rfl, rfl, rfl, by decide, rfl, rfl, rfl, rfl, rfl, rfl, rfl, rfl, rfl, rfl, rfl, rfl, rfl, rfl, rfl, rfl, rfl, rfl, rfl, rfl⟩, rfl⟩

/-- R142: `State.ctlGo` takes the window request up, answers it and drops its transaction. -/
theorem restart_drops_arrive : nextView (fun t => t.txns.length) (exec .waitingRequestRestart busyByArrive) = some 0 := by
  decide +kernel

end Sys2Proof.Machine

open Sys2Proof Sys2Proof.Machine

/-- Refutes O27: a round that takes a REGULATE section settles work in progress in its new groups (R304), among it the collect of a
window, whose `grp` stands in `wins`; so `wins` is not always as it was (`collectBeforeRound`). -/
theorem not_regulationRounds : ¬ Obligations.RegulationRounds := by
  intro h
  obtain ⟨t, he, -, -, -, hw, -⟩ := h.1 collectBeforeRound collectBeforeRound_atRest rfl rfl
  have hg : t.collectGroups = [some 1] := view_of_next grantRound_regroups he
  rw [State.collectGroups, hw] at hg
  exact absurd hg (by decide)

/-- Refutes O50: the wake from `OFF` ends with a grant round (R429), which counts `GUARANTEE_SCALED` when the operating point that the
slice has recorded in its rest scales a guarantee; so the counters are not always all zero (`offBeforeScaling`). -/
theorem not_wakes : ¬ Obligations.Wakes := by
  intro h
  obtain ⟨-, hoff⟩ := h.1 offBeforeScaling offBeforeScaling_still rfl rfl rfl (by decide)
  obtain ⟨t, he, -, -, -, -, -, -, -, -, -, hc, -⟩ := hoff rfl
  have hv : t.ctr.head? = some 1 := view_of_next offWake_counts he
  rw [hc] at hv
  exact absurd hv (by decide)

/-- Refutes O20: its third clause does not say that the transaction which keeps the line busy is no window request. One whose payload is
here takes effect at the end of the restart, is answered and ends; so the transactions are not as they were (`busyByArrive`). -/
theorem not_requestsWaitAndRestart : ¬ Obligations.RequestsWaitAndRestart := by
  intro h
  obtain ⟨t, he, -, ht, -⟩ := h.2.2 busyByArrive waitsForLine5 busyArrive _ _ busyByArrive_atRest rfl rfl rfl rfl rfl rfl (by decide)
  have hn : t.txns.length = 0 := view_of_next restart_drops_arrive he
  rw [ht] at hn
  exact absurd hn (by decide)

end

section
namespace Sys2Proof.Machine
open Sys2Proof

/-! ### The fields of the boundary register (R489) -/

/-- The number whose field at each placed run holds a value. -/
def packRuns (v : Nat → WbrRun → Nat) (l : List (Nat × WbrRun)) : Nat := (l.map fun x => v x.1 x.2 % 2 ^ x.2.width * 2 ^ x.1).sum

/-- Runs that are placed from cell `n` upward leave the cells below alone. -/
theorem packRuns_dvd (v : Nat → WbrRun → Nat) (l : List WbrRun) : ∀ n, 2 ^ n ∣ packRuns v (placeRuns n l) := by
  induction l with
  | nil => exact fun n => dvd_zero _
  | cons r l ih =>
    intro n
    exact Nat.dvd_add (Dvd.intro_left _ rfl) ((pow_dvd_pow 2 (Nat.le_add_right n r.width)).trans (ih _))

theorem le_of_mem_placeRuns {x : Nat × WbrRun} (l : List WbrRun) : ∀ n, x ∈ placeRuns n l → n ≤ x.1 := by
  induction l with
  | nil => exact fun n h => absurd h List.not_mem_nil
  | cons r l ih =>
    intro n h
    rcases List.mem_cons.1 h with rfl | h
    · exact le_rfl
    · exact (Nat.le_add_right n r.width).trans (ih _ h)

/-- What a field below a place adds does not reach it. -/
theorem add_shiftRight_of_dvd {a b k m : Nat} (ha : a < 2 ^ k) (hb : 2 ^ k ∣ b) (hm : k ≤ m) : (a + b) >>> m = b >>> m := by
  obtain ⟨q, rfl⟩ := hb
  obtain ⟨j, rfl⟩ := Nat.exists_eq_add_of_le hm
  simp only [Nat.shiftRight_eq_div_pow, pow_add, ← Nat.div_div_eq_div_mul]
  rw [Nat.add_mul_div_left _ _ (Nat.two_pow_pos k), Nat.div_eq_of_lt ha, Nat.zero_add, Nat.mul_div_cancel_left _ (Nat.two_pow_pos k)]

/-- Each field is read back. -/
theorem packRuns_field (v : Nat → WbrRun → Nat) {x : Nat × WbrRun} (l : List WbrRun) :
    ∀ n, x ∈ placeRuns n l → packRuns v (placeRuns n l) >>> x.1 % 2 ^ x.2.width = v x.1 x.2 % 2 ^ x.2.width := by
  induction l with
  | nil => exact fun n h => absurd h List.not_mem_nil
  | cons r l ih =>
    intro n h
    have hp : packRuns v (placeRuns n (r :: l)) = v n r % 2 ^ r.width * 2 ^ n + packRuns v (placeRuns (n + r.width) l) := rfl
    rw [hp]
    rcases List.mem_cons.1 h with rfl | h
    · obtain ⟨q, hq⟩ := packRuns_dvd v l (n + r.width)
      dsimp only
      rw [hq, Nat.shiftRight_eq_div_pow, pow_add, mul_assoc, mul_comm _ (2 ^ n), ← mul_add,
        Nat.mul_div_cancel_left _ (Nat.two_pow_pos n), Nat.add_mul_mod_self_left, Nat.mod_mod]
    · have hlt : v n r % 2 ^ r.width * 2 ^ n < 2 ^ (n + r.width) := by
        rw [pow_add, mul_comm (2 ^ n)]
        exact Nat.mul_lt_mul_of_pos_right (Nat.mod_lt _ (Nat.two_pow_pos _)) (Nat.two_pow_pos n)
      rw [add_shiftRight_of_dvd hlt (packRuns_dvd v l _) (le_of_mem_placeRuns l _ h)]
      exact ih _ h

/-- A field that lies in the register is that of the number it was made from. -/
theorem ofNat_field (k n m w : Nat) (h : m + w ≤ k) : (BitVec.ofNat k n).toNat >>> m % 2 ^ w = n >>> m % 2 ^ w := by
  rw [BitVec.toNat_ofNat]
  refine Nat.eq_of_testBit_eq fun i => ?_
  rw [Nat.testBit_mod_two_pow, Nat.testBit_mod_two_pow, Nat.testBit_shiftRight, Nat.testBit_shiftRight, Nat.testBit_mod_two_pow]
  by_cases hi : i < w
  · simp [show m + i < k by omega]
  · simp [hi]

/-- R488, R489: the cells whose signals the slice takes in. -/
def inputCell : WbrPin → CellKind → Bool
  | .req _, .credit | .datIn _, .credit | .snr _, .credit | .memRead _, .credit => false
  | .req _, _ | .datIn _, _ | .snr _, _ | .memRead _, _ | .cuei, _ | .urg, _ | .csrpReq, _ => true
  | .snp _, .credit | .rsp _, .credit | .datOut _, .credit | .memReq _, .credit | .memWrite _, .credit => true
  | _, _ => false

/-- Every run of input cells is one, and every run lies in the register. -/
theorem placed_runs : ∀ x ∈ placeRuns 0 wbrRuns, (inputCell x.2.pin x.2.kind = true → x.2.out = false) ∧ x.1 + x.2.width ≤ 16346 := by
  decide +kernel

/-- R488: a capture of the outputs leaves the input cells as they are. -/
theorem State.wbrField_capture (s : State) {pin : WbrPin} {kind : CellKind} (h : inputCell pin kind = true) :
    wbrField (s.capture true) pin kind = wbrField s.test.wbr pin kind := by
  unfold wbrField
  cases hf : (placeRuns 0 wbrRuns).find? fun (_, x) => x.pin == pin && x.kind == kind with
  | none => rfl
  | some y =>
    obtain ⟨n, r⟩ := y
    have hm := List.mem_of_find?_eq_some hf
    have hp : r.pin = pin ∧ r.kind = kind := by simpa using List.find?_some hf
    obtain ⟨hin, hle⟩ := placed_runs _ hm
    have hout : r.out = false := hin (by rw [hp.1, hp.2]; exact h)
    let v (n : Nat) (r : WbrRun) : Nat :=
      if r.out == true then (s.wbrKnown r).getD ((Config.freePins s.fresh).toNat >>> n) else s.test.wbr.toNat >>> n
    have hc : s.capture true = BitVec.ofNat 16346 (packRuns v (placeRuns 0 wbrRuns)) := rfl
    have hv : v n r = s.test.wbr.toNat >>> n := by simp [v, hout]
    show (s.capture true).toNat >>> n % 2 ^ r.width = s.test.wbr.toNat >>> n % 2 ^ r.width
    rw [hc, ofNat_field _ _ _ _ hle, ← hv]
    exact packRuns_field v wbrRuns 0 hm

/-- R488: what the register presents depends on its input cells alone. -/
theorem State.inputs_congr (old : BitVec 16346) {r r' : BitVec 16346} (s : State)
    (h : ∀ pin kind, inputCell pin kind = true → wbrField r pin kind = wbrField r' pin kind) :
    s.inputs old r = s.inputs old r' := by
  have hfab : ∀ p, s.fabInput r p = s.fabInput r' p := fun p => by
    simp only [State.fabInput, h (.req p) .valid rfl, h (.req p) .bits rfl, h (.datIn p) .valid rfl, h (.datIn p) .bits rfl,
      h (.snr p) .valid rfl, h (.snr p) .bits rfl, h (.snp p) .credit rfl, h (.rsp p) .credit rfl, h (.datOut p) .credit rfl]
  have hmem : ∀ p, s.memInput r p = s.memInput r' p := fun p => by
    simp only [State.memInput, h (.memRead p) .valid rfl, h (.memRead p) .bits rfl, h (.memReq p) .credit rfl,
      h (.memWrite p) .credit rfl]
  have hcue : s.cueInput r = s.cueInput r' := by simp only [State.cueInput, h .cuei .valid rfl, h .cuei .bits rfl]
  have hurg : s.urgInput old r = s.urgInput old r' := by simp only [State.urgInput, h .urg .bits rfl]
  have hcsr : csrpInput r = csrpInput r' := by simp only [csrpInput, h .csrpReq .valid rfl, h .csrpReq .bits rfl]
  simp only [State.inputs, hfab, hmem, hcue, hurg, hcsr]

/-! ### `WS_INTEST` that presents `TEST_EXIT` (R392, R487, R488) -/

/-- R41: a `CSRP` write of `TEST_EXIT` = 1 with `MGMT`, in the cells of its channel, which begin at cell 16,147: the valid cell,
the offset `0xC100` counted in registers, the write bit, `MGMT`, and the value 2. -/
def testExitCells : BitVec 16346 := BitVec.ofNat 16346 ((1 + 2 * (0x1820 + 2 ^ 13 + 2 ^ 18 + 2 * 2 ^ 19)) * 2 ^ 16147)

/-- A slice in `TEST` with nothing in progress whose boundary register holds them. -/
def inTestWithExit : State := { power := { state := .test, rstLow := false }, test := { wbr := testExitCells } }

/-- The slice when `WS_INTEST` has been loaded and no bit shifted, before it presents its inputs. -/
def beforePresenting : State :=
  let u := inTestWithExit.fresh0.loadWir .intest true
  State.emit (.wso []) { u with test := { u.test with wbr := u.capture true }, fresh := u.fresh + 1 }

theorem exec_wsIntest_inTestWithExit :
    exec (.wsIntest {}) inTestWithExit =
      finish ((beforePresenting.inputs 0 ((inTestWithExit.fresh0.loadWir .intest true).capture true)).foldl State.present
        beforePresenting) := rfl

theorem inputs_testExitCells : beforePresenting.inputs 0 testExitCells = [.registerWrite {} 0xC100 2] := by
  decide +kernel

/-- R487: the presented write leaves `TEST`, and the instruction register holds `WS_BYPASS` again. -/
theorem present_testExit :
    nextView (fun t => t.test.wir) (finish ([Instr.registerWrite {} 0xC100 2].foldl State.present beforePresenting)) = some .bypass := by
  decide +kernel

theorem wsIntest_leaves_test : nextView (fun t => t.test.wir) (exec (.wsIntest {}) inTestWithExit) = some .bypass := by
  have hr := State.inputs_congr 0 beforePresenting fun pin kind h =>
    (inTestWithExit.fresh0.loadWir .intest true).wbrField_capture (pin := pin) (kind := kind) h
  rw [exec_wsIntest_inTestWithExit, hr, show (inTestWithExit.fresh0.loadWir .intest true).test.wbr = testExitCells from rfl,
    inputs_testExitCells]
  exact present_testExit

end Sys2Proof.Machine

open Sys2Proof Sys2Proof.Machine

/-- Refutes O52: its last clause but one says that `WS_INTEST` stays loaded. The register it presents may hold a write of `TEST_EXIT`,
which leaves `TEST` (R487), and the instruction register then holds `WS_BYPASS` (`inTestWithExit`). -/
theorem not_testAndWrapper : ¬ Obligations.TestAndWrapper := by
  intro h
  obtain ⟨-, -, -, -, hw, -⟩ := h
  obtain ⟨-, -, hi⟩ := hw inTestWithExit 0 {}
  obtain ⟨t, o, l, he, hwir, -⟩ := hi rfl rfl
  have hb : t.test.wir = .bypass := view_of_next wsIntest_leaves_test he
  exact absurd (hwir.symm.trans hb) (by decide)

end

section
namespace Sys2Proof.Machine
open Sys2Proof

/-! ### What the memory and credit events leave alone -/

/-- A slice with nothing that the end of a meaning takes up; fills and requests may wait. -/
structure State.Idle (s : State) : Prop where
  txns : s.txns = []
  prov : s.prov = []
  holders : s.span.holders = []
  buckets : s.hand.buckets = []
  after : ∀ w ∈ s.wins, w.after = []
  config : s.power.cfgDrain = false
  phase : s.power.sleepPh = .none
  resilver : s.res.active = false

/-- The end of a meaning takes nothing up. -/
theorem State.Idle.tidy {s : State} (h : s.Idle) : s.tidy = s := by
  have hvoid : s.cfgVoid = s := by simp [State.cfgVoid, h.config]
  have hprovs : s.provsGo = s := by simp [State.provsGo, h.prov]
  have hholders : s.holdersGo = s := by unfold State.holdersGo; rw [h.holders, List.foldl_nil, ← h.holders]
  have hpump : s.pumpOps = s := by simp [State.pumpOps, h.txns]
  have hctl : s.ctlGo = s := by simp [State.ctlGo, h.txns]
  have hwins : s.winsGo = s := foldl_id _ _ _ fun w _ => by
    have hw : (s.win w).after = [] := by
      unfold State.win
      rw [List.getD_eq_getElem?_getD]
      cases hx : s.wins[w]? with
      | none => rfl
      | some x => exact h.after x (List.mem_of_getElem? hx)
    rw [hw]
    rfl
  have hrel : s.releasesGo = s := by simp [State.releasesGo, h.buckets]
  have hdrain : s.drainGo = s := by simp [State.drainGo, State.drainLeft, h.config, h.phase, h.resilver]
  unfold State.tidy
  rw [hvoid, hprovs, hholders, hpump, hctl, hwins, hpump, hrel, hdrain, ite_self]

/-- The frame of an event of the ports: it writes their credits and requests, the write-back buffer, the miss registers, the
meters and what left the ports. -/
theorem State.frame_of_ports (s : State) {fab mem memOut wbb mrs acts sig acks out fresh hist} {reg : RegUnit}
    (hh : (∀ c ∈ s.cfg.hists, c.src = 0) → hist = s.hist) :
    s.Frame (State.settle { s with
      fab := fab, mem := mem, memOut := memOut, wbb := wbb, mrs := mrs, reg := reg, acts := acts, sig := sig, acks := acks,
      out := out, fresh := fresh, hist := hist }) where
  cfg := rfl
  cue := rfl
  xlt := rfl
  presc := rfl
  mbs := rfl
  pws := rfl
  elog := rfl
  meas := rfl
  regs := .inl rfl
  hot := fun _ => rfl
  lanes := rfl
  hist := hh
  ctr := fun _ _ => rfl
  fuses := rfl
  res := rfl
  hand := rfl
  down := rfl
  ranges := rfl
  walks := rfl
  span := rfl
  test := rfl
  folds := rfl
  pending := rfl
  mode := rfl
  tint := ⟨rfl, rfl⟩

/-- R482: a measurement that no histogram is bound to changes nothing. -/
theorem State.measure_unbound {src : Nat} (hs : src ≠ 0) (p : Option Nat) {s : State} (h : ∀ c ∈ s.cfg.hists, c.src = 0) :
    s.measure src p = s := by
  refine foldl_id _ _ _ fun i _ => if_neg ?_
  dsimp only
  have hc : (s.cfg.hists.getD i {}).src = 0 := by
    rw [List.getD_eq_getElem?_getD]
    cases hx : s.cfg.hists[i]? with
    | none => rfl
    | some c => exact h c (List.mem_of_getElem? hx)
  rw [hc, beq_false_of_ne hs.symm]
  simp

/-! ### Read data (R32, R130, R134) -/

/-- R54: a slice in service whose clock runs serves its memory ports. -/
theorem State.memGate_serve {s : State} (h1 : s.power.state = .service) (h2 : s.power.relock = false)
    (h3 : s.power.rstLow = false) : s.memGate = .serve := by
  simp [State.memGate, State.asleep, h1, h2, h3]

/-- R19: a flit without wrong bits passes. -/
theorem State.flitCheck_clean (port chan : Nat) (s : State) : s.flitCheck 0 port chan = (true, s) := rfl

/-- R32: a flit of read data without wrong bits is given to whoever asked for it; before, only its read and the meters change. -/
theorem State.memFlit_serve {s : State} (hg : s.memGate = .serve) (hb : s.bad = []) (i : Instr) (r : MemReq) {f : MemFlit}
    (hf : f.flips = 0) :
    ∃ a g x n, s.memFlit i r f =
        State.readBack r f { s with memOut := (s.takeRead r).memOut, acts := a, sig := g, hist := x, fresh := n } ∧
      ((∀ c ∈ s.cfg.hists, c.src = 0) → x = s.hist) := by
  unfold State.memFlit
  rw [hg]
  dsimp only
  generalize hv : (s.act 12 1).sign (0x10 + f.port) 0x44 (0x4 + b2n f.poison * 2 ^ 6) (some r.part) = v
  have hchk : (if r.spec && r.use == .plain && f.flips == 1 then (true, v) else v.flitCheck f.flips (8 + f.port) 0) = (true, v) := by
    rw [hf, State.flitCheck_clean, ite_self]
  rw [hchk]
  dsimp only
  rw [if_neg (by decide), if_neg (by decide)]
  have hu : v.takeRead r = { s with memOut := (s.takeRead r).memOut, acts := v.acts, sig := v.sig } := by rw [← hv]; rfl
  rw [hu]
  generalize (s.takeRead r).memOut = mo
  split
  · obtain ⟨x, n, hx⟩ := State.measure_calm 7 (some r.part) { s with memOut := mo, acts := v.acts, sig := v.sig } hb
    refine ⟨v.acts, v.sig, x, n, by rw [hx], fun hz => ?_⟩
    exact congrArg State.hist (hx.symm.trans (State.measure_unbound (by decide) _ hz))
  · exact ⟨v.acts, v.sig, s.hist, s.fresh, rfl, fun _ => rfl⟩

/-- With no parity error no buffered sector shows one. -/
theorem State.readBuffered_calm (line : Nat) {s : State} (h : s.bad = []) : s.readBuffered line = s := by
  simp [State.readBuffered, h]

/-- With no transaction and no register of the line that drains, a line has nothing to go on with. -/
theorem State.pumpLine_calm (line : Nat) {s : State} (ht : s.txns = []) (hb : s.bad = []) (hm : ∀ m ∈ s.mrs, m.st ≠ .drain) :
    s.pumpLine line = s := by
  have hsweep : s.sweepMr line = s := by
    have hf : s.mrs.filter (fun (m : MissReg) => !(m.line == line && m.st == .drain)) = s.mrs :=
      List.filter_eq_self.2 fun m hx => by simp [hm m hx]
    unfold State.sweepMr
    rw [hf]
    exact ite_self _
  have habsorb : s.absorbLine line = s := by simp [State.absorbLine, ht]
  have hone : s.pumpOne line = none := by
    simp [State.pumpOne, State.lineDamage, hb, State.readBuffered_calm line hb, ht]
  have hpump : s.pump line (6 * s.txns.length + 6) = s := by
    rw [ht]
    show (match (s.absorbLine line).pumpOne line with | none => (s.absorbLine line).sweepMr line | some s => _) = s
    rw [habsorb, hone]
    exact hsweep
  unfold State.pumpLine
  rw [hpump, hsweep]
  rfl

/-- The one miss register that is in use. -/
def State.withRegister (m : MissReg) (s : State) : State := { s with mrs := [m] }

/-- R134: the first sector of a fill that may not allocate is kept in its register, which is then in `FILL`. -/
theorem State.fillUp_keeps {s : State} {m : MissReg} {x : Sec} (hm : s.mrs = [m]) (hb : s.bad = []) (hst : m.st = .miss)
    (ha : m.alloc = false) (hw : m.wantHi = true) (hlo : m.loGot = some x) (hhi : m.hiGot = none) (hl : s.lineOf m.line = none) :
    s.fillUp m.line = s.withRegister { m with st := .fill } := by
  have hof : ∀ (g : Option Nat) (a : Option Nat), (s.runAs g a).mrOf m.line = some m := fun g a => by
    simp [State.mrOf, hm, hst]
  have hof0 : s.mrOf m.line = some m := hof s.reg.cur s.reg.curAgent
  have hkeep : ∀ (g : Option Nat) (a : Option Nat), (s.runAs g a).installFill m.line 0 x = s.runAs g a := fun g a => by
    have hl' : (s.runAs g a).lineOf m.line = none := hl
    simp [State.installFill, hof, hl', ha]
  have hadv : m.advance = { m with st := .fill } := by simp [MissReg.advance, hst, MissReg.full, hw, hlo, hhi]
  obtain ⟨g, a, hrun⟩ : ∃ g a, (if m.grp.isSome then s.runAs m.grp m.agent else s) = s.runAs g a := by
    by_cases hg : m.grp.isSome
    · exact ⟨m.grp, m.agent, if_pos hg⟩
    · exact ⟨s.reg.cur, s.reg.curAgent, if_neg hg⟩
  have hstuck : (s.runAs g a).stuckFill m = false := by simp [State.stuckFill, ha]
  unfold State.fillUp
  rw [State.readBuffered_calm _ hb]
  simp only [hof0, hst, hlo, hhi, hrun, hkeep, hof, hstuck]
  simp [State.mrOf, hm, hadv, State.runLike, State.runAs, hlo, hhi, State.withRegister]

/-! ### Credits that come back (R24, R32) -/

/-- R54: FCLK runs in a slice at rest. -/
theorem State.AtRest.fclkRuns {s : State} (h : s.AtRest) : s.fclkRuns = true := by
  simp [State.fclkRuns, State.asleep, h.service, h.clock, h.reset]

/-- R54: a slice at rest serves its fabric ports. -/
theorem State.AtRest.gate {s : State} (h : s.AtRest) : s.gate = .serve := by
  simp [State.gate, h.service, h.clock]

/-- R54: a slice at rest serves its memory ports. -/
theorem State.AtRest.memGate {s : State} (h : s.AtRest) : s.memGate = .serve :=
  State.memGate_serve h.service h.clock h.reset

/-- R32: the credits that a controller returns, added. -/
def State.addMemCredits (p req wdata : Nat) (s : State) : State :=
  { s with mem := s.mem.modify p fun c => { c with req := c.req + req, wdata := c.wdata + wdata } }

/-- R24: the credits that the hub returns, added. -/
def State.addFabCredits (p snp rsp dat : Nat) (s : State) : State :=
  { s with fab := s.fab.modify p fun c => { c with oSnp := c.oSnp + snp, oRsp := c.oRsp + rsp, oDat := c.oDat + dat } }

theorem State.AtRest.fresh0 {s : State} (h : s.AtRest) : s.fresh0.AtRest := { h with }

theorem State.AtRest.addMemCredits {s : State} (h : s.AtRest) (p req wdata : Nat) : (s.addMemCredits p req wdata).AtRest := { h with }

theorem State.AtRest.addFabCredits {s : State} (h : s.AtRest) (p snp rsp dat : Nat) : (s.addFabCredits p snp rsp dat).AtRest :=
  { h with }

/-- R32: with no request waiting, returned credits are added and nothing leaves. -/
theorem State.AtRest.memCredits {s : State} (h : s.AtRest) (p req wdata : Nat) :
    s.memCredits p req wdata = s.addMemCredits p req wdata := by
  have ht := h.addMemCredits p req wdata
  show (if s.power.rstLow then s
    else if !(s.addMemCredits p req wdata).fclkRuns then s.addMemCredits p req wdata
    else (s.addMemCredits p req wdata).memFlush.walksGo) = _
  rw [h.reset, if_neg (by decide), ht.fclkRuns, if_neg (by decide), State.memFlush_calm ht.ports,
    State.walksGo_calm ht.walks ht.ranges]

/-- R32: what a return of memory credits does. -/
theorem exec_memCreditReturn {s : State} (h : s.AtRest) (p req wdata : Nat) :
    exec (.memCreditReturn p req wdata) s = .next (s.fresh0.addMemCredits p req wdata).settle := by
  show finish (s.fresh0.memCredits p req wdata) = _
  rw [h.fresh0.memCredits, finish_of_service (h.fresh0.addMemCredits p req wdata).service]

/-- R24: what a return of fabric credits does while no flit waits. -/
theorem exec_fabCreditReturn {s : State} (h : s.AtRest) (hp : s.prov = []) (hh : s.heldOut = []) (p snp rsp dat : Nat) :
    exec (.fabCreditReturn p snp rsp dat) s = .next (s.fresh0.addFabCredits p snp rsp dat).settle := by
  let t := s.fresh0.addFabCredits p snp rsp dat
  have ht : t.AtRest := h.fresh0.addFabCredits p snp rsp dat
  have hflush : (if t.fclkRuns then t.flush else t) = t := by rw [State.flush_calm (s := t) hh, ite_self]
  show (let u := if t.fclkRuns then t.flush else t; finish (if u.gate == .serve then u.tidy else u)) = _
  rw [hflush]
  dsimp only
  rw [ht.gate, if_pos (by decide), ht.tidy hp, finish_of_service ht.service]

/-! ### The acknowledgement of a write-back (R32, R131) -/

/-- R131: what a write-back sector's entry is once the sector is dropped. -/
theorem State.wbAck_drops {s : State} {line i : Nat} (hout : ∀ x ∈ s.memOut, x.isWb line i = false) (hwait : s.memWait = []) :
    s.wbAck line i = s.wbDrop line i := by
  have hany : s.memOut.any (·.isWb line i) = false := List.any_eq_false.2 fun x hx => by simp [hout x hx]
  simp [State.wbAck, hany, hwait]

/-- R131, R134: with no fill and no transaction waiting, room in the write-back buffer lets nothing go on. -/
theorem State.Still.retryFills {s : State} (h : s.Still) (hp : s.prov = []) : s.retryFills = s := by
  simp only [State.retryFills, h.mrs, List.filter_nil, List.foldl_nil]
  rw [State.pumpAll_calm h.txns, h.tidy hp, State.walksGo_calm h.walks h.ranges]

/-- R32: the write of `r` is no longer outstanding. -/
def State.withoutWrite (r : MemReq) (s : State) : State := { s with memOut := s.memOut.erase r }

theorem State.AtRest.dropWrite {s : State} (h : s.AtRest) (r : MemReq) (line i : Nat) :
    ((s.withoutWrite r).wbDrop line i).AtRest := { h with }

/-- R32, R131: the acknowledgement of a write-back with no newer write of its sector under way. -/
theorem State.AtRest.acked {s : State} (h : s.AtRest) (hp : s.prov = []) {r : MemReq} {line i : Nat} (hu : r.use = .wback line i)
    (hnew : ∀ x ∈ s.memOut.erase r, x.isWb line i = false) : s.acked r = (s.withoutWrite r).wbDrop line i := by
  have hd := h.dropWrite r line i
  show (match r.use with
    | .wback line i => ((s.withoutWrite r).wbAck line i).retryFills
    | _ => (s.withoutWrite r).tidy.walksGo) = _
  rw [hu]
  dsimp only
  rw [State.wbAck_drops (s := s.withoutWrite r) hnew h.ports, hd.retryFills hp]

/-- R32, R131: what the acknowledgement of a write-back does when no newer write of its sector is under way. -/
theorem exec_wack {s : State} {p tag line i : Nat} {r : MemReq} (h : s.AtRest) (hp : s.prov = []) (hr : s.writeAt p tag = some r)
    (hu : r.use = .wback line i) (hnew : ∀ x ∈ s.memOut.erase r, x.isWb line i = false) :
    exec (.wack p tag 0) s = .next ((s.fresh0.withoutWrite r).wbDrop line i).settle := by
  have hflit : s.fresh0.wackFlit (.wack p tag 0) r 0 = (s.fresh0.withoutWrite r).wbDrop line i := by
    unfold State.wackFlit
    rw [h.fresh0.memGate]
    exact h.fresh0.acked hp hu hnew
  show (match s.writeAt p tag with
    | some r => finish (s.fresh0.wackFlit (.wack p tag 0) r 0)
    | none => s.notDue) = _
  rw [hr]
  dsimp only
  rw [hflit, finish_of_service (h.fresh0.dropWrite r line i).service]

/-- What the entry of a line becomes when its sector is dropped. -/
def WbEnt.without (i : Nat) (e : WbEnt) : WbEnt := if i == 0 then { e with lo := none } else { e with hi := none }

/-- One sector of an entry of the write-back buffer. -/
def WbEnt.sec (e : WbEnt) (i : Nat) : Option WbSec := if i == 0 then e.lo else e.hi

theorem WbEnt.without_line (i : Nat) (e : WbEnt) : (e.without i).line = e.line := by
  unfold WbEnt.without; split <;> rfl

theorem WbEnt.without_sec (e : WbEnt) (i j : Nat) : (e.without i).sec j = if i = 0 ↔ j = 0 then none else e.sec j := by
  by_cases hi : i = 0 <;> by_cases hj : j = 0 <;> simp [WbEnt.without, WbEnt.sec, hi, hj]

/-- The write-back buffer without a sector of a line. -/
theorem State.wbDrop_wbb (s : State) (line i : Nat) :
    (s.wbDrop line i).wbb =
      (s.wbb.map fun e => if e.line == line then e.without i else e).filter fun e => e.lo.isSome || e.hi.isSome := rfl

/-- A sector of a line in a list of entries. -/
def wbFind (l : List WbEnt) (line i : Nat) : Option WbSec := (l.find? (·.line == line)).bind (·.sec i)

theorem State.wbSec_eq (s : State) (line i : Nat) : s.wbSec line i = wbFind s.wbb line i := by
  unfold State.wbSec wbFind
  cases s.wbb.find? (·.line == line) <;> rfl

theorem wbFind_cons (e : WbEnt) (l : List WbEnt) (line i : Nat) :
    wbFind (e :: l) line i = if e.line == line then e.sec i else wbFind l line i := by
  unfold wbFind
  rw [List.find?_cons]
  cases e.line == line <;> rfl

/-- No sector of a line that has no entry is found. -/
theorem wbFind_absent {l : List WbEnt} {line : Nat} (h : line ∉ l.map (·.line)) (i : Nat) : wbFind l line i = none := by
  have hf : l.find? (·.line == line) = none := List.find?_eq_none.2 fun e he heq =>
    h (List.mem_map.2 ⟨e, he, by simpa using heq⟩)
  simp [wbFind, hf]

/-- With one entry of a line, entries without a sector may go. -/
theorem wbFind_filter {l : List WbEnt} (h : (l.map (·.line)).Nodup) (line i : Nat) :
    wbFind (l.filter fun e => e.lo.isSome || e.hi.isSome) line i = wbFind l line i := by
  induction l with
  | nil => rfl
  | cons e l ih =>
    obtain ⟨hnot, hl⟩ := List.nodup_cons.1 h
    rw [List.filter_cons, wbFind_cons]
    by_cases hk : (e.lo.isSome || e.hi.isSome) = true
    · rw [if_pos hk, wbFind_cons, ih hl]
    · rw [if_neg hk, ih hl]
      split
      · next heq =>
        have hlo : e.lo = none := by simp_all
        have hhi : e.hi = none := by simp_all
        rw [wbFind_absent (by rw [← eq_of_beq heq]; exact hnot)]
        simp [WbEnt.sec, hlo, hhi]
      · rfl

/-- The sectors found once a sector of a line is dropped from its entries. -/
theorem wbFind_without (l : List WbEnt) (line i n j : Nat) :
    wbFind (l.map fun e => if e.line == line then e.without i else e) n j =
      if n = line ∧ (i = 0 ↔ j = 0) then none else wbFind l n j := by
  induction l with
  | nil => simp [wbFind]
  | cons e l ih =>
    rw [List.map_cons, wbFind_cons, wbFind_cons, ih]
    by_cases hl : e.line = line
    · by_cases hn : line = n
      · simp [hl, hn, WbEnt.without_line, WbEnt.without_sec]
      · simp [hl, hn, WbEnt.without_line]
    · by_cases hn : e.line = n
      · subst hn
        simp [hl]
      · simp [hl, hn]

/-- The lines of the entries stay when a sector of a line is dropped from its entries. -/
theorem lines_without (l : List WbEnt) (line i : Nat) :
    (l.map fun e => if e.line == line then e.without i else e).map (·.line) = l.map (·.line) := by
  rw [List.map_map]
  refine List.map_congr_left fun e _ => ?_
  rw [Function.comp_apply, apply_ite WbEnt.line, WbEnt.without_line, ite_self]

/-- R131: the sectors of the write-back buffer once one is dropped. -/
theorem State.wbSec_wbDrop {s : State} (h : (s.wbb.map (·.line)).Nodup) (line i n j : Nat) :
    (s.wbDrop line i).wbSec n j = if n = line ∧ (i = 0 ↔ j = 0) then none else s.wbSec n j := by
  rw [State.wbSec_eq, State.wbSec_eq, State.wbDrop_wbb, wbFind_filter (by rw [lines_without]; exact h), wbFind_without]

/-! ### The flits of a fill and of a discarded read -/

/-- R32: what a flit of read data does. -/
theorem exec_memReadData {s : State} {f : MemFlit} {r : MemReq} (hr : s.readAt f.port f.mtag = some r)
    {t : State} (ht : s.fresh0.memFlit (.memReadData f) r f = t) (hs : t.power.state = .service) :
    exec (.memReadData f) s = .next t.settle := by
  show (match s.readAt f.port f.mtag with
    | some r => finish (s.fresh0.memFlit (.memReadData f) r f)
    | none => s.notDue) = _
  rw [hr]
  dsimp only
  rw [ht, finish_of_service hs]

/-- R130, R134: the last flit of a discarded read frees its register. -/
theorem State.readBack_discarded {s : State} {r : MemReq} {m : MissReg} (f : MemFlit) (hm : s.mrs = [m]) (hl : r.left = 1)
    (hs : r.spec = true) (hu : r.use = .plain) (ha : m.line = addrLine r.addr) (hd : m.st = .discard) :
    s.readBack r f = { s with mrs := [] } := by
  simp [State.readBack, hu, hs, hl, State.specDone, hm, ha, hd]

/-- R134: the first flit of a fill that may not allocate is kept in its register. -/
theorem State.fillFlit_keeps {s : State} {m : MissReg} (x : Sec) (ht : s.txns = []) (hb : s.bad = []) (hm : s.mrs = [m])
    (hst : m.st = .miss) (ha : m.alloc = false) (hw : m.wantHi = true) (hlo : m.loGot = none) (hhi : m.hiGot = none)
    (hl : s.lineOf m.line = none) :
    s.fillFlit m.line 0 x = s.withRegister { m with loGot := some x, st := .fill } := by
  have hput : { s with mrs := s.mrs.map fun (y : MissReg) =>
      if y.line == m.line && y.st != MrState.discard then
        (if 0 == 0 then { y with loGot := y.loGot <|> some x } else { y with hiGot := y.hiGot <|> some x })
      else y } = s.withRegister { m with loGot := some x } := by
    simp [State.withRegister, hm, hst, hlo]
  have hfill : (s.withRegister { m with loGot := some x }).fillUp m.line = s.withRegister { m with loGot := some x, st := .fill } :=
    State.fillUp_keeps (m := { m with loGot := some x }) rfl hb hst ha hw rfl hhi hl
  have hcalm : ∀ y ∈ (s.withRegister { m with loGot := some x, st := .fill }).mrs, y.st ≠ .drain := fun y hy => by
    rw [List.mem_singleton.1 hy]
    exact MrState.noConfusion
  unfold State.fillFlit
  rw [hput]
  dsimp only
  rw [hfill, State.pumpLine_calm m.line (s := s.withRegister _) ht hb hcalm]

/-- With one register that keeps a sector, the end of a meaning takes nothing up. -/
theorem State.AtRest.withRegister_idle {s : State} (h : State.AtRest { s with mrs := [] }) (hp : s.prov = []) (m : MissReg) :
    (s.withRegister m).Idle where
  txns := h.txns
  prov := hp
  holders := h.holders
  buckets := h.buckets
  after := h.after
  config := h.config
  phase := h.phase
  resilver := h.resilver

/-- R134: a flit of a fill that is kept in its register lets nothing else go on. -/
theorem State.readBack_kept {s : State} {r : MemReq} {m : MissReg} {f : MemFlit} (h : State.AtRest { s with mrs := [] })
    (hp : s.prov = []) (hm : s.mrs = [m]) (hu : r.use = .fillLine m.line) (hf : f.sector = 0) (hst : m.st = .miss)
    (ha : m.alloc = false) (hw : m.wantHi = true) (hlo : m.loGot = none) (hhi : m.hiGot = none) (hl : s.lineOf m.line = none) :
    s.readBack r f = s.withRegister { m with loGot := some (Sec.clean f.data f.poison), st := .fill } := by
  have ht : s.txns = [] := h.txns
  have hb : s.bad = [] := h.bad
  unfold State.readBack
  rw [hu]
  dsimp only
  rw [hf, State.fillFlit_keeps _ ht hb hm hst ha hw hlo hhi hl, (State.AtRest.withRegister_idle h hp _).tidy]
  exact State.walksGo_calm h.walks h.ranges

end Sys2Proof.Machine

open Sys2Proof Sys2Proof.Machine

/-- Settles O28: each arrival on a port of a slice at rest does its own work and lets nothing else go on. -/
theorem portAnswers : Obligations.PortAnswers := by
  unfold Obligations.PortAnswers
  refine ⟨fun s f r m h hp hm hr hf => ?_, fun s p req wdata h hp => ?_, fun s p tag line i r h hp hi hr hu hnew hn => ?_,
    fun s p snp rsp dat h hp hh => ?_⟩
  · have hsv : s.power.state = .service := h.service
    obtain ⟨a, g, x, n, hx, hhist⟩ := State.memFlit_serve (s := s.fresh0) (State.memGate_serve h.service h.clock h.reset) h.bad
      (.memReadData f) r hf
    refine ⟨?_, ?_⟩
    · intro hl hs hu ha hd
      rw [State.readBack_discarded f (by exact hm) hl hs hu ha hd] at hx
      refine ⟨_, exec_memReadData hr hx hsv, rfl, ?_, rfl, rfl, rfl, rfl, rfl, s.frame_of_ports hhist⟩
      exact if_pos hl.le
    · intro hl hu hsec hst ha hwl hwh hlo hhi hno
      rw [State.readBack_kept (by exact { h with }) (by exact hp) (by exact hm) hu hsec hst ha hwh hlo hhi (by exact hno)] at hx
      refine ⟨_, exec_memReadData hr hx hsv, rfl, ?_, rfl, rfl, rfl, rfl, rfl, s.frame_of_ports hhist⟩
      show (if r.left ≤ 1 then _ else _) = _
      rw [if_neg (by omega), hl]
      rfl
  · exact ⟨_, exec_memCreditReturn h p req wdata, rfl, rfl, rfl, rfl, rfl, rfl, s.frame_of_ports fun _ => rfl⟩
  · have hsec : ∀ n j, (((s.fresh0.withoutWrite r).wbDrop line i).settle).wbSec n j =
        if n = line ∧ (i = 0 ↔ j = 0) then none else s.wbSec n j := fun n j =>
      State.wbSec_wbDrop (s := s.fresh0.withoutWrite r) hn line i n j
    refine ⟨_, exec_wack h hp hr hu hnew, rfl, ?_, ?_, fun n j hne => ?_, rfl, rfl, rfl, rfl, s.frame_of_ports fun _ => rfl⟩
    · simp [hsec]
    · rw [hsec, if_neg (by omega)]
    · rw [hsec, if_neg fun hc => hne hc.1]
  · exact ⟨_, exec_fabCreditReturn h hp hh p snp rsp dat, rfl, rfl, rfl, rfl, rfl, rfl, s.frame_of_ports fun _ => rfl⟩

end

section
/-! Proofs about placement and handover (sitting 2): the statements O3 and O36. -/

namespace Sys2Proof.Machine
open Sys2Proof

/-! ### The hashes of an address (R55, R65) -/

/-- A field of the line of an address is a field of the address, 7 bits higher. -/
theorem bits_addrLine (a : BitVec 52) (hi lo : Nat) :
    bits (addrLine a.toNat) hi lo = (a.extractLsb' (lo + 7) (hi + 1 - lo)).toNat := by
  have hline : addrLine a.toNat = a.toNat >>> 7 := by
    refine Nat.mod_eq_of_lt ?_
    rw [Nat.shiftRight_eq_div_pow]
    have := a.isLt
    omega
  rw [bits, hline, ← Nat.shiftRight_add, Nat.add_comm 7 lo, BitVec.extractLsb'_toNat]

/-- R65: the set folds the line's low 16 bits with a value of the bits above them. -/
theorem setOf_eq (n : Nat) : setOf n = n % 2 ^ 16 ^^^ ((n >>> 16) % 2 ^ 16 ^^^ (n >>> 16) >>> 16 % 2 ^ 13) := by
  rw [← Nat.shiftRight_add, ← Nat.xor_assoc]
  rfl

/-- R65: the set together with the bits above the line's low 16 determines the line. -/
theorem line_eq_of_setOf_eq {n m : Nat} (hhigh : n >>> 16 = m >>> 16) (hset : setOf n = setOf m) : n = m := by
  have hlow : n % 2 ^ 16 = m % 2 ^ 16 := by
    rw [setOf_eq, setOf_eq, hhigh] at hset
    exact Nat.xor_left_injective hset
  simp only [Nat.shiftRight_eq_div_pow] at hhigh
  omega

/-- The bits of the line above its low 16 are the address bits [51:23]. -/
theorem addrLine_shiftRight (a : BitVec 52) : addrLine a.toNat >>> 16 = (a.extractLsb' 23 29).toNat := by
  rw [← bits_addrLine a 44 16, bits, Nat.mod_eq_of_lt]
  have hlt : addrLine a.toNat < 2 ^ 45 := Nat.mod_lt _ (Nat.two_pow_pos _)
  rw [Nat.shiftRight_eq_div_pow]
  omega

/-! ### A release whose bucket has a collect under way (R70, R254) -/

/-- The collect that a fabric request asked for (R254), with its outputs written from address 0x2000. -/
def requestedCollect : ColArgs := { d0 := 0, d1 := 0, dst := 0x2000, noOut := false, gen := 0, req := some (0, 1, none) }

/-- The write of an output of window 0 that its controller has not acknowledged. -/
def outputWrite : MemReq :=
  { port := 0, mopc := 4, addr := 0x2000, size := 6, part := 0, use := .collect 0, data := some (0, false) }

/-- Slice 0 of two, at rest and the home of bucket 0. Window 0, whose header line lies in bucket 0, is `COLLECTED`: its collect waits
for `outputWrite`, so the request for it is accepted and not yet completed. -/
def releaseWhileCollecting : State :=
  { power := { state := .service, rstLow := false },
    cfg := { inForce := true, slices := 2, map := 0 :: List.replicate 1023 1 },
    wins := [{ st := .collected, col := some requestedCollect }], memOut := [outputWrite] }

/-- `BUCKET_HANDOVER` of bucket 0 to slice 1, with the list at address 0x40. -/
def releaseBucket0 : MbCmd := { args := [0x1000, 0x40] }

theorem releaseWhileCollecting_atRest : releaseWhileCollecting.AtRest :=
  ⟨⟨rfl, rfl, rfl, by decide, rfl, rfl, rfl, rfl, rfl, rfl, rfl, rfl, rfl, rfl, rfl, rfl, rfl, rfl, rfl, rfl, rfl, rfl, rfl, rfl⟩, rfl⟩

theorem releaseWhileCollecting_accepts : releaseWhileCollecting.Accepts 0x0F (releaseBucket0.force 0 1 0 1) where
  reach := rfl
  there := by decide
  free := by decide
  ok := by decide +kernel
  powered := rfl
  phase := rfl

/-- R70 step 4: the release waits in its first phase for the request to complete. -/
theorem release_waits_for_collect :
    nextView (fun t => t.hand.buckets.map (·.phase)) (exec (.handoverRelease releaseBucket0) releaseWhileCollecting) = some [0] := by
  decide +kernel

end Sys2Proof.Machine

open Sys2Proof Sys2Proof.Machine

/-- Settles O3: the folds are those of the address's own fields, and the set gives back the low bits of the line. -/
theorem addressHashes : Obligations.AddressHashes := by
  refine fun a => ⟨?_, ?_, fun b hhigh hset => ?_⟩
  · simp only [bucketOf, bits_addrLine, BitVec.toNat_xor, BitVec.toNat_setWidth_of_le (show 5 ≤ 10 by decide)]
  · simp only [Machine.setOf, bits_addrLine, BitVec.toNat_xor, BitVec.toNat_setWidth_of_le (show 13 ≤ 16 by decide)]
  · refine line_eq_of_setOf_eq ?_ hset
    rw [addrLine_shiftRight, addrLine_shiftRight, hhigh]

/-- Refutes O36: its third clause says that a release passes both phases at once when the slice holds no line, entry or write-back of
the bucket. A collect that a request to a header line of the bucket asked for may still be under way in a slice at rest
(`releaseWhileCollecting`), and R70 step 4 then keeps the release in its first phase. -/
theorem not_handoverRoles : ¬ Obligations.HandoverRoles := by
  intro h
  obtain ⟨-, -, hrelease, -⟩ := h
  obtain ⟨t, he, -, hbuckets, -⟩ := hrelease releaseWhileCollecting releaseBucket0 releaseWhileCollecting_atRest
    releaseWhileCollecting_accepts (by decide +kernel) rfl (by decide) (by decide) (by decide)
  have hphase : t.hand.buckets.map (·.phase) = [0] := view_of_next release_waits_for_collect he
  have hhome : releaseWhileCollecting.bucketSt (bits ((releaseBucket0.force 0 1 0 1).arg 0) 11 2) ≠ .relay := by decide +kernel
  rw [hbuckets, if_neg hhome] at hphase
  exact absurd hphase (by decide)

end

section

/-! Proofs about what every step keeps (sitting 4): the number of each of the slice's parts, and the lens slots without cause for a
descriptor (R119).

`State.parts` gathers the number of each part. A layer of `simp` lemmas, one per function of the model and in the model's order,
says that the function leaves it (`State.X_parts`), and one per command that its meaning does (`execX_keeps`); `step_keepsShape` is
assembled from them. -/

namespace Sys2Proof.Machine
open Sys2Proof

/-- How many there are of each of the slice's parts: what `State.Shaped` speaks of. -/
@[ext] structure Parts where
  fab : Nat
  mem : Nat
  wins : Nat
  lens : Nat
  chans : Nat
  slots : Nat
  tdc : Nat
  ops : Nat
  change : Nat
  mbs : Nat
  pws : Nat
  scale : Nat
  ctr : Nat
  hist : Nat

/-- The number of each part in a state. -/
def State.parts (s : State) : Parts :=
  ⟨s.fab.length, s.mem.length, s.wins.length, s.lens.slots.length, s.cue.chans.length, s.cue.slots.length, s.xlt.tdc.length,
   s.xlt.opBusy.length, s.xlt.change.length, s.mbs.length, s.pws.length, s.reg.scale.length, s.ctr.length, s.hist.length⟩

/-- The parts of a slice with all of them. -/
def Parts.whole : Parts :=
  { fab := 8, mem := 4, wins := 64, lens := 256, chans := 16, slots := 512, tdc := 48, ops := 16, change := 16, mbs := 17,
    pws := 16, scale := 5, ctr := 48, hist := 64 }

theorem State.reset_parts : State.reset.parts = Parts.whole := by
  have n {α} (k : Nat) (a : α) : (List.replicate k a).length = k := List.length_replicate
  exact Parts.ext (n ..) (n ..) (n ..) (n ..) (n ..) (n ..) (n ..) (n ..) (n ..) (n ..) (n ..) (n ..) (n ..) (n ..)

/-- Folds a projection of every part back to the state it came from. -/
@[simp] theorem Parts.of_state (s : State) :
    Parts.mk s.fab.length s.mem.length s.wins.length s.lens.slots.length s.cue.chans.length s.cue.slots.length s.xlt.tdc.length
      s.xlt.opBusy.length s.xlt.change.length s.mbs.length s.pws.length s.reg.scale.length s.ctr.length s.hist.length = s.parts := rfl

@[simp] theorem State.parts_mk (fab mem heldOut memWait memOut cfg arr dir rot wbb mrs txns nextId waiting prov wins folds lanes lens reg
    cue xlt hot presc mbs pws regs elog meas ctr hist power fuses res hand down acks ranges walks span test upsets bad acts sig
    ctrBit fresh out pending) :
    State.parts ⟨fab, mem, heldOut, memWait, memOut, cfg, arr, dir, rot, wbb, mrs, txns, nextId, waiting, prov, wins, folds, lanes,
      lens, reg, cue, xlt, hot, presc, mbs, pws, regs, elog, meas, ctr, hist, power, fuses, res, hand, down, acks, ranges, walks,
      span, test, upsets, bad, acts, sig, ctrBit, fresh, out, pending⟩ =
    ⟨fab.length, mem.length, wins.length, lens.slots.length, cue.chans.length, cue.slots.length, xlt.tdc.length,
      xlt.opBusy.length, xlt.change.length, mbs.length, pws.length, reg.scale.length, ctr.length, hist.length⟩ := rfl

@[simp] theorem State.parts_ite (c : Prop) [Decidable c] (s t : State) : (if c then s else t).parts = if c then s.parts else t.parts :=
  apply_ite ..

@[simp] theorem parts_foldl {α} (f : State → α → State) (h : ∀ s a, (f s a).parts = s.parts) (l : List α) (s : State) :
    (l.foldl f s).parts = s.parts := by
  induction l generalizing s with
  | nil => rfl
  | cons a l ih => exact (ih _).trans (h s a)

@[simp] theorem State.fresh0_scale (s : State) : s.fresh0.reg.scale = s.reg.scale := rfl
@[simp] theorem State.setBal_scale (g r f) (s : State) : (s.setBal g r f).reg.scale = s.reg.scale := rfl
@[simp] theorem State.runAs_scale (g a) (s : State) : (s.runAs g a).reg.scale = s.reg.scale := rfl

@[simp] theorem State.setWin_wins_length (w f) (s : State) : (s.setWin w f).wins.length = s.wins.length := List.length_modify ..
@[simp] theorem State.setSlot_slots_length (i f) (s : State) : (s.setSlot i f).cue.slots.length = s.cue.slots.length :=
  List.length_modify ..
@[simp] theorem State.setSlot_chans (i f) (s : State) : (s.setSlot i f).cue.chans = s.cue.chans := rfl
@[simp] theorem State.settle_slots_length (s : State) : s.settle.lens.slots.length = s.lens.slots.length := by simp [State.settle]
@[simp] theorem State.useOf_scale (g r n) (s : State) : (s.useOf g r n).reg.scale = s.reg.scale := by
  unfold State.useOf
  split <;> rfl
@[simp] theorem State.ctrParity_ctr_length (i) (s : State) : (s.ctrParity i).ctr.length = s.ctr.length := by
  unfold State.ctrParity
  split <;> simp

/-- A meaning that ends through `finish`, in a state with as many of each part as before. -/
def KeepsParts (s : State) (r : Res) : Prop := ∃ x, r = finish x ∧ x.parts = s.parts

@[simp] theorem keepsParts_ite (c : Prop) [Decidable c] (s : State) (a b : Res) :
    KeepsParts s (if c then a else b) ↔ if c then KeepsParts s a else KeepsParts s b := by split <;> rfl

theorem eq_pair_iff {α β} {p : α × β} {a : α} {b : β} : p = (a, b) ↔ p.1 = a ∧ b = p.2 := by
  rw [Prod.ext_iff, eq_comm (a := b)]

theorem parts_elim {α} (o : Option α) (s t : State) (f : α → State) (hs : s.parts = t.parts) (hf : ∀ a, (f a).parts = t.parts) :
    (o.elim s f).parts = t.parts := by
  cases o with
  | none => exact hs
  | some a => exact hf a

theorem parts_ite_of (c : Prop) [Decidable c] {s t u : State} (hs : s.parts = u.parts) (ht : t.parts = u.parts) :
    (if c then s else t).parts = u.parts := by
  split
  · exact hs
  · exact ht

theorem foldl_snd_parts {α β} (f : β × State → α → β × State) (h : ∀ x a, (f x a).2.parts = x.2.parts) (l : List α) (x : β × State) :
    (l.foldl f x).2.parts = x.2.parts := by
  induction l generalizing x with
  | nil => rfl
  | cons a l ih => exact (ih _).trans (h x a)

/-! ### Machine/Ops.lean -/

@[simp] theorem State.fresh0_parts (s : State) : (s.fresh0).parts = s.parts := by simp [State.fresh0]
@[simp] theorem State.log_parts (r) (s : State) : (s.log r).parts = s.parts := by simp [State.log]
@[simp] theorem State.ctrParity_parts (i) (s : State) : (s.ctrParity i).parts = s.parts := by simp [State.ctrParity]
@[simp] theorem State.binParity_parts (i) (s : State) : (s.binParity i).parts = s.parts := by simp [State.binParity]
@[simp] theorem State.measure_parts (src part) (s : State) : (s.measure src part).parts = s.parts := by simp [State.measure]
@[simp] theorem State.sign_parts (src mask val part) (s : State) : (s.sign src mask val part).parts = s.parts := by
  simp [State.sign]
@[simp] theorem State.countN_parts (ev part n) (s : State) : (s.countN ev part n).parts = s.parts := by simp [State.countN]
@[simp] theorem State.count_parts (ev part) (s : State) : (s.count ev part).parts = s.parts := by simp [State.count]
@[simp] theorem State.setBal_parts (g r f) (s : State) : (s.setBal g r f).parts = s.parts := by simp [State.setBal]
@[simp] theorem State.useOf_parts (g r n) (s : State) : (s.useOf g r n).parts = s.parts := by unfold State.useOf; split <;> simp
@[simp] theorem State.use_parts (r n) (s : State) : (s.use r n).parts = s.parts := by simp [State.use]
@[simp] theorem State.runAs_parts (g) (s : State) (agent) : (s.runAs g agent).parts = s.parts := by simp [State.runAs]
@[simp] theorem State.runLike_parts (s t : State) : (s.runLike t).parts = t.parts := by simp [State.runLike]
@[simp] theorem State.answered_parts (port txid tag data) (s : State) : (s.answered port txid tag data).parts = s.parts := by
  unfold State.answered
  split <;> simp
@[simp] theorem State.asRequest_parts (port txid tag) (s : State) : (s.asRequest port txid tag).parts = s.parts := by
  unfold State.asRequest
  split <;> simp
@[simp] theorem State.follow_parts (port txid tag src) (s : State) : (s.follow port txid tag src).parts = s.parts := by
  simp [State.follow]
@[simp] theorem State.refund_parts (port txid tag) (s : State) : (s.refund port txid tag).parts = s.parts := by
  unfold State.refund
  split <;> simp
@[simp] theorem State.act_parts (i n) (s : State) : (s.act i n).parts = s.parts := by simp [State.act]
@[simp] theorem State.spend_parts (pc) (s : State) : (s.spend pc).parts = s.parts := by simp [State.spend]
@[simp] theorem State.bufError_parts (d part line i word) (s : State) : (s.bufError d part line i word).parts = s.parts := by
  simp [State.bufError]
@[simp] theorem State.bufFault_parts (d part) (s : State) : (s.bufFault d part).parts = s.parts := by
  unfold State.bufFault
  split <;> simp
@[simp] theorem State.staged_parts (line i part) (s : State) : (s.staged line i part).2.parts = s.parts := by
  unfold State.staged
  split <;> simp
@[simp] theorem State.readOutBuf_parts (f) (s : State) : (s.readOutBuf f).2.parts = s.parts := by
  unfold State.readOutBuf
  split <;> simp
@[simp] theorem State.emitOf_parts (p f) (s : State) : (s.emitOf p f).parts = s.parts := by unfold State.emitOf; split <;> simp
@[simp] theorem State.emit_parts (f) (s : State) : (s.emit f).parts = s.parts := by simp [State.emit]
@[simp] theorem State.flush_parts (s : State) : (s.flush).parts = s.parts := by simp [State.flush]
@[simp] theorem State.grantCredits_parts (s : State) : (s.grantCredits).parts = s.parts := by simp [State.grantCredits]
@[simp] theorem State.logSpan_parts (source lane width addr) (s : State) :
    (s.logSpan source lane width addr).parts = s.parts := by
  simp [State.logSpan]
@[simp] theorem State.replaySpan_parts (s : State) : (s.replaySpan).parts = s.parts := by simp [State.replaySpan]
@[simp] theorem State.remapLane_parts (lane) (s : State) : (s.remapLane lane).parts = s.parts := by simp [State.remapLane]
@[simp] theorem State.remapDue_parts (s : State) : (s.remapDue).parts = s.parts := by simp [State.remapDue]
@[simp] theorem State.sendFrame_parts (r) (s : State) : (s.sendFrame r).parts = s.parts := by simp [State.sendFrame]
@[simp] theorem State.ackFrame_parts (kind) (s : State) : (s.ackFrame kind).parts = s.parts := by simp [State.ackFrame]
@[simp] theorem State.spanOut_parts (r) (s : State) : (s.spanOut r).parts = s.parts := by simp [State.spanOut]
@[simp] theorem State.spanPut_parts (w) (s : State) : (s.spanPut w).parts = s.parts := by simp [State.spanPut]
@[simp] theorem State.spanSend_parts (r) (s : State) : (s.spanSend r).parts = s.parts := by simp [State.spanSend]
@[simp] theorem State.spanDrain_parts (n : Nat) (s : State) : (s.spanDrain n).parts = s.parts := by
  induction n generalizing s with
  | zero => rfl
  | succ n ih =>
    unfold State.spanDrain
    split <;> simp [ih]
@[simp] theorem State.spanFlush_parts (s : State) : (s.spanFlush).parts = s.parts := by simp [State.spanFlush]
@[simp] theorem State.readStaged_parts (r) (s : State) : (s.readStaged r).2.parts = s.parts := by
  unfold State.readStaged
  repeat' split
  all_goals simp
@[simp] theorem State.memOutput_parts (r) (s : State) : (s.memOutput r).parts = s.parts := by
  simp only [State.memOutput]
  split <;> simp
@[simp] theorem State.memPut_parts (r) (s : State) : (s.memPut r).parts = s.parts := by simp [State.memPut]
@[simp] theorem State.memSend_parts (r) (s : State) : (s.memSend r).parts = s.parts := by simp [State.memSend]
@[simp] theorem State.memDrain_parts (n : Nat) (s : State) : (s.memDrain n).parts = s.parts := by
  induction n generalizing s with
  | zero => rfl
  | succ n ih =>
    unfold State.memDrain
    split <;> simp [ih]
@[simp] theorem State.memFlush_parts (s : State) : (s.memFlush).parts = s.parts := by simp [State.memFlush]
@[simp] theorem State.readUc_parts (addr part use) (s : State) : (s.readUc addr part use).parts = s.parts := by
  simp [State.readUc]
@[simp] theorem State.writeUc_parts (addr size part d poison use) (s : State) :
    (s.writeUc addr size part d poison use).parts = s.parts := by
  simp [State.writeUc]
@[simp] theorem State.respond_parts (port txid tag st grant isOpen) (s : State) :
    (s.respond port txid tag st grant isOpen).parts = s.parts := by
  simp only [State.respond]
  split <;> simp
@[simp] theorem State.sendDat_parts (port txid partialAttr fl) (s : State) :
    (s.sendDat port txid partialAttr fl).parts = s.parts := by
  simp [State.sendDat]
@[simp] theorem State.respondData_parts (port txid tag st grant isOpen part fl) (s : State) :
    (s.respondData port txid tag st grant isOpen part fl).parts = s.parts := by
  simp only [State.respondData]
  split <;> simp
@[simp] theorem State.mbDone_parts (w st res) (s : State) : (s.mbDone w st res).parts = s.parts := by simp [State.mbDone]
@[simp] theorem State.mbRefuse_parts (w e) (s : State) : (s.mbRefuse w e).parts = s.parts := by simp [State.mbRefuse]
@[simp] theorem State.measBump_parts (s : State) : (s.measBump).parts = s.parts := by simp [State.measBump]
@[simp] theorem State.abortAll_parts (s : State) : (s.abortAll).parts = s.parts := by
  simp only [State.abortAll, State.parts_mk, List.length_map, Parts.of_state]
  refine (parts_foldl _ (fun t b => ?_) _ _).trans ?_
  · split <;> simp
  refine (parts_foldl _ (fun t w => by simp) _ _).trans ?_
  refine (parts_foldl _ (fun t f => by simp) _ _).trans ?_
  refine (parts_foldl _ (fun t r => by simp) _ _).trans ?_
  refine (parts_foldl _ (fun t e => by simp) _ _).trans ?_
  refine (parts_foldl _ (fun t x => ?_) _ _).trans (by simp)
  split
  · simp only [State.parts_ite, State.respond_parts, ite_self]
    exact parts_foldl _ (fun t k => by split <;> simp) _ _
  · exact parts_foldl _ (fun t k => by split <;> simp) _ _
@[simp] theorem State.dropLoad_parts (s : State) : (s.dropLoad).parts = s.parts := by simp [State.dropLoad]
@[simp] theorem State.fatal_parts (s : State) : (s.fatal).parts = s.parts := by simp [State.fatal]
@[simp] theorem State.report_parts (r) (s : State) : (s.report r).parts = s.parts := by simp [State.report]
@[simp] theorem State.reportFree_parts (mk) (s : State) : (s.reportFree mk).parts = s.parts := by simp [State.reportFree]
@[simp] theorem State.badEntry_parts (d kind num) (s : State) : (s.badEntry d kind num).parts = s.parts := by
  simp [State.badEntry]
@[simp] theorem State.entryRead_parts (d kind num) (s : State) : (s.entryRead d kind num).parts = s.parts := by
  simp [State.entryRead]
@[simp] theorem State.flitCheck_parts (flips port chan) (s : State) : (s.flitCheck flips port chan).2.parts = s.parts := by
  unfold State.flitCheck
  repeat' split
  all_goals simp
@[simp] theorem State.metFault_parts (j) (s : State) : (s.metFault j).parts = s.parts := by simp [State.metFault]
@[simp] theorem State.metAll_parts (l) (s : State) : (s.metAll l).parts = s.parts := by simp [State.metAll]
@[simp] theorem State.cfgError_parts (region double) (s : State) : (s.cfgError region double).parts = s.parts := by
  simp [State.cfgError]
@[simp] theorem State.cfgRead_parts (w) (s : State) : (s.cfgRead w).parts = s.parts := by
  simp only [State.cfgRead]
  repeat' split
  all_goals simp
@[simp] theorem State.setWin_parts (w f) (s : State) : (s.setWin w f).parts = s.parts := by simp [State.setWin]
@[simp] theorem State.setLens_parts (i f) (s : State) : (s.setLens i f).parts = s.parts := by simp [State.setLens]
@[simp] theorem State.pwStatus_parts (p b) (s : State) : (s.pwStatus p b).parts = s.parts := by simp [State.pwStatus]
@[simp] theorem State.setStatus_parts (b) (s : State) : (s.setStatus b).parts = s.parts := by simp [State.setStatus]
@[simp] theorem State.setTxn_parts (id f) (s : State) : (s.setTxn id f).parts = s.parts := by simp [State.setTxn]
@[simp] theorem State.dropTxn_parts (id) (s : State) : (s.dropTxn id).parts = s.parts := by simp [State.dropTxn]
@[simp] theorem State.setSlot_parts (i f) (s : State) : (s.setSlot i f).parts = s.parts := by simp [State.setSlot]
@[simp] theorem State.slotReady_parts (i code isErr mark) (s : State) : (s.slotReady i code isErr mark).parts = s.parts := by
  simp [State.slotReady]
@[simp] theorem State.srcDone_parts (src st res mark) (s : State) : (s.srcDone src st res mark).parts = s.parts := by
  unfold State.srcDone
  split <;> simp
@[simp] theorem State.srcRefuse_parts (src e) (s : State) : (s.srcRefuse src e).parts = s.parts := by
  unfold State.srcRefuse
  split <;> simp

/-! ### Machine/Debug.lean -/

@[simp] theorem State.edge_parts (i) (s : State) : (s.edge i).parts = s.parts := by simp [State.edge]
@[simp] theorem State.edges_parts (s : State) : (s.edges).parts = s.parts := by
  simp [State.edges]

/-- The edges keep the number of counters. -/
@[simp] theorem State.edges_ctr_length (s : State) : s.edges.ctr.length = s.ctr.length := congrArg Parts.ctr s.edges_parts

/-! ### Machine/Lens.lean -/

@[simp] theorem State.settle_parts (s : State) : (s.settle).parts = s.parts := by simp [State.settle]
@[simp] theorem keepsParts_finish (s x : State) : KeepsParts s (finish x) ↔ x.parts = s.parts := by
  refine ⟨fun ⟨y, hy, hp⟩ => ?_, fun h => ⟨x, rfl, h⟩⟩
  have h : x.settle.edges = y.settle.edges := Host.Outcome.next.inj hy
  rw [← hp, ← State.settle_parts x, ← State.edges_parts, h]
  simp
@[simp] theorem State.notDue_keeps (s : State) : KeepsParts s (s.notDue) := by simp [State.notDue]
@[simp] theorem dropPred_length (i : Nat) (l : List LensSlot) : (dropPred i l).length = l.length := List.length_map ..
@[simp] theorem State.sendVers_parts (s : State) : (s.sendVers).parts = s.parts := by
  simp only [State.sendVers]
  split
  · simp
  · refine (parts_foldl _ (fun t i => ?_) _ _).trans (by simp)
    split <;> simp
@[simp] theorem State.swapSets_parts (s : State) : (s.swapSets).parts = s.parts := by simp [State.swapSets]
@[simp] theorem restageChanged_length (old l : List LensSlot) : (restageChanged old l).length = l.length := by simp [restageChanged]

/-- A fold of steps that keep the length of a list keeps it. -/
@[simp] theorem length_foldl {α β} (f : List α → β → List α) (h : ∀ l b, (f l b).length = l.length) (m : List β) (l : List α) :
    (m.foldl f l).length = l.length := by
  induction m generalizing l with
  | nil => rfl
  | cons b m ih => exact (ih _).trans (h l b)
@[simp] theorem State.replaceShadow_parts (ds : Option (List Desc)) (tint : Option (BitVec 32)) (bare : Bool) (s : State) :
    (s.replaceShadow ds tint bare).parts = s.parts := by
  cases ds with
  | none => simp [State.replaceShadow]
  | some ds =>
    simp only [State.replaceShadow, State.parts_mk, restageChanged_length]
    rw [length_foldl]
    · simp
    · intro l d
      split <;> simp
@[simp] theorem State.setPers_parts (i src dst pers) (s : State) : (s.setPers i src dst pers).parts = s.parts := by
  simp only [State.setPers]
  split <;> simp
@[simp] theorem State.lensOp_parts (o) (s : State) : (s.lensOp o).parts = s.parts := by unfold State.lensOp; split <;> simp
@[simp] theorem State.runLens_parts (n : Nat) (s : State) : (s.runLens n).parts = s.parts := by
  induction n generalizing s with
  | zero => rfl
  | succ n ih =>
    unfold State.runLens
    split <;> simp [ih]
@[simp] theorem State.runToSwap_parts (n : Nat) (s : State) : (s.runToSwap n).parts = s.parts := by
  induction n generalizing s with
  | zero => rfl
  | succ n ih =>
    unfold State.runToSwap
    split <;> simp [ih]
@[simp] theorem State.acceptLens_parts (o) (s : State) : (s.acceptLens o).parts = s.parts := by simp [State.acceptLens]
@[simp] theorem dropPreds_length (d : List Nat) (l : List LensSlot) : (dropPreds d l).length = l.length := List.length_map ..
@[simp] theorem State.loadSets_parts (ds : List Desc) (tint : BitVec 32) (s : State) : (s.loadSets ds tint).parts = s.parts := by
  simp [State.loadSets]
@[simp] theorem State.clearStopped_parts (lens) (s : State) : (s.clearStopped lens).parts = s.parts := by
  simp [State.clearStopped]
@[simp] theorem State.resetRings_parts (base size) (s : State) : (s.resetRings base size).parts = s.parts := by
  simp [State.resetRings]

/-! ### Machine/Flags.lean -/

@[simp] theorem State.notIdle_parts (s : State) : (s.notIdle).parts = s.parts := by simp [State.notIdle]
@[simp] theorem State.wakeUp_parts (s : State) : (s.wakeUp).parts = s.parts := by simp [State.wakeUp]
@[simp] theorem State.keepFor_parts (i) (s : State) : (s.keepFor i).parts = s.parts := by simp [State.keepFor]
@[simp] theorem State.csrp_parts (e data) (s : State) : (s.csrp e data).parts = s.parts := by simp [State.csrp]
@[simp] theorem State.csrGate_parts (i : Instr) (act : State → State) (h : ∀ t : State, (act t).parts = t.parts) (s : State) :
    (s.csrGate i act).parts = s.parts := by
  simp [State.csrGate, h]

/-! ### Machine/Mailbox.lean -/

@[simp] theorem State.mbWrite_parts (op : Nat) (m : MbCmd) (run : MbCmd → State → State)
    (h : ∀ m (t : State), (run m t).parts = t.parts) (s : State) : (s.mbWrite op m run).parts = s.parts := by
  simp only [State.mbWrite]
  repeat' split
  all_goals simp [h]

/-! ### Machine/Array.lean -/

@[simp] theorem State.putLine_parts (c) (s : State) : (s.putLine c).parts = s.parts := by simp [State.putLine]
@[simp] theorem State.delLine_parts (c) (s : State) : (s.delLine c).parts = s.parts := by simp [State.delLine]
@[simp] theorem State.sendVoid_parts (e) (s : State) : (s.sendVoid e).parts = s.parts := by
  unfold State.sendVoid
  repeat' split
  all_goals simp
@[simp] theorem State.voidEnts_parts (hit) (s : State) : (s.voidEnts hit).parts = s.parts := by simp [State.voidEnts]
@[simp] theorem State.voidProv_parts (line) (s : State) : (s.voidProv line).parts = s.parts := by simp [State.voidProv]
@[simp] theorem State.putGot_parts (line i d p) (s : State) : (s.putGot line i d p).parts = s.parts := by simp [State.putGot]
@[simp] theorem State.wbPut_parts (line part i d poison) (s : State) : (s.wbPut line part i d poison).parts = s.parts := by
  simp [State.wbPut]
@[simp] theorem State.wbDrop_parts (line i) (s : State) : (s.wbDrop line i).parts = s.parts := by simp [State.wbDrop]
@[simp] theorem State.wbAck_parts (line i) (s : State) : (s.wbAck line i).parts = s.parts := by simp [State.wbAck]
@[simp] theorem State.wbLine_parts (c) (s : State) : (s.wbLine c).parts = s.parts := by simp [State.wbLine]
@[simp] theorem State.noteDead_parts (line) (s : State) : (s.noteDead line).parts = s.parts := by simp [State.noteDead]
@[simp] theorem State.unlistDead_parts (line) (s : State) : (s.unlistDead line).parts = s.parts := by simp [State.unlistDead]
@[simp] theorem State.readTags_parts (set) (s : State) : (s.readTags set).parts = s.parts := by
  unfold State.readTags
  split <;> simp
@[simp] theorem State.readDirSet_parts (set) (s : State) : (s.readDirSet set).parts = s.parts := by
  unfold State.readDirSet
  split <;> simp
@[simp] theorem State.bankRead_parts (way) (s : State) : (s.bankRead way).parts = s.parts := by simp [State.bankRead]
@[simp] theorem State.bankWrite_parts (way n) (s : State) : (s.bankWrite way n).parts = s.parts := by simp [State.bankWrite]
@[simp] theorem State.readData_parts (c i) (s : State) : (s.readData c i).parts = s.parts := by
  simp only [State.readData]
  repeat' split
  all_goals simp
@[simp] theorem State.readTag_parts (line) (s : State) : (s.readTag line).parts = s.parts := by simp [State.readTag]
@[simp] theorem State.readLookup_parts (line) (s : State) : (s.readLookup line).parts = s.parts := by simp [State.readLookup]
@[simp] theorem State.readLineData_parts (line wantLo wantHi) (s : State) :
    (s.readLineData line wantLo wantHi).parts = s.parts := by
  simp only [State.readLineData]
  repeat' split
  all_goals simp
@[simp] theorem State.spoil_parts (line i) (s : State) : (s.spoil line i).parts = s.parts := by simp [State.spoil]
@[simp] theorem State.readBuffered_parts (line : Nat) (s : State) : (s.readBuffered line).parts = s.parts := by
  refine parts_foldl _ (fun t d => ?_) _ _
  repeat' split
  all_goals simp
@[simp] theorem State.readOut_parts (c) (s : State) : (s.readOut c).2.parts = s.parts := by simp [State.readOut]
@[simp] theorem State.dropLine_parts (c) (s : State) : (s.dropLine c).parts = s.parts := by simp [State.dropLine]
@[simp] theorem State.evictLine_parts (c) (s : State) : (s.evictLine c).parts = s.parts := by simp [State.evictLine]
@[simp] theorem State.noteReplaced_parts (p) (s : State) : (s.noteReplaced p).parts = s.parts := by simp [State.noteReplaced]
@[simp] theorem State.insertAt_parts (line part lens rep lo hi w rrv victim bump ovf) (s : State) :
    (s.insertAt line part lens rep lo hi w rrv victim bump ovf).parts = s.parts := by
  unfold State.insertAt
  split <;> simp
@[simp] theorem State.allocate_parts (line part lens rep lo hi) (s : State) :
    (s.allocate line part lens rep lo hi).2.parts = s.parts := by
  unfold State.allocate
  repeat' split
  all_goals simp
@[simp] theorem State.touch_parts (c) (s : State) : (s.touch c).parts = s.parts := by simp [State.touch]
@[simp] theorem State.reinstall_parts (line part : Nat) (lens : Option Nat) (s : State) :
    (s.reinstall line part lens).parts = s.parts := by
  simp only [State.reinstall]
  split
  · rfl
  split
  all_goals
    refine parts_ite_of _ (by simp) (parts_elim _ _ _ _ (by simp) fun e => ?_)
    repeat' split
    all_goals simp
@[simp] theorem State.tryInstall_parts (line part lens lo hi) (s : State) :
    (s.tryInstall line part lens lo hi).2.parts = s.parts := by
  unfold State.tryInstall
  split <;> simp
@[simp] theorem State.poisonLine_parts (line part lens) (s : State) : (s.poisonLine line part lens).parts = s.parts := by
  simp only [State.poisonLine]
  split <;> simp
@[simp] theorem State.toMemory_parts (line part lo hi) (s : State) : (s.toMemory line part lo hi).parts = s.parts := by
  unfold State.toMemory
  repeat' split
  all_goals simp
@[simp] theorem State.installDirty_parts (line part lens lo hi) (s : State) :
    (s.installDirty line part lens lo hi).parts = s.parts := by
  unfold State.installDirty
  repeat' split
  all_goals simp
@[simp] theorem State.putFirst_parts (t) (s : State) : (s.putFirst t).parts = s.parts := by simp [State.putFirst]
@[simp] theorem State.queueInstall_parts (mode line part lens lo hi) (s : State) :
    (s.queueInstall mode line part lens lo hi).parts = s.parts := by
  simp [State.queueInstall]
@[simp] theorem State.installReplica_parts (line part lens lo hi) (s : State) :
    (s.installReplica line part lens lo hi).parts = s.parts := by
  unfold State.installReplica
  split <;> simp
@[simp] theorem State.installNow_parts (mode line part lens lo hi) (s : State) :
    (s.installNow mode line part lens lo hi).parts = s.parts := by
  unfold State.installNow
  split <;> simp
@[simp] theorem State.installSoon_parts (mode line part lens lo hi) (s : State) :
    (s.installSoon mode line part lens lo hi).parts = s.parts := by
  simp [State.installSoon]
@[simp] theorem State.poisonSoon_parts (line part lens) (s : State) : (s.poisonSoon line part lens).parts = s.parts := by
  simp [State.poisonSoon]
@[simp] theorem State.zeroLineOp_parts (line part lens) (s : State) : (s.zeroLineOp line part lens).parts = s.parts := by
  simp only [State.zeroLineOp]
  repeat' split
  all_goals simp
@[simp] theorem State.placeSum_parts (a line) (s : State) : (s.placeSum a line).parts = s.parts := by
  simp only [State.placeSum]
  repeat' split
  all_goals simp

/-! ### Machine/Directory.lean -/

@[simp] theorem State.putDir_parts (e) (s : State) : (s.putDir e).parts = s.parts := by simp [State.putDir]
@[simp] theorem State.freeDir_parts (line) (s : State) : (s.freeDir line).parts = s.parts := by simp [State.freeDir]
@[simp] theorem State.putNorm_parts (e) (s : State) : (s.putNorm e).parts = s.parts := by simp [State.putNorm]
@[simp] theorem State.addSharer_parts (e a) (s : State) : (s.addSharer e a).parts = s.parts := by simp [State.addSharer]
@[simp] theorem State.setRot_parts (set v) (s : State) : (s.setRot set v).parts = s.parts := by simp [State.setRot]
@[simp] theorem State.sendSnoop_parts (tid k line) (s : State) : (s.sendSnoop tid k line).parts = s.parts := by
  unfold State.sendSnoop
  split <;> simp
@[simp] theorem State.snoopAll_parts (tid op line agents) (s : State) : (s.snoopAll tid op line agents).parts = s.parts := by
  simp [State.snoopAll]
@[simp] theorem State.sendWaiting_parts (port : Nat) (s : State) : (s.sendWaiting port).parts = s.parts := by
  refine (parts_foldl _ (fun t f => ?_) _ _).trans (parts_foldl _ (fun t x => parts_foldl _ (fun t k => ?_) _ _) _ _)
  all_goals
    repeat' split
    all_goals simp
@[simp] theorem State.protoErr_parts (code line agent port part) (s : State) :
    (s.protoErr code line agent port part).parts = s.parts := by
  simp [State.protoErr]
@[simp] theorem State.noteReclaim_parts (agent line part) (s : State) : (s.noteReclaim agent line part).parts = s.parts := by
  simp only [State.noteReclaim]
  split <;> simp
@[simp] theorem State.reclaimPoison_parts (agent line part) (s : State) :
    (s.reclaimPoison agent line part).parts = s.parts := by
  simp [State.reclaimPoison]
@[simp] theorem State.putLess_parts (e) (s : State) : (s.putLess e).parts = s.parts := by
  unfold State.putLess
  repeat' split
  all_goals simp
@[simp] theorem State.reclaimEnt_parts (agent e) (s : State) : (s.reclaimEnt agent e).parts = s.parts := by
  simp [State.reclaimEnt]
@[simp] theorem State.reclaimLine_parts (line : Nat) (s : State) : (s.reclaimLine line).parts = s.parts := by
  refine parts_foldl _ (fun t r => ?_) _ _
  repeat' split
  all_goals simp

/-! ### Machine/Operands.lean -/

@[simp] theorem State.logHdr_parts (o q tag) (s : State) : (s.logHdr o q tag).parts = s.parts := by simp [State.logHdr]

/-! ### Machine/Engine.lean -/

@[simp] theorem State.orderedWin_parts (w id f) (s : State) : (s.orderedWin w id f).parts = s.parts := by
  simp [State.orderedWin]
@[simp] theorem State.setSticky_parts (w id ovf nan) (s : State) : (s.setSticky w id ovf nan).parts = s.parts := by
  simp [State.setSticky]
@[simp] theorem State.markPoison_parts (line part i) (s : State) : (s.markPoison line part i).parts = s.parts := by
  simp only [State.markPoison]
  repeat' split
  all_goals simp
@[simp] theorem State.retireLane_parts (j f source part addr) (s : State) :
    (s.retireLane j f source part addr).parts = s.parts := by
  simp [State.retireLane]
@[simp] theorem State.facetLost_parts (f) (s : State) : (s.facetLost f).parts = s.parts := by simp [State.facetLost]
@[simp] theorem State.laneOps_parts (line sec n part) (s : State) (pair conv) :
    (s.laneOps line sec n part pair conv).2.parts = s.parts := by
  simp only [State.laneOps]
  repeat' split
  all_goals simp
@[simp] theorem State.putPair_parts (line i acc sum res) (s : State) : (s.putPair line i acc sum res).parts = s.parts := by
  simp only [State.putPair]
  repeat' split
  all_goals simp
@[simp] theorem State.accRead_parts (w line i lanes) (s : State) (conv) :
    (s.accRead w line i lanes conv).2.parts = s.parts := by
  simp [State.accRead]
@[simp] theorem State.accApply_parts (w id line i off xs) (s : State) : (s.accApply w id line i off xs).parts = s.parts := by
  simp [State.accApply]
@[simp] theorem State.outRead_parts (line n conv part) (s : State) :
    (s.outRead line n conv part).2.2.2.2.2.2.parts = s.parts := by
  simp [State.outRead]
@[simp] theorem State.opRead_parts (line part lo hi) (s : State) : (s.opRead line part lo hi).2.2.parts = s.parts := by
  simp only [State.opRead]
  repeat' split
  all_goals simp
@[simp] theorem State.poisonSum_parts (line i) (s : State) : (s.poisonSum line i).parts = s.parts := by
  unfold State.poisonSum
  split <;> simp
@[simp] theorem State.foldSec_parts (w src line i) (s : State) : (s.foldSec w src line i).2.parts = s.parts := by
  simp only [State.foldSec]
  repeat' split
  all_goals simp
@[simp] theorem State.finSec_parts (w line i) (s : State) : (s.finSec w line i).parts = s.parts := by
  simp only [State.finSec]
  repeat' split
  all_goals simp
@[simp] theorem State.outWrites_parts (w addr total n bad) (s : State) : (s.outWrites w addr total n bad).parts = s.parts := by
  simp [State.outWrites]
@[simp] theorem State.collectLine_parts (w line lo hi) (s : State) : (s.collectLine w line lo hi).parts = s.parts := by
  simp only [State.collectLine]
  repeat' split
  all_goals simp

/-! ### Machine/Hot.lean -/

@[simp] theorem State.hotDrain_parts (n : Nat) (s : State) : (s.hotDrain n).parts = s.parts := by
  induction n generalizing s with
  | zero => rfl
  | succ n ih =>
    unfold State.hotDrain
    split <;> simp [ih]
@[simp] theorem State.hotCount_parts (line mem) (s : State) : (s.hotCount line mem).parts = s.parts := by
  simp only [State.hotCount]
  repeat' split
  all_goals simp
@[simp] theorem State.hotEpochStep_parts (s : State) : (s.hotEpochStep).parts = s.parts := by simp [State.hotEpochStep]
@[simp] theorem State.hotClear_parts (s : State) : (s.hotClear).parts = s.parts := by simp [State.hotClear]

/-! ### Machine/Serve.lean -/

@[simp] theorem State.fetch_parts (line part lo hi first) (s : State) : (s.fetch line part lo hi first).parts = s.parts := by
  simp [State.fetch]
@[simp] theorem State.setWalk_parts (id f) (s : State) : (s.setWalk id f).parts = s.parts := by simp [State.setWalk]
@[simp] theorem State.installFill_parts (line i x) (s : State) : (s.installFill line i x).parts = s.parts := by
  simp only [State.installFill]
  repeat' split
  all_goals simp
@[simp] theorem State.walkGot_parts (m) (s : State) : (s.walkGot m).parts = s.parts := by unfold State.walkGot; split <;> simp
@[simp] theorem State.sendFill_parts (m) (s : State) : (s.sendFill m).parts = s.parts := by
  unfold State.sendFill
  split <;> simp
@[simp] theorem State.fillUp_parts (line) (s : State) : (s.fillUp line).parts = s.parts := by
  simp only [State.fillUp]
  repeat' split
  all_goals simp
@[simp] theorem State.takeMr_parts (m) (s : State) : (s.takeMr m).parts = s.parts := by simp [State.takeMr]
@[simp] theorem State.openMr_parts (line part lens alloc rep owner lo hi first) (s : State) :
    (s.openMr line part lens alloc rep owner lo hi first).parts = s.parts := by
  simp [State.openMr]
@[simp] theorem State.widenMr_parts (line lo hi alloc lens) (s : State) :
    (s.widenMr line lo hi alloc lens).parts = s.parts := by
  unfold State.widenMr
  split <;> simp
@[simp] theorem State.dropSpec_parts (line) (s : State) : (s.dropSpec line).parts = s.parts := by
  unfold State.dropSpec
  split <;> simp
@[simp] theorem State.speculate_parts (op q lens) (s : State) : (s.speculate op q lens).parts = s.parts := by
  simp [State.speculate]
@[simp] theorem State.sweepMr_parts (line) (s : State) : (s.sweepMr line).parts = s.parts := by simp [State.sweepMr]
@[simp] theorem State.answer_parts (op q tag mem st grant part fl) (s : State) :
    (s.answer op q tag mem st grant part fl).parts = s.parts := by
  simp [State.answer]
@[simp] theorem State.evictEnt_parts (e) (s : State) : (s.evictEnt e).parts = s.parts := by
  simp only [State.evictEnt]
  split <;> simp
@[simp] theorem State.createDir_parts (line part owner sharers) (s : State) :
    (s.createDir line part owner sharers).parts = s.parts := by
  simp only [State.createDir]
  repeat' split
  all_goals simp
@[simp] theorem State.noteLookup_parts (op q tag lens) (s : State) : (s.noteLookup op q tag lens).parts = s.parts := by
  simp [State.noteLookup]
@[simp] theorem State.refuseTxn_parts (t op q tag st) (s : State) : (s.refuseTxn t op q tag st).parts = s.parts := by
  simp [State.refuseTxn]
@[simp] theorem State.freeStale_parts (line) (s : State) : (s.freeStale line).parts = s.parts := by
  unfold State.freeStale
  split <;> simp
@[simp] theorem State.startReq_parts (t op q tag) (s : State) : (s.startReq t op q tag).parts = s.parts := by
  simp [State.startReq]
  repeat' split
  all_goals simp
@[simp] theorem State.selfPay_parts (g line) (s : State) : (s.selfPay g line).parts = s.parts := by simp [State.selfPay]
@[simp] theorem State.addTxn_parts (kind line part lens) (s : State) : (s.addTxn kind line part lens).parts = s.parts := by
  simp [State.addTxn]
@[simp] theorem State.absorbData_parts (t lo hi) (s : State) : (s.absorbData t lo hi).parts = s.parts := by
  unfold State.absorbData
  repeat' split
  all_goals simp
@[simp] theorem State.absorb_parts (tid k) (s : State) : (s.absorb tid k).parts = s.parts := by
  unfold State.absorb
  repeat' split
  all_goals simp
@[simp] theorem State.ownerAfter_parts (t) (s : State) : (s.ownerAfter t).parts = s.parts := by
  unfold State.ownerAfter
  repeat' split
  all_goals simp
@[simp] theorem State.invAfter_parts (keep t) (s : State) : (s.invAfter keep t).parts = s.parts := by
  unfold State.invAfter
  repeat' split
  all_goals simp
@[simp] theorem State.settleTxn_parts (tid) (s : State) : (s.settleTxn tid).parts = s.parts := by
  unfold State.settleTxn
  split <;> simp
@[simp] theorem State.absorbAll_parts (tid) (s : State) : (s.absorbAll tid).parts = s.parts := by
  unfold State.absorbAll
  split <;> simp
@[simp] theorem State.unjoin_parts (t agent) (s : State) : (s.unjoin t agent).parts = s.parts := by
  unfold State.unjoin
  repeat' split
  all_goals simp
@[simp] theorem State.ownEnt_parts (line part a) (s : State) : (s.ownEnt line part a).parts = s.parts := by
  unfold State.ownEnt
  split <;> simp
@[simp] theorem State.invRange_parts (t) (s : State) : (s.invRange t).parts = s.parts := by
  unfold State.invRange
  split <;> simp
@[simp] theorem State.deadRead_parts (line part) (s : State) : (s.deadRead line part).parts = s.parts := by
  unfold State.deadRead
  split <;> simp
@[simp] theorem State.readRest_parts (t q) (s : State) : (s.readRest t q).parts = s.parts := by simp [State.readRest]
@[simp] theorem State.lastUse_parts (t q) (s : State) : (s.lastUse t q).parts = s.parts := by
  unfold State.lastUse
  split <;> simp
@[simp] theorem State.endTxn_parts (t q tag grant) (s : State) : (s.endTxn t q tag grant).parts = s.parts := by
  simp [State.endTxn]
@[simp] theorem State.hitTouch_parts (t) (s : State) : (s.hitTouch t).parts = s.parts := by
  unfold State.hitTouch
  repeat' split
  all_goals simp
@[simp] theorem State.sumLanes_parts (t q) (s : State) : (s.sumLanes t q).parts = s.parts := by
  unfold State.sumLanes
  split <;> simp
@[simp] theorem State.serveRead_parts (t op q tag) (s : State) : (s.serveRead t op q tag).parts = s.parts := by
  simp only [State.serveRead]
  repeat' split
  all_goals simp
@[simp] theorem State.addRelay_parts (r) (s : State) : (s.addRelay r).parts = s.parts := by simp [State.addRelay]
@[simp] theorem State.dropRelay_parts (tag) (s : State) : (s.dropRelay tag).parts = s.parts := by simp [State.dropRelay]
@[simp] theorem State.serveReplica_parts (t q) (s : State) : (s.serveReplica t q).parts = s.parts := by
  simp only [State.serveReplica]
  split <;> simp
@[simp] theorem State.serveUnique_parts (t op q tag) (s : State) : (s.serveUnique t op q tag).parts = s.parts := by
  simp [State.serveUnique]
@[simp] theorem State.writeFull_parts (t q alloc) (s : State) : (s.writeFull t q alloc).parts = s.parts := by
  simp only [State.writeFull]
  repeat' split
  all_goals simp
@[simp] theorem State.writeBytes_parts (t q i off size d p) (s : State) :
    (s.writeBytes t q i off size d p).2.parts = s.parts := by
  simp only [State.writeBytes]
  repeat' split
  all_goals simp
@[simp] theorem State.putAtomic_parts (t q i new) (s : State) : (s.putAtomic t q i new).parts = s.parts := by
  unfold State.putAtomic
  split <;> simp
@[simp] theorem State.serveAt_parts (t : Txn) (op : ReqOp) (q : Req) (s : State) : (s.serveAt t op q).2.2.parts = s.parts := by
  simp only [State.serveAt]
  repeat' split
  all_goals simp
@[simp] theorem State.serveAcc_parts (t q w) (s : State) : (s.serveAcc t q w).2.parts = s.parts := by
  simp only [State.serveAcc]
  repeat' split
  all_goals simp
@[simp] theorem State.serveFused_parts (t : Txn) (q : Req) (w : Nat) (s : State) : (s.serveFused t q w).2.2.parts = s.parts := by
  simp [State.serveFused]
@[simp] theorem State.spillLines_parts (g : Nat) (l : List Nat) (s : State) : (s.spillLines g l).2.parts = s.parts := by
  induction l generalizing s with
  | nil => rfl
  | cons a l ih =>
    simp only [State.spillLines]
    repeat' split
    all_goals simp [ih]
@[simp] theorem State.spill_parts (i b n : Nat) (s : State) : (s.spill i b n).2.parts = s.parts := by
  induction n generalizing s with
  | zero => rfl
  | succ n ih =>
    simp only [State.spill]
    repeat' split
    all_goals simp [ih]
@[simp] theorem State.pushHead_parts (i b) (s : State) : (s.pushHead i b).parts = s.parts := by simp [State.pushHead]
@[simp] theorem State.serveAppend_parts (t : Txn) (q : Req) (spilt : Bool) (s : State) : (s.serveAppend t q spilt).2.parts = s.parts := by
  unfold State.serveAppend
  split
  · rfl
  split
  · rfl
  extract_lets b
  split
  · simp
  split
  · simp
  split
  · simp
  split
  · split
    · simp
    · split
      simp_all [eq_pair_iff]
  · simp
@[simp] theorem State.setProv_parts (port txid tag f) (s : State) : (s.setProv port txid tag f).parts = s.parts := by
  simp [State.setProv]
@[simp] theorem State.closeProv_parts (port txid tag) (s : State) : (s.closeProv port txid tag).parts = s.parts := by
  unfold State.closeProv
  split <;> simp
@[simp] theorem State.ackTxn_parts (line part port id tagged kind) (s : State) :
    (s.ackTxn line part port id tagged kind).parts = s.parts := by
  simp [State.ackTxn]
@[simp] theorem State.noteConfirm_parts (line agent) (s : State) : (s.noteConfirm line agent).parts = s.parts := by
  simp [State.noteConfirm]
@[simp] theorem State.confirmOpen_parts (e) (s : State) : (s.confirmOpen e).parts = s.parts := by
  simp only [State.confirmOpen]
  repeat' split
  all_goals simp
@[simp] theorem State.confirmNow_parts (e) (s : State) : (s.confirmNow e).parts = s.parts := by simp [State.confirmNow]
@[simp] theorem State.provSettle_parts (e) (s : State) : (s.provSettle e).parts = s.parts := by simp [State.provSettle]
@[simp] theorem State.provsGo_parts (s : State) : (s.provsGo).parts = s.parts := by simp [State.provsGo]
@[simp] theorem State.serveProv_parts (t q tag) (s : State) : (s.serveProv t q tag).parts = s.parts := by
  unfold State.serveProv
  split <;> simp
@[simp] theorem State.cleanLine_parts (c part) (s : State) : (s.cleanLine c part).parts = s.parts := by simp [State.cleanLine]
@[simp] theorem State.cancelWb_parts (line) (s : State) : (s.cancelWb line).parts = s.parts := by
  simp only [State.cancelWb]
  repeat' split
  all_goals simp
@[simp] theorem State.drainLine_parts (c) (s : State) : (s.drainLine c).parts = s.parts := by simp [State.drainLine]
@[simp] theorem State.rangeLine_parts (k line part lens) (s : State) : (s.rangeLine k line part lens).parts = s.parts := by
  simp only [State.rangeLine]
  repeat' split
  all_goals simp
@[simp] theorem State.fillAfter_parts (t : Txn) (walk : Nat) (s : State) : (s.fillAfter t walk).parts = s.parts := by
  simp [State.fillAfter]
@[simp] theorem State.openWin_parts (w id) (s : State) : (s.openWin w id).parts = s.parts := by simp [State.openWin]
@[simp] theorem State.countLate_parts (w id) (s : State) : (s.countLate w id).parts = s.parts := by simp [State.countLate]
@[simp] theorem State.endWith_parts (t op q tag st fl) (s : State) : (s.endWith t op q tag st fl).parts = s.parts := by
  simp [State.endWith]
@[simp] theorem State.askOperand_parts (t opnd part) (s : State) : (s.askOperand t opnd part).parts = s.parts := by
  simp [State.askOperand]
@[simp] theorem State.noticeDone_parts (t q tag) (s : State) : (s.noticeDone t q tag).parts = s.parts := by
  simp [State.noticeDone]
@[simp] theorem State.serveReq_parts (t : Txn) (op : ReqOp) (q : Req) (tag : Option Nat) (s : State) :
    (s.serveReq t op q tag).parts = s.parts := by
  simp only [State.serveReq]
  repeat' split
  all_goals simp_all [eq_pair_iff]
@[simp] theorem State.payLog_parts (l op q tag) (s : State) : (s.payLog l op q tag).parts = s.parts := by
  unfold State.payLog
  split <;> simp
@[simp] theorem State.sendEarly_parts (t q i) (s : State) : (s.sendEarly t q i).parts = s.parts := by simp [State.sendEarly]
theorem State.reqTurn_parts (t : Txn) (op : ReqOp) (q : Req) (tag : Option Nat) (s : State) :
    ∀ u, s.reqTurn t op q tag = some u → u.parts = s.parts := by
  simp only [State.reqTurn]
  repeat' split
  all_goals simp
@[simp] theorem State.beginOp_parts (t f) (s : State) : (s.beginOp t f).parts = s.parts := by simp [State.beginOp]
theorem State.operandTurn_parts (t : Txn) (parent : Nat) (q : Req) (s : State) :
    ∀ u, s.operandTurn t parent q = some u → u.parts = s.parts := by
  simp only [State.operandTurn]
  repeat' split
  all_goals simp
theorem State.fillTurn_parts (t : Txn) (walk : Nat) (s : State) : ∀ u, s.fillTurn t walk = some u → u.parts = s.parts := by
  simp only [State.fillTurn]
  repeat' split
  all_goals simp
theorem State.rangeTurn_parts (t : Txn) (k id : Nat) (s : State) : ∀ u, s.rangeTurn t k id = some u → u.parts = s.parts := by
  simp only [State.rangeTurn]
  repeat' split
  all_goals simp
theorem State.collectTurn_parts (t : Txn) (w : Nat) (s : State) : ∀ u, s.collectTurn t w = some u → u.parts = s.parts := by
  simp only [State.collectTurn]
  repeat' split
  all_goals simp
theorem State.installTurn_parts (t : Txn) (mode : Nat) (s : State) : ∀ u, s.installTurn t mode = some u → u.parts = s.parts := by
  simp [State.installTurn]
theorem State.turn_parts (t : Txn) (s : State) : ∀ u, s.turn t = some u → u.parts = s.parts := by
  intro u h
  rw [← State.runAs_parts (some t.grp) s t.agent]
  simp only [State.turn] at h
  split at h
  · split at h
    · obtain rfl := Option.some.inj h
      simp
    · cases h
  · split at h
    · cases h
    · exact State.reqTurn_parts _ _ _ _ _ u h
  · exact State.operandTurn_parts _ _ _ _ u h
  · exact State.fillTurn_parts _ _ _ u h
  · exact State.rangeTurn_parts _ _ _ _ u h
  · exact State.collectTurn_parts _ _ _ u h
  · exact State.installTurn_parts _ _ _ u h
@[simp] theorem State.fallBack_parts (t op q) (s : State) : (s.fallBack t op q).parts = s.parts := by simp [State.fallBack]
@[simp] theorem State.absorbLine_parts (line : Nat) (s : State) : (s.absorbLine line).parts = s.parts := by
  refine parts_foldl _ (fun u t => ?_) _ _
  dsimp only
  split <;> simp
theorem State.pumpOne_parts (line : Nat) (s : State) : ∀ u, s.pumpOne line = some u → u.parts = s.parts := by
  intro u h
  simp only [State.pumpOne] at h
  split at h
  · obtain rfl := Option.some.inj h
    simp
  · obtain ⟨t, -, ht⟩ := List.exists_of_findSome?_eq_some h
    exact (State.turn_parts t _ u ht).trans (State.readBuffered_parts line s)
@[simp] theorem State.pump_parts (line n : Nat) (s : State) : (s.pump line n).parts = s.parts := by
  induction n generalizing s with
  | zero => rfl
  | succ n ih =>
    unfold State.pump
    dsimp only
    split
    · simp
    · simp [ih, State.pumpOne_parts _ _ _ ‹_›]
@[simp] theorem State.pumpLine_parts (line) (s : State) : (s.pumpLine line).parts = s.parts := by simp [State.pumpLine]
@[simp] theorem State.noteWait_parts (c part) (s : State) : (s.noteWait c part).parts = s.parts := by
  unfold State.noteWait
  split <;> simp
@[simp] theorem State.park_parts (w c behind) (s : State) : (s.park w c behind).parts = s.parts := by simp [State.park]
@[simp] theorem State.take12_parts (w : WaitReq) (win late : Option Nat) (s : State) : (s.take12 w win late).parts = s.parts := by
  unfold State.take12
  extract_lets op q line src sRole e need later tracker evict miss t alloc s1 reads s2 s3
  split
  · simp [sRole]
  split
  · extract_lets s4 s5
    have h5 : s5.parts = s4.parts := by
      unfold s5
      split <;> simp
    simp [h5, s4]
  · split
    extract_lets inBuf s4 whole s5 t' s6 s7 opens s8
    have h3 : s3.parts = s.parts := by simp [s3, s2, s1]
    have h5 : s5.parts = s3.parts := by simp [s5, s4]
    have h7 : s7.parts = s5.parts := by simp [s7, s6]
    have h8 : s8.parts = s7.parts := by
      unfold s8
      split <;> simp
    clear_value s8
    simp [h8, h7, h5, h3]
@[simp] theorem State.enter_parts (w win late) (s : State) : (s.enter w win late).parts = s.parts := by
  unfold State.enter
  split <;> simp

/-! ### Machine/Windows.lean -/

@[simp] theorem State.startArming_parts (w mb a) (s : State) : (s.startArming w mb a).parts = s.parts := by
  simp [State.startArming]
@[simp] theorem State.armDone_parts (w) (s : State) : (s.armDone w).parts = s.parts := by unfold State.armDone; split <;> simp
@[simp] theorem State.sealWin_parts (w cause) (s : State) : (s.sealWin w cause).parts = s.parts := by simp [State.sealWin]
@[simp] theorem State.lateAfter_parts (w id) (s : State) : (s.lateAfter w id).parts = s.parts := by simp [State.lateAfter]
@[simp] theorem State.srcAfter_parts (w id) (s : State) : (s.srcAfter w id).parts = s.parts := by simp [State.srcAfter]
@[simp] theorem State.arrive_parts (w id) (s : State) : (s.arrive w id).parts = s.parts := by simp [State.arrive]
@[simp] theorem State.sealDone_parts (src w st) (s : State) : (s.sealDone src w st).parts = s.parts := by simp [State.sealDone]
@[simp] theorem State.beginFinal_parts (w) (s : State) : (s.beginFinal w).parts = s.parts := by simp [State.beginFinal]
@[simp] theorem State.finalizeWin_parts (src w) (s : State) : (s.finalizeWin src w).parts = s.parts := by
  simp [State.finalizeWin]
@[simp] theorem State.sealOp_parts (src fin w issuer gen) (s : State) : (s.sealOp src fin w issuer gen).parts = s.parts := by
  simp [State.sealOp]
@[simp] theorem State.colStatus_parts (c st lines) (s : State) : (s.colStatus c st lines).parts = s.parts := by
  unfold State.colStatus
  split <;> simp
@[simp] theorem State.colErr_parts (c e) (s : State) : (s.colErr c e).parts = s.parts := by unfold State.colErr; split <;> simp
@[simp] theorem State.fuseMisplaced_parts (opc part agent port addr) (s : State) :
    (s.fuseMisplaced opc part agent port addr).parts = s.parts := by
  simp [State.fuseMisplaced]
@[simp] theorem State.colWalk_parts (w : Nat) (c : ColArgs) (s : State) : (s.colWalk w c).parts = s.parts := by
  simp only [State.colWalk]
  refine (parts_foldl _ (fun t l => by simp) _ _).trans ((parts_foldl _ (fun t l => by simp) _ _).trans (by simp))
@[simp] theorem State.collectWin_parts (w st gen c) (s : State) : (s.collectWin w st gen c).parts = s.parts := by
  unfold State.collectWin
  split <;> simp
@[simp] theorem State.dropResiduals_parts (w) (s : State) : (s.dropResiduals w).parts = s.parts := by simp [State.dropResiduals]
@[simp] theorem State.releaseWin_parts (w) (s : State) : (s.releaseWin w).parts = s.parts := by simp [State.releaseWin]
@[simp] theorem State.winOp_parts (w o) (s : State) : (s.winOp w o).parts = s.parts := by unfold State.winOp; split <;> simp
@[simp] theorem State.winGo_parts (w n : Nat) (s : State) : (s.winGo w n).parts = s.parts := by
  induction n generalizing s with
  | zero => rfl
  | succ n ih =>
    unfold State.winGo
    split <;> simp [ih]
@[simp] theorem State.winsGo_parts (s : State) : (s.winsGo).parts = s.parts := by simp [State.winsGo]
@[simp] theorem State.pumpOps_parts (s : State) : (s.pumpOps).parts = s.parts := by simp [State.pumpOps]
@[simp] theorem State.setHand_parts (b f) (s : State) : (s.setHand b f).parts = s.parts := by simp [State.setHand]
@[simp] theorem State.releaseStart_parts (b) (s : State) : (s.releaseStart b).parts = s.parts := by simp [State.releaseStart]
@[simp] theorem State.releaseList_parts (h) (s : State) : (s.releaseList h).parts = s.parts := by simp [State.releaseList]
@[simp] theorem State.releaseGo_parts (b) (s : State) : (s.releaseGo b).parts = s.parts := by
  unfold State.releaseGo
  split <;> simp
@[simp] theorem State.releasesGo_parts (s : State) : (s.releasesGo).parts = s.parts := by simp [State.releasesGo]
@[simp] theorem State.drainGo_parts (s : State) : (s.drainGo).parts = s.parts := by simp [State.drainGo]
theorem State.holdRec_parts (line agent tag : Nat) (s : State) : ∀ u, s.holdRec line agent tag = some u → u.parts = s.parts := by
  simp only [State.holdRec]
  repeat' split
  all_goals simp
@[simp] theorem State.holdersGo_parts (s : State) : (s.holdersGo).parts = s.parts := by
  refine (parts_foldl _ (fun t x => ?_) _ _).trans (by simp)
  dsimp only
  split
  · exact State.holdRec_parts _ _ _ _ _ ‹_›
  · simp
@[simp] theorem State.reservedRead_parts (q tag d) (s : State) : (s.reservedRead q tag d).parts = s.parts := by
  simp [State.reservedRead]
@[simp] theorem State.winReq_parts (t op q tag) (s : State) : (s.winReq t op q tag).parts = s.parts := by
  simp only [State.winReq]
  repeat' split
  all_goals simp
@[simp] theorem State.ctlGo_parts (s : State) : (s.ctlGo).parts = s.parts := by
  refine parts_foldl _ (fun u x => ?_) _ _
  repeat' split
  all_goals simp
@[simp] theorem State.cfgVoid_parts (s : State) : (s.cfgVoid).parts = s.parts := by simp [State.cfgVoid]
@[simp] theorem State.tidy_parts (s : State) : (s.tidy).parts = s.parts := by simp [State.tidy]
@[simp] theorem State.winAccept_parts (w o) (s : State) : (s.winAccept w o).parts = s.parts := by simp [State.winAccept]
@[simp] theorem State.armCmd_parts (m) (s : State) : (s.armCmd m).parts = s.parts := by
  simp only [State.armCmd]
  repeat' split
  all_goals simp
@[simp] theorem State.sealCmd_parts (fin m) (s : State) : (s.sealCmd fin m).parts = s.parts := by simp [State.sealCmd]
@[simp] theorem State.collectCmd_parts (m) (s : State) : (s.collectCmd m).parts = s.parts := by simp [State.collectCmd]
@[simp] theorem State.foldLines_parts (f : FoldRun) (l : List Nat) (s : State) : (s.foldLines f l).2.parts = s.parts := by
  induction l generalizing f s with
  | nil => rfl
  | cons a l ih =>
    unfold State.foldLines
    dsimp only
    split <;> simp [ih]
@[simp] theorem State.foldRun_parts (f) (s : State) : (s.foldRun f).parts = s.parts := by simp [State.foldRun]
@[simp] theorem State.finLines_parts (w g : Nat) (l : List Nat) (s : State) : (s.finLines w g l).2.parts = s.parts := by
  induction l generalizing s with
  | nil => rfl
  | cons a l ih =>
    unfold State.finLines
    split <;> simp [ih]
@[simp] theorem State.finalDone_parts (w) (s : State) : (s.finalDone w).parts = s.parts := by
  simp only [State.finalDone]
  split <;> simp
@[simp] theorem State.colDone_parts (w) (s : State) : (s.colDone w).parts = s.parts := by
  simp only [State.colDone]
  split <;> simp
@[simp] theorem mailboxRow_keeps (i : Instr) (op : Nat) (m : MbCmd) (run : MbCmd → State → State)
    (h : ∀ m (t : State), (run m t).parts = t.parts) (s : State) : KeepsParts s (mailboxRow i op m run s) := by
  simp [mailboxRow, h]
@[simp] theorem execArmWindowArm_keeps (m) (s : State) : KeepsParts s (execArmWindowArm m s) := by simp [execArmWindowArm]
@[simp] theorem execArmWindowRearm_keeps (m) (s : State) : KeepsParts s (execArmWindowRearm m s) := by simp [execArmWindowRearm]
@[simp] theorem execArmWindowRelease_keeps (m) (s : State) : KeepsParts s (execArmWindowRelease m s) := by
  simp [execArmWindowRelease]
@[simp] theorem execArmComplete_keeps (w) (s : State) : KeepsParts s (execArmComplete w s) := by simp [execArmComplete]
@[simp] theorem execSeal_keeps (m) (s : State) : KeepsParts s (execSeal m s) := by simp [execSeal]
@[simp] theorem execFinalize_keeps (m) (s : State) : KeepsParts s (execFinalize m s) := by simp [execFinalize]
@[simp] theorem execCollect_keeps (m) (s : State) : KeepsParts s (execCollect m s) := by simp [execCollect]
@[simp] theorem execWindowDrained_keeps (w) (s : State) : KeepsParts s (execWindowDrained w s) := by simp [execWindowDrained]
@[simp] theorem execFinaliseComplete_keeps (w) (s : State) : KeepsParts s (execFinaliseComplete w s) := by
  simp [execFinaliseComplete]
@[simp] theorem execFoldComplete_keeps (w : Nat) (s : State) : KeepsParts s (execFoldComplete w s) := by
  unfold execFoldComplete
  split <;> simp
@[simp] theorem execCollectComplete_keeps (w) (s : State) : KeepsParts s (execCollectComplete w s) := by
  simp [execCollectComplete]

/-! ### Machine/Cue.lean -/

@[simp] theorem State.setChan_parts (c f) (s : State) : (s.setChan c f).parts = s.parts := by simp [State.setChan]
@[simp] theorem State.makeDue_parts (is count stalled) (s : State) : (s.makeDue is count stalled).parts = s.parts := by
  simp [State.makeDue]
@[simp] theorem State.dueSorted_parts (n) (s : State) : (s.dueSorted n).parts = s.parts := by simp [State.dueSorted]
@[simp] theorem State.applyCount_parts (c v) (s : State) : (s.applyCount c v).parts = s.parts := by
  simp only [State.applyCount]
  repeat' split
  all_goals simp
@[simp] theorem State.keepCount_parts (c v) (s : State) : (s.keepCount c v).parts = s.parts := by simp [State.keepCount]
@[simp] theorem State.applyKept_parts (s : State) : (s.applyKept).parts = s.parts := by
  refine (State.dueSorted_parts ..).trans (parts_foldl _ (fun t c => ?_) _ _)
  split <;> simp
@[simp] theorem State.beat_parts (part c v) (s : State) : (s.beat part c v).parts = s.parts := by
  simp only [State.beat]
  repeat' split
  all_goals simp
@[simp] theorem State.queueBeat_parts (c add v src mb) (s : State) : (s.queueBeat c add v src mb).parts = s.parts := by
  simp [State.queueBeat]
@[simp] theorem State.postsGo_parts (n : Nat) (s : State) : (s.postsGo n).parts = s.parts := by
  induction n generalizing s with
  | zero => rfl
  | succ n ih =>
    unfold State.postsGo
    split <;> simp [ih]
@[simp] theorem State.emitBeat_parts (b rest) (s : State) : (s.emitBeat b rest).parts = s.parts := by
  unfold State.emitBeat
  repeat' split
  all_goals simp
@[simp] theorem State.postCmd_parts (m) (s : State) : (s.postCmd m).parts = s.parts := by simp [State.postCmd]
@[simp] theorem State.ring_parts (q tag c) (s : State) : (s.ring q tag c).parts = s.parts := by simp [State.ring]
@[simp] theorem State.armRec_parts (words) (s : State) : (s.armRec words).parts = s.parts := by simp [State.armRec]
@[simp] theorem State.armStat_parts (window e slot disarm) (s : State) : (s.armStat window e slot disarm).parts = s.parts := by
  unfold State.armStat
  split <;> simp
@[simp] theorem State.latchArm_parts (window words) (s : State) : (s.latchArm window words).parts = s.parts := by
  unfold State.latchArm
  split <;> simp
@[simp] theorem State.armSlot_parts (src window words) (s : State) : (s.armSlot src window words).parts = s.parts := by
  simp [State.armSlot]
@[simp] theorem State.freeSlot_parts (i out) (s : State) : (s.freeSlot i out).parts = s.parts := by simp [State.freeSlot]
@[simp] theorem State.disarmSlot_parts (src window i) (s : State) : (s.disarmSlot src window i).parts = s.parts := by
  simp [State.disarmSlot]
@[simp] theorem State.countLag_parts (s : State) : (s.countLag).parts = s.parts := by simp [State.countLag]
@[simp] theorem State.lagTick_parts (s : State) : (s.lagTick).parts = s.parts := by simp [State.lagTick]
@[simp] theorem State.wdFire_parts (c) (s : State) : (s.wdFire c).parts = s.parts := by
  simp only [State.wdFire]
  repeat' split
  all_goals simp
@[simp] theorem execCueBeat_keeps (part chan count flips) (s : State) : KeepsParts s (execCueBeat part chan count flips s) := by
  simp [execCueBeat]
@[simp] theorem execBeatEmit_keeps (s : State) : KeepsParts s (execBeatEmit s) := by
  unfold execBeatEmit
  split <;> simp
@[simp] theorem execCueLagLimit_keeps (c) (s : State) : KeepsParts s (execCueLagLimit c s) := by simp [execCueLagLimit]
@[simp] theorem execCueWatchdog_keeps (c) (s : State) : KeepsParts s (execCueWatchdog c s) := by simp [execCueWatchdog]
@[simp] theorem execCuePost_keeps (m) (s : State) : KeepsParts s (execCuePost m s) := by simp [execCuePost]
@[simp] theorem execArmSlot_keeps (src window words) (s : State) : KeepsParts s (execArmSlot src window words s) := by
  simp [execArmSlot]
@[simp] theorem execDisarmSlot_keeps (src window slot) (s : State) : KeepsParts s (execDisarmSlot src window slot s) := by
  simp [execDisarmSlot]

/-! ### Machine/Translate.lean -/

@[simp] theorem State.setXlt_parts (f : XltUnit → XltUnit) (s : State) : (s.setXlt f).parts = { s with xlt := f s.xlt }.parts := rfl

def XltUnit.sizes (x : XltUnit) : Nat × Nat × Nat := (x.tdc.length, x.opBusy.length, x.change.length)
theorem XltUnit.sizes_foldl {α} (f : XltUnit → α → XltUnit) (h : ∀ x a, (f x a).sizes = x.sizes) (l : List α) (x : XltUnit) :
    (l.foldl f x).sizes = x.sizes := by
  induction l generalizing x with
  | nil => rfl
  | cons a l ih => exact (ih _).trans (h x a)
theorem State.setXlt_parts_of_sizes (f : XltUnit → XltUnit) (s : State) (h : (f s.xlt).sizes = s.xlt.sizes) : (s.setXlt f).parts = s.parts := by
  simp only [XltUnit.sizes, Prod.mk.injEq] at h
  simp [h]
@[simp] theorem XltUnit.install_lengths (k : XKey) (v : Word) (lock : Bool) (x : XltUnit) :
    (x.install k v lock).tdc.length = x.tdc.length ∧ (x.install k v lock).opBusy = x.opBusy ∧
      (x.install k v lock).change = x.change := by
  unfold XltUnit.install
  split <;> simp
@[simp] theorem State.sideParity_parts (k) (s : State) : (s.sideParity k).parts = s.parts := by
  unfold State.sideParity
  split <;> simp
@[simp] theorem State.tdcParity_parts (i e) (s : State) : (s.tdcParity i e).parts = s.parts := by simp [State.tdcParity]
@[simp] theorem State.tdcFetch_parts (f) (s : State) : (s.tdcFetch f).parts = s.parts := by simp [State.tdcFetch]
@[simp] theorem State.tdcMiss_parts (cls k ahead level3) (s : State) : (s.tdcMiss cls k ahead level3).2.parts = s.parts := by
  unfold State.tdcMiss
  repeat' split
  all_goals simp
@[simp] theorem State.tdcGet_parts (cls pois k ahead level3) (s : State) :
    (s.tdcGet cls pois k ahead level3).2.parts = s.parts := by
  simp only [State.tdcGet]
  repeat' split
  all_goals simp
@[simp] theorem State.promote_parts (p : XPage) (s : State) : (s.promote p).parts = s.parts := by
  refine State.setXlt_parts_of_sizes _ _ (XltUnit.sizes_foldl _ (fun x k => ?_) _ _)
  split <;> simp [XltUnit.sizes]
@[simp] theorem State.xstep_parts (cls pois ahead got k level3) (s : State) :
    (s.xstep cls pois ahead got k level3).2.parts = s.parts := by
  unfold State.xstep
  split <;> simp
@[simp] theorem State.xlat_parts (cls part va : Nat) (pois : Option XKey) (write ahead : Bool) (got : XSteps) (s : State) :
    (s.xlat cls part va pois write ahead got).2.parts = s.parts := by
  simp only [State.xlat]
  repeat' split
  all_goals simp_all [eq_pair_iff]
@[simp] theorem State.dropXlat_parts (hit) (s : State) : (s.dropXlat hit).parts = s.parts := by simp [State.dropXlat]
@[simp] theorem State.changeOpen_parts (p hit) (s : State) : (s.changeOpen p hit).parts = s.parts := by simp [State.changeOpen]
@[simp] theorem State.tdcChange_parts (p hit stale) (s : State) : (s.tdcChange p hit stale).parts = s.parts := by
  simp [State.tdcChange]
@[simp] theorem State.tdcWriteAll_parts (p desc addr v) (s : State) : (s.tdcWriteAll p desc addr v).parts = s.parts := by
  simp [State.tdcWriteAll]
@[simp] theorem State.tdcInvalPart_parts (p) (s : State) : (s.tdcInvalPart p).parts = s.parts := by simp [State.tdcInvalPart]
@[simp] theorem State.tdcStat_parts (p busy done e) (s : State) : (s.tdcStat p busy done e).parts = s.parts := by
  simp [State.tdcStat]
@[simp] theorem State.tdcPreload_parts (p : Nat) (lock : Bool) (k : XKey) (s : State) : (s.tdcPreload p lock k).parts = s.parts := by
  have h := State.tdcGet_parts (8 + p) none k false false (s.tdcStat p true false .ok)
  simp only [State.tdcPreload]
  split <;> simp_all
@[simp] theorem State.tdcRun_parts (p code desc addr data) (s : State) : (s.tdcRun p code desc addr data).parts = s.parts := by
  unfold State.tdcRun
  split <;> simp
@[simp] theorem State.tdcOp_parts (code t) (s : State) : (s.tdcOp code t).parts = s.parts := by simp [State.tdcOp]
@[simp] theorem State.changeDone_parts (p) (s : State) : (s.changeDone p).parts = s.parts := by
  simp only [State.changeDone]
  split <;> simp
@[simp] theorem State.opsFor_parts (k) (s : State) : (s.opsFor k).parts = s.parts := by unfold State.opsFor; split <;> simp
@[simp] theorem State.wakeWalks_parts (f poison) (s : State) : (s.wakeWalks f poison).parts = s.parts := by
  simp [State.wakeWalks]
@[simp] theorem State.fetchBack_parts (f : TdcFetch) (d : Sector) (poison : Bool) (s : State) :
    (s.fetchBack f d poison).parts = s.parts := by
  have hput (k v) (x : XltUnit) : (x.putSide k v).sizes = x.sizes := by
    unfold XltUnit.putSide
    split <;> rfl
  have hinst (k v b) (x : XltUnit) : (x.install k v b).sizes = x.sizes := by simp [XltUnit.sizes]
  simp only [State.fetchBack]
  split
  · split <;> simp
  · refine (State.wakeWalks_parts ..).trans ((State.opsFor_parts ..).trans ?_)
    split
    · simp
    · refine (State.setXlt_parts_of_sizes _ _ ?_).trans (by simp)
      repeat' split
      all_goals simp only [hput, hinst]
      all_goals simp [XltUnit.sizes]
@[simp] theorem State.fqWrite_parts (s : State) : (s.fqWrite).parts = s.parts := by unfold State.fqWrite; split <;> simp
@[simp] theorem mgmtWrite_keeps (i : Instr) (src : Csrp) (act : State → State) (h : ∀ t : State, (act t).parts = t.parts) (s : State) :
    KeepsParts s (mgmtWrite i src act s) := by
  simp [mgmtWrite, h]
@[simp] theorem State.writeFqCons_parts (v) (s : State) : (s.writeFqCons v).parts = s.parts := by simp [State.writeFqCons]
@[simp] theorem State.writeFqRing_parts (ctl v) (s : State) : (s.writeFqRing ctl v).parts = s.parts := by
  simp [State.writeFqRing]
@[simp] theorem State.writeXltDesc_parts (p v) (s : State) : (s.writeXltDesc p v).parts = s.parts := by
  simp [State.writeXltDesc]
@[simp] theorem State.writeHot_parts (ctl v) (s : State) : (s.writeHot ctl v).parts = s.parts := by simp [State.writeHot]
@[simp] theorem tdcRow_keeps (i code t) (s : State) : KeepsParts s (tdcRow i code t s) := by simp [tdcRow]
@[simp] theorem execTdcPreload_keeps (t) (s : State) : KeepsParts s (execTdcPreload t s) := by simp [execTdcPreload]
@[simp] theorem execTdcPreloadLock_keeps (t) (s : State) : KeepsParts s (execTdcPreloadLock t s) := by simp [execTdcPreloadLock]
@[simp] theorem execTdcUnlock_keeps (t) (s : State) : KeepsParts s (execTdcUnlock t s) := by simp [execTdcUnlock]
@[simp] theorem execTdcWrite_keeps (t) (s : State) : KeepsParts s (execTdcWrite t s) := by simp [execTdcWrite]
@[simp] theorem execTdcZeroEntry_keeps (t) (s : State) : KeepsParts s (execTdcZeroEntry t s) := by simp [execTdcZeroEntry]
@[simp] theorem execTdcInvalAddr_keeps (t) (s : State) : KeepsParts s (execTdcInvalAddr t s) := by simp [execTdcInvalAddr]
@[simp] theorem execTdcInvalPart_keeps (t) (s : State) : KeepsParts s (execTdcInvalPart t s) := by simp [execTdcInvalPart]
@[simp] theorem execXltDescWrite_keeps (src part value) (s : State) : KeepsParts s (execXltDescWrite src part value s) := by
  simp [execXltDescWrite]
@[simp] theorem execFqConsWrite_keeps (src value) (s : State) : KeepsParts s (execFqConsWrite src value s) := by
  simp [execFqConsWrite]
@[simp] theorem execFqRingConfigWrite_keeps (src ctl value) (s : State) :
    KeepsParts s (execFqRingConfigWrite src ctl value s) := by
  simp [execFqRingConfigWrite]
@[simp] theorem execHotConfigWrite_keeps (src ctl value) (s : State) : KeepsParts s (execHotConfigWrite src ctl value s) := by
  simp [execHotConfigWrite]
@[simp] theorem execHotEpoch_keeps (s : State) : KeepsParts s (execHotEpoch s) := by simp [execHotEpoch]

/-! ### Machine/Walk.lean -/

@[simp] theorem State.walkNext_parts (w) (s : State) : (s.walkNext w).parts = s.parts := by simp [State.walkNext]
@[simp] theorem State.walkStop_parts (w st) (s : State) : (s.walkStop w st).parts = s.parts := by simp [State.walkStop]
@[simp] theorem State.testTags_parts (line) (s : State) : (s.testTags line).parts = s.parts := by simp [State.testTags]
@[simp] theorem State.fillStep_parts (w line) (s : State) : (s.fillStep w line).parts = s.parts := by simp [State.fillStep]
@[simp] theorem State.dropReplica_parts (line) (s : State) : (s.dropReplica line).parts = s.parts := by
  unfold State.dropReplica
  split <;> simp
@[simp] theorem State.rangeStep_parts (w line) (s : State) : (s.rangeStep w line).parts = s.parts := by simp [State.rangeStep]
@[simp] theorem State.probed_parts (w) (s : State) : (s.probed w).parts = s.parts := by simp [State.probed]
@[simp] theorem State.walkLines_parts (id n : Nat) (s : State) : (s.walkLines id n).parts = s.parts := by
  induction n generalizing s with
  | zero => rfl
  | succ n ih =>
    unfold State.walkLines
    repeat' split
    all_goals simp [ih]
@[simp] theorem State.stage_parts (w f) (s : State) : (s.stage w f).parts = s.parts := by simp [State.stage]
@[simp] theorem State.walkFault_parts (w f) (s : State) : (s.walkFault w f).parts = s.parts := by simp [State.walkFault]
@[simp] theorem State.lookAhead_parts (id) (s : State) : (s.lookAhead id).parts = s.parts := by
  simp only [State.lookAhead]
  repeat' split
  all_goals simp
@[simp] theorem State.walkXlat_parts (w) (s : State) : (s.walkXlat w).parts = s.parts := by
  simp only [State.walkXlat]
  split <;> simp
@[simp] theorem State.walkCur_parts (w) (s : State) : (s.walkCur w).parts = s.parts := by
  unfold State.walkCur
  repeat' split
  all_goals simp
@[simp] theorem State.walkTurn_parts (id) (s : State) : (s.walkTurn id).parts = s.parts := by
  unfold State.walkTurn
  split <;> simp
@[simp] theorem State.walkerTurn_parts (cls) (s : State) : (s.walkerTurn cls).parts = s.parts := by
  unfold State.walkerTurn
  split <;> simp
@[simp] theorem State.walkRounds_parts (n : Nat) (s : State) : (s.walkRounds n).parts = s.parts := by
  induction n generalizing s with
  | zero => rfl
  | succ n ih => simp [State.walkRounds, ih]
@[simp] theorem State.beginRange_parts (r) (s : State) : (s.beginRange r).parts = s.parts := by simp [State.beginRange]
@[simp] theorem State.wakeStopped_parts (s : State) : (s.wakeStopped).parts = s.parts := by simp [State.wakeStopped]
@[simp] theorem State.rangesGo_parts (s : State) : (s.rangesGo).parts = s.parts := by unfold State.rangesGo; split <;> simp
@[simp] theorem State.workRounds_parts (n : Nat) (s : State) : (s.workRounds n).parts = s.parts := by
  induction n generalizing s with
  | zero => rfl
  | succ n ih => simp [State.workRounds, ih]
@[simp] theorem State.walksGo_parts (s : State) : (s.walksGo).parts = s.parts := by simp [State.walksGo]
@[simp] theorem State.unstall_parts (s : State) : (s.unstall).parts = s.parts := by simp [State.unstall]
@[simp] theorem State.beginWalk_parts (w) (s : State) : (s.beginWalk w).parts = s.parts := by simp [State.beginWalk]
@[simp] theorem State.resetRuns_parts (l : List (Nat × Nat)) (s : State) : (s.resetRuns l).parts = s.parts := by
  refine parts_foldl _ (fun t x => ?_) _ _
  split <;> simp
@[simp] theorem State.walkEndRes_parts (w) (s : State) : (s.walkEndRes w).parts = s.parts := by
  unfold State.walkEndRes
  repeat' split
  all_goals simp
@[simp] theorem State.tileCmd_parts (m) (s : State) : (s.tileCmd m).parts = s.parts := by simp [State.tileCmd]
@[simp] theorem State.pinCmd_parts (m) (s : State) : (s.pinCmd m).parts = s.parts := by simp [State.pinCmd]
@[simp] theorem execTileFill_keeps (m) (s : State) : KeepsParts s (execTileFill m s) := by simp [execTileFill]
@[simp] theorem execPinLoad_keeps (m) (s : State) : KeepsParts s (execPinLoad m s) := by simp [execPinLoad]
@[simp] theorem execWalkComplete_keeps (window : Option Nat) (s : State) : KeepsParts s (execWalkComplete window s) := by
  unfold execWalkComplete
  split <;> simp
@[simp] theorem execFaultRingWrite_keeps (s : State) : KeepsParts s (execFaultRingWrite s) := by simp [execFaultRingWrite]
@[simp] theorem execFqOvf_keeps (cls : Nat) (s : State) : KeepsParts s (execFqOvf cls s) := by
  unfold execFqOvf
  split <;> simp
@[simp] theorem execTdcChangeComplete_keeps (part) (s : State) : KeepsParts s (execTdcChangeComplete part s) := by
  simp [execTdcChangeComplete]

/-! ### Machine/Actions.lean -/

@[simp] theorem State.accept_parts (i) (s : State) : (s.accept i).parts = s.parts := by simp [State.accept]
@[simp] theorem State.actionWalk_parts (i) (s : State) : (s.actionWalk i).parts = s.parts := by simp [State.actionWalk]
@[simp] theorem State.actionRun_parts (i) (s : State) : (s.actionRun i).parts = s.parts := by
  simp only [State.actionRun]
  split <;> simp
@[simp] theorem actionRow_keeps (act : Nat) (s : State) : KeepsParts s (actionRow act s) := by
  unfold actionRow
  split <;> simp
@[simp] theorem execActionTileFill_keeps (s : State) : KeepsParts s (execActionTileFill s) := by simp [execActionTileFill]
@[simp] theorem execActionFlushRange_keeps (s : State) : KeepsParts s (execActionFlushRange s) := by simp [execActionFlushRange]
@[simp] theorem execActionDiscardRange_keeps (s : State) : KeepsParts s (execActionDiscardRange s) := by
  simp [execActionDiscardRange]
@[simp] theorem execActionUnpin_keeps (s : State) : KeepsParts s (execActionUnpin s) := by simp [execActionUnpin]
@[simp] theorem execActionSeal_keeps (s : State) : KeepsParts s (execActionSeal s) := by simp [execActionSeal]
@[simp] theorem execActionFinalize_keeps (s : State) : KeepsParts s (execActionFinalize s) := by simp [execActionFinalize]
@[simp] theorem execActionLensSwap_keeps (s : State) : KeepsParts s (execActionLensSwap s) := by simp [execActionLensSwap]
@[simp] theorem execActionSetPers_keeps (s : State) : KeepsParts s (execActionSetPers s) := by simp [execActionSetPers]
@[simp] theorem State.actionEnd_parts (i) (s : State) : (s.actionEnd i).parts = s.parts := by
  simp only [State.actionEnd]
  repeat' split
  all_goals simp
@[simp] theorem execActionComplete_keeps (slot) (s : State) : KeepsParts s (execActionComplete slot s) := by
  simp [execActionComplete]

/-! ### Machine/Fabric.lean -/

@[simp] theorem State.charge_parts (w) (s : State) : (s.charge w).parts = s.parts := by simp [State.charge]
@[simp] theorem State.unreserve_parts (q tag) (s : State) : (s.unreserve q tag).parts = s.parts := by
  unfold State.unreserve
  split <;> simp
@[simp] theorem State.refuse_parts (q tag st) (s : State) : (s.refuse q tag st).parts = s.parts := by simp [State.refuse]
@[simp] theorem State.misroute_parts (q tag) (s : State) : (s.misroute q tag).parts = s.parts := by simp [State.misroute]
@[simp] theorem State.deny_parts (q tag detail) (s : State) : (s.deny q tag detail).parts = s.parts := by simp [State.deny]
@[simp] theorem State.fail97_parts (q tag st detail) (s : State) : (s.fail97 q tag st detail).parts = s.parts := by
  simp [State.fail97]
@[simp] theorem State.noEntry_parts (op q tag) (s : State) : (s.noEntry op q tag).parts = s.parts := by simp [State.noEntry]
@[simp] theorem State.noticeData_parts (w) (s : State) : (s.noticeData w).parts = s.parts := by simp [State.noticeData]
@[simp] theorem State.applyNotice_parts (w e) (s : State) : (s.applyNotice w e).parts = s.parts := by
  unfold State.applyNotice
  split <;> simp
@[simp] theorem State.listedNotice_parts (w) (s : State) : (s.listedNotice w).parts = s.parts := by simp [State.listedNotice]
@[simp] theorem State.noticeHit_parts (w) (s : State) : (s.noticeHit w).parts = s.parts := by
  unfold State.noticeHit
  repeat' split
  all_goals simp
@[simp] theorem State.evictNotice_parts (t e w) (s : State) : (s.evictNotice t e w).parts = s.parts := by
  unfold State.evictNotice
  split <;> simp
@[simp] theorem State.notice_parts (w) (s : State) : (s.notice w).parts = s.parts := by
  simp only [State.notice]
  repeat' split
  all_goals simp
@[simp] theorem State.provRead_parts (port txid) (s : State) : (s.provRead port txid).parts = s.parts := by
  unfold State.provRead
  split <;> simp
@[simp] theorem State.confirm_parts (w) (s : State) : (s.confirm w).parts = s.parts := by
  simp only [State.confirm]
  split <;> simp
@[simp] theorem State.cancel_parts (q tag) (s : State) : (s.cancel q tag).parts = s.parts := by
  unfold State.cancel
  split <;> simp
@[simp] theorem State.ctlReq_parts (w win) (s : State) : (s.ctlReq w win).parts = s.parts := by simp [State.ctlReq]
@[simp] theorem State.headerRead_parts (w i) (s : State) : (s.headerRead w i).parts = s.parts := by simp [State.headerRead]
@[simp] theorem State.awaitRing_parts (w) (s : State) : (s.awaitRing w).parts = s.parts := by simp [State.awaitRing]
@[simp] theorem State.headerReq_parts (w i) (s : State) : (s.headerReq w i).parts = s.parts := by simp [State.headerReq]
@[simp] theorem State.ringReq_parts (w) (s : State) : (s.ringReq w).parts = s.parts := by unfold State.ringReq; split <;> simp
@[simp] theorem State.ringsGo_parts (line n : Nat) (s : State) : (s.ringsGo line n).parts = s.parts := by
  induction n generalizing s with
  | zero => rfl
  | succ n ih =>
    unfold State.ringsGo
    repeat' split
    all_goals simp [ih]
@[simp] theorem State.provReq_parts (w) (s : State) : (s.provReq w).parts = s.parts := by simp [State.provReq]
@[simp] theorem State.bellReq_parts (w c) (s : State) : (s.bellReq w c).parts = s.parts := by simp [State.bellReq]
@[simp] theorem State.dispatch_parts (w) (s : State) : (s.dispatch w).parts = s.parts := by
  unfold State.dispatch
  repeat' split
  all_goals simp
@[simp] theorem State.reaches12_parts (w) (s : State) : (s.reaches12 w).parts = s.parts := by simp [State.reaches12]
@[simp] theorem State.homeReq_parts (w) (s : State) : (s.homeReq w).parts = s.parts := by
  simp only [State.homeReq]
  repeat' split
  all_goals simp
@[simp] theorem State.takeRelay_parts (w) (s : State) : (s.takeRelay w).2.parts = s.parts := by
  simp only [State.takeRelay]
  repeat' split
  all_goals simp
@[simp] theorem State.relayNamed_parts (w) (s : State) : (s.relayNamed w).parts = s.parts := by
  simp only [State.relayNamed]
  split <;> simp
@[simp] theorem State.relayReq_parts (w) (s : State) : (s.relayReq w).parts = s.parts := by
  simp only [State.relayReq]
  repeat' split
  all_goals simp
@[simp] theorem State.replicaReq_parts (w) (s : State) : (s.replicaReq w).parts = s.parts := by
  simp only [State.replicaReq]
  repeat' split
  all_goals simp
@[simp] theorem State.entryReq_parts (w) (s : State) : (s.entryReq w).parts = s.parts := by
  simp only [State.entryReq]
  repeat' split
  all_goals simp
@[simp] theorem State.holdReq_parts (w) (s : State) : (s.holdReq w).parts = s.parts := by simp [State.holdReq]
@[simp] theorem State.notFar_parts (w) (s : State) : (s.notFar w).2.parts = s.parts := by unfold State.notFar; split <;> simp
@[simp] theorem State.lookupCfg_parts (w) (s : State) : (s.lookupCfg w).parts = s.parts := by
  unfold State.lookupCfg
  split <;> simp
@[simp] theorem State.lookup_parts (w again) (s : State) : (s.lookup w again).parts = s.parts := by
  simp only [State.lookup]
  repeat' split
  all_goals simp
@[simp] theorem State.waitRead_parts (w) (s : State) : (s.waitRead w).parts = s.parts := by
  unfold State.waitRead
  split <;> simp
@[simp] theorem State.restart_parts (s : State) : (s.restart).parts = s.parts := by simp [State.restart]
@[simp] theorem State.staleReq_parts (op q) (s : State) : (s.staleReq op q).parts = s.parts := by
  unfold State.staleReq
  split <;> simp
@[simp] theorem State.writeThrough_parts (q tag) (s : State) : (s.writeThrough q tag).parts = s.parts := by
  simp [State.writeThrough]
@[simp] theorem State.recoveryReq_parts (op q tag) (s : State) : (s.recoveryReq op q tag).parts = s.parts := by
  unfold State.recoveryReq
  repeat' split
  all_goals simp
@[simp] theorem State.keepCredit_parts (port) (s : State) : (s.keepCredit port).parts = s.parts := by simp [State.keepCredit]
@[simp] theorem State.checkDat_parts (port : Nat) (fl : List DatFlit) (s : State) : (s.checkDat port fl).2.parts = s.parts :=
  foldl_snd_parts _ (fun x f => by simp) _ _
@[simp] theorem State.reqSeen_parts (op q) (s : State) : (s.reqSeen op q).parts = s.parts := by simp [State.reqSeen]
@[simp] theorem State.reqFlit_parts (i op q) (s : State) : (s.reqFlit i op q).parts = s.parts := by
  simp only [State.reqFlit]
  repeat' split
  all_goals simp
@[simp] theorem State.chargeFetch_parts (op q) (s : State) : (s.chargeFetch op q).parts = s.parts := by
  unfold State.chargeFetch
  split <;> simp
@[simp] theorem State.takeFlit_parts (port txid f) (s : State) : (s.takeFlit port txid f).parts = s.parts := by
  unfold State.takeFlit
  repeat' split
  all_goals simp
@[simp] theorem State.recoveryFlit_parts (port txid f) (s : State) : (s.recoveryFlit port txid f).parts = s.parts := by
  unfold State.recoveryFlit
  split <;> simp
@[simp] theorem State.datFlit_parts (i port txid f) (s : State) : (s.datFlit i port txid f).parts = s.parts := by
  simp only [State.datFlit]
  repeat' split
  all_goals simp
@[simp] theorem State.ackTaken_parts (port id tagged) (s : State) : (s.ackTaken port id tagged).parts = s.parts := by
  unfold State.ackTaken
  split <;> simp
@[simp] theorem State.compAck_parts (r) (s : State) : (s.compAck r).parts = s.parts := by
  unfold State.compAck
  repeat' split
  all_goals simp
@[simp] theorem State.snrFlit_parts (i : Instr) (r : Snr) (act : State → State) (h : ∀ t : State, (act t).parts = t.parts)
    (s : State) : (s.snrFlit i r act).parts = s.parts := by
  unfold State.snrFlit
  split <;> simp [h]
@[simp] theorem State.provExpire_parts (e) (s : State) : (s.provExpire e).parts = s.parts := by simp [State.provExpire]
@[simp] theorem State.timeout_parts (op port txid agent part addr tag c) (s : State) :
    (s.timeout op port txid agent part addr tag c).parts = s.parts := by
  simp [State.timeout]
@[simp] theorem State.wdExpire_parts (o) (s : State) : (s.wdExpire o).parts = s.parts := by
  unfold State.wdExpire
  split <;> simp
/-- `State.spillEnd` is unfolded as a constant here: the kernel would otherwise compare the two sides by evaluating the block number
in it (`Desc.blockOf`), a multiplication by 2^21 of unary numbers. -/
@[simp] theorem State.spillEnd_parts (t : Txn) (q : Req) (tag : Option Nat) (s : State) : (s.spillEnd t q tag).parts = s.parts := by
  suffices h : ∀ f, f = State.spillEnd → (f t q tag s).parts = s.parts from h _ rfl
  intro f hf
  delta State.spillEnd at hf
  subst hf
  beta_reduce
  extract_lets i b
  clear_value b
  split
  next ok u h =>
    have hu : u.parts = s.parts := by simp [(eq_pair_iff.1 h).2]
    clear h
    extract_lets v
    split
    · simp [v, hu]
    · split
      next st x hx =>
        have hx : x.parts = v.parts := by simp [(eq_pair_iff.1 hx).2]
        simp [hx, v, hu]
@[simp] theorem fabricRow_keeps (i op q) (s : State) : KeepsParts s (fabricRow i op q s) := by simp [fabricRow]
@[simp] theorem execRdShared_keeps (q) (s : State) : KeepsParts s (execRdShared q s) := by simp [execRdShared]
@[simp] theorem execRdOnce_keeps (q) (s : State) : KeepsParts s (execRdOnce q s) := by simp [execRdOnce]
@[simp] theorem execRdUnique_keeps (q) (s : State) : KeepsParts s (execRdUnique q s) := by simp [execRdUnique]
@[simp] theorem execUpgrade_keeps (q) (s : State) : KeepsParts s (execUpgrade q s) := by simp [execUpgrade]
@[simp] theorem execWrFull_keeps (q) (s : State) : KeepsParts s (execWrFull q s) := by simp [execWrFull]
@[simp] theorem execWrPartial_keeps (q) (s : State) : KeepsParts s (execWrPartial q s) := by simp [execWrPartial]
@[simp] theorem execZeroLine_keeps (q) (s : State) : KeepsParts s (execZeroLine q s) := by simp [execZeroLine]
@[simp] theorem execAppend_keeps (q) (s : State) : KeepsParts s (execAppend q s) := by simp [execAppend]
@[simp] theorem execWriteback_keeps (q) (s : State) : KeepsParts s (execWriteback q s) := by simp [execWriteback]
@[simp] theorem execWriteclean_keeps (q) (s : State) : KeepsParts s (execWriteclean q s) := by simp [execWriteclean]
@[simp] theorem execEvictClean_keeps (q) (s : State) : KeepsParts s (execEvictClean q s) := by simp [execEvictClean]
@[simp] theorem execProvisionalRead_keeps (once q) (s : State) : KeepsParts s (execProvisionalRead once q s) := by
  simp [execProvisionalRead]
@[simp] theorem execConfirm_keeps (q) (s : State) : KeepsParts s (execConfirm q s) := by simp [execConfirm]
@[simp] theorem execCancel_keeps (q) (s : State) : KeepsParts s (execCancel q s) := by simp [execCancel]
@[simp] theorem execReservedOpcodeRequest_keeps (opc q) (s : State) : KeepsParts s (execReservedOpcodeRequest opc q s) := by
  simp [execReservedOpcodeRequest]
@[simp] theorem execAtAdd_keeps (q) (s : State) : KeepsParts s (execAtAdd q s) := by simp [execAtAdd]
@[simp] theorem execAtCadd_keeps (q) (s : State) : KeepsParts s (execAtCadd q s) := by simp [execAtCadd]
@[simp] theorem execAtMin_keeps (q) (s : State) : KeepsParts s (execAtMin q s) := by simp [execAtMin]
@[simp] theorem execAtMax_keeps (q) (s : State) : KeepsParts s (execAtMax q s) := by simp [execAtMax]
@[simp] theorem execAtAnd_keeps (q) (s : State) : KeepsParts s (execAtAnd q s) := by simp [execAtAnd]
@[simp] theorem execAtOr_keeps (q) (s : State) : KeepsParts s (execAtOr q s) := by simp [execAtOr]
@[simp] theorem execAtXor_keeps (q) (s : State) : KeepsParts s (execAtXor q s) := by simp [execAtXor]
@[simp] theorem execAtSwap_keeps (q) (s : State) : KeepsParts s (execAtSwap q s) := by simp [execAtSwap]
@[simp] theorem execAtCas64_keeps (q) (s : State) : KeepsParts s (execAtCas64 q s) := by simp [execAtCas64]
@[simp] theorem execAtCas128_keeps (q) (s : State) : KeepsParts s (execAtCas128 q s) := by simp [execAtCas128]
@[simp] theorem execAccumulate_keeps (q) (s : State) : KeepsParts s (execAccumulate q s) := by simp [execAccumulate]
@[simp] theorem execRdFused_keeps (q) (s : State) : KeepsParts s (execRdFused q s) := by simp [execRdFused]
@[simp] theorem execWinArrive_keeps (q) (s : State) : KeepsParts s (execWinArrive q s) := by simp [execWinArrive]
@[simp] theorem execWinFold_keeps (q) (s : State) : KeepsParts s (execWinFold q s) := by simp [execWinFold]
@[simp] theorem execWinCollect_keeps (q) (s : State) : KeepsParts s (execWinCollect q s) := by simp [execWinCollect]
@[simp] theorem execCueRing_keeps (q) (s : State) : KeepsParts s (execCueRing q s) := by simp [execCueRing]
@[simp] theorem execDatInData_keeps (port txid f) (s : State) : KeepsParts s (execDatInData port txid f s) := by
  simp [execDatInData]
@[simp] theorem execCompAck_keeps (r) (s : State) : KeepsParts s (execCompAck r s) := by simp [execCompAck]
@[simp] theorem execProvDeadline_keeps (port txid : Nat) (s : State) : KeepsParts s (execProvDeadline port txid s) := by
  unfold execProvDeadline
  split <;> simp
@[simp] theorem execWatchdogTimeout_keeps (port txid : Nat) (s : State) : KeepsParts s (execWatchdogTimeout port txid s) := by
  unfold execWatchdogTimeout
  split <;> simp
@[simp] theorem execAppendSpillComplete_keeps (port txid : Nat) (s : State) : KeepsParts s (execAppendSpillComplete port txid s) := by
  unfold execAppendSpillComplete
  split <;> simp
@[simp] theorem execFabCreditReturn_keeps (port snp rsp dat : Nat) (s : State) :
    KeepsParts s (execFabCreditReturn port snp rsp dat s) := by
  simp only [execFabCreditReturn]
  split <;> simp

/-! ### Machine/Snoop.lean -/

@[simp] theorem State.setSnoop_parts (tid port id f) (s : State) : (s.setSnoop tid port id f).parts = s.parts := by
  simp [State.setSnoop]
@[simp] theorem State.setFwd_parts (homeId f) (s : State) : (s.setFwd homeId f).parts = s.parts := by simp [State.setFwd]
@[simp] theorem State.fwdDone_parts (homeId) (s : State) : (s.fwdDone homeId).parts = s.parts := by
  unfold State.fwdDone
  repeat' split
  all_goals simp
@[simp] theorem State.takeAnswer_parts (t port id code data pd) (s : State) :
    (s.takeAnswer t port id code data pd).parts = s.parts := by
  unfold State.takeAnswer
  split <;> simp
@[simp] theorem State.answer162_parts (r) (s : State) : (s.answer162 r).parts = s.parts := by
  unfold State.answer162
  repeat' split
  all_goals simp
@[simp] theorem State.snoopFlits_parts (port id fl) (s : State) : (s.snoopFlits port id fl).parts = s.parts := by
  unfold State.snoopFlits
  repeat' split
  all_goals simp
@[simp] theorem State.crossed_parts (t k) (s : State) : (s.crossed t k).parts = s.parts := by simp [State.crossed]
@[simp] theorem State.inflightFor_parts (t port id notice) (s : State) : (s.inflightFor t port id notice).parts = s.parts := by
  unfold State.inflightFor
  split <;> simp
@[simp] theorem State.inflight_parts (r) (s : State) : (s.inflight r).parts = s.parts := by
  unfold State.inflight
  repeat' split
  all_goals simp
@[simp] theorem State.pumpAll_parts (s : State) : (s.pumpAll).parts = s.parts := by simp [State.pumpAll]
@[simp] theorem State.loseHolding_parts (t k) (s : State) : (s.loseHolding t k).parts = s.parts := by
  simp only [State.loseHolding]
  repeat' split
  all_goals simp
@[simp] theorem State.loseSnoops_parts (a) (s : State) : (s.loseSnoops a).parts = s.parts := by simp [State.loseSnoops]
@[simp] theorem State.loseTorn_parts (a line part) (s : State) : (s.loseTorn a line part).parts = s.parts := by
  unfold State.loseTorn
  split <;> simp
@[simp] theorem State.loseOwn_parts (a) (s : State) : (s.loseOwn a).parts = s.parts := by simp [State.loseOwn]
@[simp] theorem State.loseListed_parts (a) (s : State) : (s.loseListed a).parts = s.parts := by simp [State.loseListed]
@[simp] theorem State.unsend_parts (a) (s : State) : (s.unsend a).parts = s.parts := by simp [State.unsend]
@[simp] theorem State.downPoint_parts (a silent) (s : State) : (s.downPoint a silent).parts = s.parts := by
  simp [State.downPoint]
@[simp] theorem State.endReport_parts (r) (s : State) : (s.endReport r).parts = s.parts := by simp [State.endReport]
@[simp] theorem State.walkEnd_parts (s : State) : (s.walkEnd).parts = s.parts := by simp [State.walkEnd]
@[simp] theorem execSnoopResponse_keeps (r) (s : State) : KeepsParts s (execSnoopResponse r s) := by simp [execSnoopResponse]
@[simp] theorem execSnoopData_keeps (port id : Nat) (fl : List DatFlit) (s : State) : KeepsParts s (execSnoopData port id fl s) := by
  simp only [execSnoopData, keepsParts_finish]
  split <;> simp
@[simp] theorem execSnpInflight_keeps (r) (s : State) : KeepsParts s (execSnpInflight r s) := by simp [execSnpInflight]
@[simp] theorem execSendWaitingSnoop_keeps (port) (s : State) : KeepsParts s (execSendWaitingSnoop port s) := by
  simp [execSendWaitingSnoop]
@[simp] theorem execAgentDown_keeps (a) (s : State) : KeepsParts s (execAgentDown a s) := by simp [execAgentDown]
@[simp] theorem execReclaimWalkEnd_keeps (s : State) : KeepsParts s (execReclaimWalkEnd s) := by simp [execReclaimWalkEnd]

/-! ### Machine/Regulate.lean -/

@[simp] theorem State.reportScale_parts (res old new) (s : State) : (s.reportScale res old new).parts = s.parts := by
  simp [State.reportScale]
@[simp] theorem State.rescale_parts (took res) (s : State) : (s.rescale took res).parts = s.parts := by simp [State.rescale]
@[simp] theorem State.settleBal_parts (g res) (s : State) : (s.settleBal g res).parts = s.parts := by simp [State.settleBal]
@[simp] theorem State.settleRound_parts (s : State) : (s.settleRound).parts = s.parts := by simp [State.settleRound]
@[simp] theorem State.sendTokens_parts (g res n k : Nat) (s : State) : (s.sendTokens g res n k).parts = s.parts := by
  induction n generalizing k s with
  | zero => rfl
  | succ n ih => simp [State.sendTokens, ih]
@[simp] theorem State.grant_parts (g res units) (s : State) : (s.grant g res units).parts = s.parts := by simp [State.grant]
@[simp] theorem State.grantRes_parts (res) (s : State) : (s.grantRes res).parts = s.parts := by simp [State.grantRes]
@[simp] theorem State.regroupAll_parts (old new) (s : State) : (s.regroupAll old new).parts = s.parts := by
  simp [State.regroupAll]
@[simp] theorem State.takeReg_parts (s : State) : (s.takeReg).parts = s.parts := by unfold State.takeReg; split <;> simp
@[simp] theorem State.grantRound_parts (s : State) : (s.grantRound).parts = s.parts := by simp [State.grantRound]
@[simp] theorem State.granted_parts (s : State) : (s.granted).parts = s.parts := by simp [State.granted]
@[simp] theorem State.sleepRound_parts (s : State) : (s.sleepRound).parts = s.parts := by simp [State.sleepRound]
@[simp] theorem State.urgChange_parts (i level) (s : State) : (s.urgChange i level).parts = s.parts := by simp [State.urgChange]
@[simp] theorem State.urgSample_parts (s : State) : (s.urgSample).parts = s.parts := by simp [State.urgSample]
@[simp] theorem execGrantRound_keeps (s : State) : KeepsParts s (execGrantRound s) := by simp [execGrantRound]
@[simp] theorem execUrgChange_keeps (input level) (s : State) : KeepsParts s (execUrgChange input level s) := by
  simp [execUrgChange]

/-! ### Machine/PrescCheck.lean -/

@[simp] theorem State.lensSettled_parts (s : State) : (s.lensSettled).parts = s.parts := by simp [State.lensSettled]

/-! ### Machine/Presc.lean -/

@[simp] theorem State.setMeas_parts (f) (s : State) : (s.setMeas f).parts = s.parts := by simp [State.setMeas]
@[simp] theorem State.prescNext_parts (s : State) : (s.prescNext).parts = s.parts := by unfold State.prescNext; split <;> simp
@[simp] theorem State.prescStart_parts (s : State) : (s.prescStart).parts = s.parts := by simp [State.prescStart]
@[simp] theorem State.prescRefuse_parts (e off) (s : State) : (s.prescRefuse e off).parts = s.parts := by
  simp [State.prescRefuse]
@[simp] theorem State.prescPend_parts (s : State) : (s.prescPend).parts = s.parts := by simp [State.prescPend]
@[simp] theorem State.prescSector_parts (off d poison) (s : State) : (s.prescSector off d poison).parts = s.parts := by
  simp [State.prescSector]
@[simp] theorem State.prescOk_parts (p) (s : State) : (s.prescOk p).parts = s.parts := by simp [State.prescOk]
@[simp] theorem State.loadCue_parts (p) (s : State) : (s.loadCue p).parts = s.parts := by simp [State.loadCue]
@[simp] theorem State.acceptPartial_parts (p) (s : State) : (s.acceptPartial p).parts = s.parts := by
  unfold State.acceptPartial
  split <;> simp
@[simp] theorem State.prescOutcome_parts (s : State) : (s.prescOutcome).parts = s.parts := by
  unfold State.prescOutcome
  split <;> simp
@[simp] theorem State.freshCue_parts (p) (s : State) : (s.freshCue p).parts = s.parts := by simp [State.freshCue]
@[simp] theorem State.releaseCollected_parts (s : State) : (s.releaseCollected).parts = s.parts := by
  simp [State.releaseCollected]
@[simp] theorem State.loadFull_parts (p : Presc) (s : State) : (s.loadFull p).parts = s.parts := by
  have h (l : List CLine) (u : State) : (l.foldl (fun (t : State) (c : CLine) => t.noteDead c.line) u).lens.slots.length =
      u.lens.slots.length := congrArg Parts.lens (parts_foldl _ (fun t c => by simp) l u)
  simp [State.loadFull, h]
@[simp] theorem State.enterService_parts (s : State) : (s.enterService).parts = s.parts := by simp [State.enterService]
@[simp] theorem State.applyFull_parts (p) (s : State) : (s.applyFull p).parts = s.parts := by simp [State.applyFull]
@[simp] theorem State.cfgDrainBegin_parts (s : State) : (s.cfgDrainBegin).parts = s.parts := by simp [State.cfgDrainBegin]
@[simp] theorem State.cfgReqSet_parts (s : State) : (s.cfgReqSet).parts = s.parts := by simp [State.cfgReqSet]
@[simp] theorem State.cfgReqUnset_parts (s : State) : (s.cfgReqUnset).parts = s.parts := by simp [State.cfgReqUnset]
@[simp] theorem State.prescCtl_parts (go req) (s : State) : (s.prescCtl go req).parts = s.parts := by
  simp only [State.prescCtl]
  split <;> simp
@[simp] theorem execPrescGo_keeps (src) (s : State) : KeepsParts s (execPrescGo src s) := by simp [execPrescGo]
@[simp] theorem execPrescOutcome_keeps (s : State) : KeepsParts s (execPrescOutcome s) := by simp [execPrescOutcome]
@[simp] theorem execFullPrescApplyComplete_keeps (s : State) : KeepsParts s (execFullPrescApplyComplete s) := by
  unfold execFullPrescApplyComplete
  split <;> simp
@[simp] theorem execCfgReq_keeps (src) (s : State) : KeepsParts s (execCfgReq src s) := by simp [execCfgReq]
@[simp] theorem execCfgReqClear_keeps (src) (s : State) : KeepsParts s (execCfgReqClear src s) := by simp [execCfgReqClear]
@[simp] theorem execConfigDrainComplete_keeps (s : State) : KeepsParts s (execConfigDrainComplete s) := by
  simp [execConfigDrainComplete]

/-! ### Machine/LensCmds.lean -/

@[simp] theorem State.swapCmd_parts (m) (s : State) : (s.swapCmd m).parts = s.parts := by simp [State.swapCmd]
@[simp] theorem State.swapPoint_parts (s : State) : (s.swapPoint).parts = s.parts := by unfold State.swapPoint; split <;> simp
@[simp] theorem State.rebuilt_parts (s : State) : (s.rebuilt).parts = s.parts := by simp only [State.rebuilt]; split <;> simp
@[simp] theorem State.editApply_parts (ds) (s : State) : (s.editApply ds).parts = s.parts := by simp [State.editApply]
@[simp] theorem State.shadowEdit_parts (insert slot) (s : State) : (s.shadowEdit insert slot).parts = s.parts := by
  unfold State.shadowEdit
  split <;> simp
@[simp] theorem State.thrashEnd_parts (p) (s : State) : (s.thrashEnd p).parts = s.parts := by simp [State.thrashEnd]
@[simp] theorem execLensSwap_keeps (m) (s : State) : KeepsParts s (execLensSwap m s) := by simp [execLensSwap]
@[simp] theorem execSwapPoint_keeps (s : State) : KeepsParts s (execSwapPoint s) := by simp [execSwapPoint]
@[simp] theorem execShadowRebuildComplete_keeps (s : State) : KeepsParts s (execShadowRebuildComplete s) := by
  simp [execShadowRebuildComplete]
@[simp] theorem execThrashWindowEnd_keeps (part) (s : State) : KeepsParts s (execThrashWindowEnd part s) := by
  simp [execThrashWindowEnd]
@[simp] theorem execShadowEditInsert_keeps (src slot) (s : State) : KeepsParts s (execShadowEditInsert src slot s) := by
  simp [execShadowEditInsert]
@[simp] theorem execShadowEditRemove_keeps (src slot) (s : State) : KeepsParts s (execShadowEditRemove src slot s) := by
  simp [execShadowEditRemove]

/-! ### Machine/Range.lean -/

@[simp] theorem State.rangeCmd_parts (k m) (s : State) : (s.rangeCmd k m).parts = s.parts := by
  simp only [State.rangeCmd]
  split <;> simp
@[simp] theorem State.rangeEnd_parts (r) (s : State) : (s.rangeEnd r).parts = s.parts := by simp [State.rangeEnd]
@[simp] theorem execFlushRange_keeps (m) (s : State) : KeepsParts s (execFlushRange m s) := by simp [execFlushRange]
@[simp] theorem execInvalidateRange_keeps (m) (s : State) : KeepsParts s (execInvalidateRange m s) := by
  simp [execInvalidateRange]
@[simp] theorem execDiscardRange_keeps (m) (s : State) : KeepsParts s (execDiscardRange m s) := by simp [execDiscardRange]
@[simp] theorem execZeroRange_keeps (m) (s : State) : KeepsParts s (execZeroRange m s) := by simp [execZeroRange]
@[simp] theorem execUnpin_keeps (m) (s : State) : KeepsParts s (execUnpin m s) := by simp [execUnpin]
@[simp] theorem execRangeOpComplete_keeps (window : Option Nat) (s : State) : KeepsParts s (execRangeOpComplete window s) := by
  unfold execRangeOpComplete
  split <;> simp

/-! ### Machine/Handover.lean -/

@[simp] theorem State.setMap_parts (b pos) (s : State) : (s.setMap b pos).parts = s.parts := by simp [State.setMap]
@[simp] theorem State.dropHand_parts (b) (s : State) : (s.dropHand b).parts = s.parts := by simp [State.dropHand]
@[simp] theorem State.dropReplicas_parts (b) (s : State) : (s.dropReplicas b).parts = s.parts := by simp [State.dropReplicas]
@[simp] theorem State.heldReq_parts (w) (s : State) : (s.heldReq w).parts = s.parts := by simp [State.heldReq]
@[simp] theorem State.ownReplicas_parts (b) (s : State) : (s.ownReplicas b).parts = s.parts := by simp [State.ownReplicas]
@[simp] theorem State.commitDone_parts (h) (s : State) : (s.commitDone h).parts = s.parts := by simp [State.commitDone]
@[simp] theorem State.listBack_parts (b idx d poison) (s : State) : (s.listBack b idx d poison).parts = s.parts := by
  unfold State.listBack
  split <;> simp
@[simp] theorem State.handRun_parts (r b peer addr count) (s : State) : (s.handRun r b peer addr count).parts = s.parts := by
  simp only [State.handRun]
  repeat' split
  all_goals simp
@[simp] theorem State.handCmd_parts (m) (s : State) : (s.handCmd m).parts = s.parts := by
  simp only [State.handCmd]
  split <;> simp
@[simp] theorem execHandoverClaim_keeps (m) (s : State) : KeepsParts s (execHandoverClaim m s) := by simp [execHandoverClaim]
@[simp] theorem execHandoverRelease_keeps (m) (s : State) : KeepsParts s (execHandoverRelease m s) := by
  simp [execHandoverRelease]
@[simp] theorem execHandoverCommit_keeps (m) (s : State) : KeepsParts s (execHandoverCommit m s) := by simp [execHandoverCommit]
@[simp] theorem execHandoverRelay_keeps (m) (s : State) : KeepsParts s (execHandoverRelay m s) := by simp [execHandoverRelay]
@[simp] theorem State.releaseEnd_parts (h) (s : State) : (s.releaseEnd h).parts = s.parts := by simp [State.releaseEnd]
@[simp] theorem execHandoverReleaseComplete_keeps (bucket : Nat) (s : State) : KeepsParts s (execHandoverReleaseComplete bucket s) := by
  unfold execHandoverReleaseComplete
  split <;> simp

/-! ### Machine/Memory.lean -/

@[simp] theorem State.takeRead_parts (r) (s : State) : (s.takeRead r).parts = s.parts := by simp [State.takeRead]
@[simp] theorem State.fillFlit_parts (line i x) (s : State) : (s.fillFlit line i x).parts = s.parts := by simp [State.fillFlit]
@[simp] theorem State.specDone_parts (line) (s : State) : (s.specDone line).parts = s.parts := by
  unfold State.specDone
  split <;> simp
@[simp] theorem State.readBack_parts (r f) (s : State) : (s.readBack r f).parts = s.parts := by
  unfold State.readBack
  repeat' split
  all_goals simp
@[simp] theorem State.memFlit_parts (i r f) (s : State) : (s.memFlit i r f).parts = s.parts := by
  unfold State.memFlit
  repeat' split
  all_goals simp
@[simp] theorem State.retryFills_parts (s : State) : (s.retryFills).parts = s.parts := by simp [State.retryFills]
@[simp] theorem State.acked_parts (r) (s : State) : (s.acked r).parts = s.parts := by unfold State.acked; split <;> simp
@[simp] theorem State.wackFlit_parts (i r flips) (s : State) : (s.wackFlit i r flips).parts = s.parts := by
  unfold State.wackFlit
  split <;> simp
@[simp] theorem State.memCredits_parts (port req wdata) (s : State) : (s.memCredits port req wdata).parts = s.parts := by
  simp [State.memCredits]
@[simp] theorem execMemReadData_keeps (f : MemFlit) (s : State) : KeepsParts s (execMemReadData f s) := by
  unfold execMemReadData
  split <;> simp
@[simp] theorem execTdcFetchComplete_keeps (f : MemFlit) (s : State) : KeepsParts s (execTdcFetchComplete f s) := by
  unfold execTdcFetchComplete
  split
  · split
    · simp
    · simp
  · simp
@[simp] theorem execWack_keeps (port mtag flips : Nat) (s : State) : KeepsParts s (execWack port mtag flips s) := by
  unfold execWack
  split <;> simp
@[simp] theorem execWaitingRequestRestart_keeps (s : State) : KeepsParts s (execWaitingRequestRestart s) := by
  simp [execWaitingRequestRestart]
@[simp] theorem execMemCreditReturn_keeps (port req wdata) (s : State) :
    KeepsParts s (execMemCreditReturn port req wdata s) := by
  simp [execMemCreditReturn]

/-! ### Machine/Resilver.lean -/

@[simp] theorem State.endCommand_parts (p) (s : State) : (s.endCommand p).parts = s.parts := by simp [State.endCommand]
@[simp] theorem State.endWalks_parts (p) (s : State) : (s.endWalks p).parts = s.parts := by simp [State.endWalks]
@[simp] theorem State.endSlots_parts (p) (s : State) : (s.endSlots p).parts = s.parts := by simp [State.endSlots]
@[simp] theorem State.endChans_parts (p : Nat) (s : State) : (s.endChans p).parts = s.parts := by
  simp only [State.endChans, State.parts_mk, List.length_map, Parts.of_state]
  refine parts_foldl _ (fun t b => ?_) _ _
  split <;> simp
@[simp] theorem State.dropWin_parts (w) (s : State) : (s.dropWin w).parts = s.parts := by simp [State.dropWin]
@[simp] theorem State.dropWins_parts (p) (s : State) : (s.dropWins p).parts = s.parts := by simp [State.dropWins]
@[simp] theorem State.dropScratch_parts (p) (s : State) : (s.dropScratch p).parts = s.parts := by simp [State.dropScratch]
@[simp] theorem State.resDrain_parts (p) (s : State) : (s.resDrain p).parts = s.parts := by simp [State.resDrain]
@[simp] theorem State.freeLenses_parts (p) (s : State) : (s.freeLenses p).parts = s.parts := by simp [State.freeLenses]
@[simp] theorem State.zeroCounts_parts (p) (s : State) : (s.zeroCounts p).parts = s.parts := by simp [State.zeroCounts]
@[simp] theorem State.resZeroed_parts (s : State) : (s.resZeroed).parts = s.parts := by simp [State.resZeroed]
@[simp] theorem State.resRelease_parts (s : State) : (s.resRelease).parts = s.parts := by simp [State.resRelease]
@[simp] theorem State.resCmd_parts (m) (s : State) : (s.resCmd m).parts = s.parts := by
  simp only [State.resCmd]
  repeat' split
  all_goals simp
@[simp] theorem execResilverDrain_keeps (m) (s : State) : KeepsParts s (execResilverDrain m s) := by simp [execResilverDrain]
@[simp] theorem execResilverZero_keeps (m) (s : State) : KeepsParts s (execResilverZero m s) := by simp [execResilverZero]
@[simp] theorem execResilverRelease_keeps (m) (s : State) : KeepsParts s (execResilverRelease m s) := by
  simp [execResilverRelease]
@[simp] theorem execResilverDrainComplete_keeps (s : State) : KeepsParts s (execResilverDrainComplete s) := by
  simp [execResilverDrainComplete]
@[simp] theorem execResilverZeroComplete_keeps (s : State) : KeepsParts s (execResilverZeroComplete s) := by
  simp [execResilverZeroComplete]

/-! ### Machine/Test.lean -/

@[simp] theorem State.testEnter_parts (s : State) : (s.testEnter).parts = s.parts := by simp [State.testEnter]
@[simp] theorem State.initPass_parts (s : State) : (s.initPass).parts = s.parts := by simp [State.initPass]
@[simp] theorem State.testLeave_parts (s : State) : (s.testLeave).parts = s.parts := by simp [State.testLeave]
@[simp] theorem State.testCtl_parts (req exit) (s : State) : (s.testCtl req exit).parts = s.parts := by simp [State.testCtl]
@[simp] theorem execDbgSelChange_keeps (sel) (s : State) : KeepsParts s (execDbgSelChange sel s) := by simp [execDbgSelChange]
@[simp] theorem execTestReq_keeps (src) (s : State) : KeepsParts s (execTestReq src s) := by simp [execTestReq]
@[simp] theorem execTestExit_keeps (src) (s : State) : KeepsParts s (execTestExit src s) := by simp [execTestExit]

/-! ### Machine/Regs.lean -/

@[simp] theorem State.writePkg_parts (v) (s : State) : (s.writePkg v).parts = s.parts := by simp [State.writePkg]
@[simp] theorem State.writeMeasLock_parts (v) (s : State) : (s.writeMeasLock v).parts = s.parts := by simp [State.writeMeasLock]
@[simp] theorem State.writeElog_parts (i v) (s : State) : (s.writeElog i v).parts = s.parts := by simp [State.writeElog]
@[simp] theorem State.writeStage_parts (i r v) (s : State) : (s.writeStage i r v).parts = s.parts := by simp [State.writeStage]
@[simp] theorem State.writePrescCtl_parts (v) (s : State) : (s.writePrescCtl v).parts = s.parts := by simp [State.writePrescCtl]
@[simp] theorem State.writeShadowEdit_parts (v) (s : State) : (s.writeShadowEdit v).parts = s.parts := by
  unfold State.writeShadowEdit
  repeat' split
  all_goals simp
@[simp] theorem State.writeHotRing_parts (ctl v) (s : State) : (s.writeHotRing ctl v).parts = s.parts := by
  simp [State.writeHotRing]
@[simp] theorem State.writeHotCons_parts (v) (s : State) : (s.writeHotCons v).parts = s.parts := by simp [State.writeHotCons]
@[simp] theorem mbRun_parts (op : Nat) (m : MbCmd) (s : State) : (mbRun op m s).parts = s.parts := by
  unfold mbRun
  split <;> simp
@[simp] theorem State.writeMb_parts (src window r v) (s : State) : (s.writeMb src window r v).parts = s.parts := by
  simp [State.writeMb]
@[simp] theorem State.writeArm_parts (src window k v) (s : State) : (s.writeArm src window k v).parts = s.parts := by
  simp [State.writeArm]
@[simp] theorem State.writeWin_parts (src p r v) (s : State) : (s.writeWin src p r v).parts = s.parts := by
  unfold State.writeWin
  repeat' split
  all_goals simp
@[simp] theorem State.writeElogBlock_parts (o v) (s : State) : (s.writeElogBlock o v).parts = s.parts := by
  unfold State.writeElogBlock
  repeat' split
  all_goals simp
@[simp] theorem State.writeGlobal_parts (o v) (s : State) : (s.writeGlobal o v).parts = s.parts := by
  unfold State.writeGlobal
  split <;> simp
@[simp] theorem State.writeCtrs_parts (o v) (s : State) : (s.writeCtrs o v).parts = s.parts := by
  unfold State.writeCtrs
  repeat' split
  all_goals simp
@[simp] theorem State.writeMgmt_parts (src o v) (s : State) : (s.writeMgmt src o v).parts = s.parts := by simp [State.writeMgmt]
@[simp] theorem State.csrpWrite_parts (src o v) (s : State) : (s.csrpWrite src o v).parts = s.parts := by
  unfold State.csrpWrite
  split <;> simp
@[simp] theorem State.onGate_parts (i : Instr) (o : Nat) (act : State → State) (h : ∀ t : State, (act t).parts = t.parts)
    (s : State) : (s.onGate i o act).parts = s.parts := by
  simp [State.onGate, h]
@[simp] theorem State.readParity_parts (o) (s : State) : (s.readParity o).parts = s.parts := by
  unfold State.readParity
  split <;> simp
@[simp] theorem State.answerRead_parts (src o) (s : State) : (s.answerRead src o).parts = s.parts := by simp [State.answerRead]
@[simp] theorem execRegisterWrite_keeps (src offset value) (s : State) :
    KeepsParts s (execRegisterWrite src offset value s) := by
  simp [execRegisterWrite]
@[simp] theorem execCsrpReadInSleep_keeps (src offset) (s : State) : KeepsParts s (execCsrpReadInSleep src offset s) := by
  simp [execCsrpReadInSleep]
@[simp] theorem execPkgIdentWrite_keeps (src value) (s : State) : KeepsParts s (execPkgIdentWrite src value s) := by
  simp [execPkgIdentWrite]
@[simp] theorem execMeasLock_keeps (src) (s : State) : KeepsParts s (execMeasLock src s) := by simp [execMeasLock]
@[simp] theorem execElogClear_keeps (src entry) (s : State) : KeepsParts s (execElogClear src entry s) := by
  simp [execElogClear]

/-! ### Machine/Span.lean -/

@[simp] theorem State.replicaDown_parts (r) (s : State) : (s.replicaDown r).parts = s.parts := by simp [State.replicaDown]
@[simp] theorem State.portDown_parts (checks) (s : State) : (s.portDown checks).parts = s.parts := by simp [State.portDown]
@[simp] theorem State.setLink_parts (x) (s : State) : (s.setLink x).parts = s.parts := by simp [State.setLink]
@[simp] theorem State.detect_parts (lanes) (s : State) : (s.detect lanes).parts = s.parts := by simp [State.detect]
@[simp] theorem State.sendCaps_parts (c) (s : State) : (s.sendCaps c).parts = s.parts := by simp [State.sendCaps]
@[simp] theorem State.capsFail_parts (ks) (s : State) : (s.capsFail ks).parts = s.parts := by simp [State.capsFail]
@[simp] theorem State.takeLanes_parts (lanes) (s : State) : (s.takeLanes lanes).parts = s.parts := by simp [State.takeLanes]
@[simp] theorem State.agree_parts (c) (s : State) : (s.agree c).parts = s.parts := by simp [State.agree]
@[simp] theorem State.noteFallback_parts (old) (s : State) : (s.noteFallback old).parts = s.parts := by
  simp [State.noteFallback]
@[simp] theorem State.farBack_parts (s : State) : (s.farBack).parts = s.parts := by simp [State.farBack]
@[simp] theorem State.linkFresh_parts (s : State) : (s.linkFresh).parts = s.parts := by simp [State.linkFresh]
@[simp] theorem State.linkAgain_parts (old) (s : State) : (s.linkAgain old).parts = s.parts := by simp [State.linkAgain]
@[simp] theorem State.trainEnd_parts (fresh lanes c) (s : State) : (s.trainEnd fresh lanes c).parts = s.parts := by
  simp only [State.trainEnd]
  repeat' split
  all_goals simp
@[simp] theorem State.spanAcked_parts (ack) (s : State) : (s.spanAcked ack).parts = s.parts := by simp [State.spanAcked]
@[simp] theorem State.nak_parts (ack) (s : State) : (s.nak ack).parts = s.parts := by simp [State.nak]
@[simp] theorem State.countUnits_parts (f) (s : State) : (s.countUnits f).parts = s.parts := by simp [State.countUnits]
@[simp] theorem State.laneFails_parts (lane) (s : State) : (s.laneFails lane).parts = s.parts := by simp [State.laneFails]
@[simp] theorem State.laneRetired_parts (lane seq) (s : State) : (s.laneRetired lane seq).parts = s.parts := by
  simp [State.laneRetired]
@[simp] theorem State.giveUp_parts (s : State) : (s.giveUp).parts = s.parts := by simp [State.giveUp]
@[simp] theorem State.spanIn_parts (i : Instr) (act off : State → State) (h : ∀ t : State, (act t).parts = t.parts)
    (h' : ∀ t : State, (off t).parts = t.parts) (s : State) : (s.spanIn i act off).parts = s.parts := by
  unfold State.spanIn
  split <;> simp [h, h']
@[simp] theorem State.relayIn_parts (op q) (s : State) : (s.relayIn op q).parts = s.parts := by simp [State.relayIn]
@[simp] theorem State.relayOff_parts (op q) (s : State) : (s.relayOff op q).parts = s.parts := by simp [State.relayOff]
@[simp] theorem State.relayGrant_parts (r) (s : State) : (s.relayGrant r).parts = s.parts := by simp [State.relayGrant]
@[simp] theorem State.relayLate_parts (r granted) (s : State) : (s.relayLate r granted).parts = s.parts := by
  simp [State.relayLate]
@[simp] theorem State.openRelay_parts (tag) (s : State) : (s.openRelay tag).parts = s.parts := by simp [State.openRelay]
@[simp] theorem State.rspIn_parts (tag status grant isOpen dat partialAttr) (s : State) :
    (s.rspIn tag status grant isOpen dat partialAttr).parts = s.parts := by
  unfold State.rspIn
  split <;> simp
@[simp] theorem State.snpFwd_parts (op line id agent) (s : State) : (s.snpFwd op line id agent).parts = s.parts := by
  simp only [State.snpFwd]
  repeat' split
  all_goals simp
@[simp] theorem State.snpIn_parts (op line id agent) (s : State) : (s.snpIn op line id agent).parts = s.parts := by
  simp only [State.snpIn]
  repeat' split
  all_goals simp
@[simp] theorem State.snrIn_parts (code id notice pd dat) (s : State) : (s.snrIn code id notice pd dat).parts = s.parts := by
  unfold State.snrIn
  repeat' split
  all_goals simp
@[simp] theorem State.hackIn_parts (tag refused) (s : State) : (s.hackIn tag refused).parts = s.parts := by
  unfold State.hackIn
  split <;> simp
@[simp] theorem State.fillIn_parts (line dat) (s : State) : (s.fillIn line dat).parts = s.parts := by
  unfold State.fillIn
  split <;> simp
@[simp] theorem State.verIn_parts (base size hash) (s : State) : (s.verIn base size hash).parts = s.parts := by
  simp [State.verIn]
@[simp] theorem State.retireIn_parts (lane seq) (s : State) : (s.retireIn lane seq).parts = s.parts := by simp [State.retireIn]
@[simp] theorem State.recIn_parts (r : SpanRec) (s : State) : (s.recIn r).parts = s.parts := by
  cases r with
  | hrec line agent tag => exact State.spanIn_parts _ _ _ (fun t => by simp) (fun t => rfl) s
  | _ => simp [State.recIn]
@[simp] theorem State.owe_parts (chan n) (s : State) : (s.owe chan n).parts = s.parts := by simp [State.owe]
@[simp] theorem State.slotIn_parts (x : Nat × Sector) (s : State) : (s.slotIn x).parts = s.parts := by
  refine (parts_foldl _ (fun t r => ?_) _ _).trans (by simp)
  split <;> simp
@[simp] theorem State.frameGood_parts (f) (s : State) : (s.frameGood f).parts = s.parts := by
  simp only [State.frameGood]
  split <;> simp
@[simp] theorem State.rxFails_parts (unit seq) (s : State) : (s.rxFails unit seq).parts = s.parts := by simp [State.rxFails]
@[simp] theorem State.frameBad_parts (unit seq) (s : State) : (s.frameBad unit seq).parts = s.parts := by simp [State.frameBad]
@[simp] theorem State.frame_parts (f) (s : State) : (s.frame f).parts = s.parts := by simp [State.frame]
@[simp] theorem execSpanDetect_keeps (lanes) (s : State) : KeepsParts s (execSpanDetect lanes s) := by simp [execSpanDetect]
@[simp] theorem execSpanTrainingComplete_keeps (lanes caps) (s : State) :
    KeepsParts s (execSpanTrainingComplete lanes caps s) := by
  simp [execSpanTrainingComplete]
@[simp] theorem execSpanRetrainComplete_keeps (lanes caps) (s : State) :
    KeepsParts s (execSpanRetrainComplete lanes caps s) := by
  simp [execSpanRetrainComplete]
@[simp] theorem execSpanFrame_keeps (f) (s : State) : KeepsParts s (execSpanFrame f s) := by simp [execSpanFrame]
@[simp] theorem execSpanNak_keeps (ack) (s : State) : KeepsParts s (execSpanNak ack s) := by simp [execSpanNak]
@[simp] theorem execLaneFailure_keeps (lane) (s : State) : KeepsParts s (execLaneFailure lane s) := by simp [execLaneFailure]
@[simp] theorem recRow_keeps (r) (s : State) : KeepsParts s (recRow r s) := by simp [recRow]
@[simp] theorem execRetire_keeps (lane seq) (s : State) : KeepsParts s (execRetire lane seq s) := by simp [execRetire]
@[simp] theorem execSpanDownTimeout_keeps (s : State) : KeepsParts s (execSpanDownTimeout s) := by simp [execSpanDownTimeout]
@[simp] theorem execSpanReqRecord_keeps (op q) (s : State) : KeepsParts s (execSpanReqRecord op q s) := by
  simp [execSpanReqRecord]
@[simp] theorem execSpanRspRecord_keeps (tag status grant isOpen dat partialAttr) (s : State) :
    KeepsParts s (execSpanRspRecord tag status grant isOpen dat partialAttr s) := by
  simp [execSpanRspRecord]
@[simp] theorem execSpanSnpRecord_keeps (op line id agent) (s : State) :
    KeepsParts s (execSpanSnpRecord op line id agent s) := by
  simp [execSpanSnpRecord]
@[simp] theorem execSpanSnrRecord_keeps (code id notice pd dat) (s : State) :
    KeepsParts s (execSpanSnrRecord code id notice pd dat s) := by
  simp [execSpanSnrRecord]
@[simp] theorem execHrec_keeps (line agent tag) (s : State) : KeepsParts s (execHrec line agent tag s) := by simp [execHrec]
@[simp] theorem execHack_keeps (tag refused) (s : State) : KeepsParts s (execHack tag refused s) := by simp [execHack]
@[simp] theorem execFill_keeps (line slot dat) (s : State) : KeepsParts s (execFill line slot dat s) := by simp [execFill]
@[simp] theorem execVer_keeps (slot base size hash) (s : State) : KeepsParts s (execVer slot base size hash s) := by
  simp [execVer]
@[simp] theorem execMirrorMismatch_keeps (slot) (s : State) : KeepsParts s (execMirrorMismatch slot s) := by
  simp [execMirrorMismatch]
@[simp] theorem execSpanWakeI_keeps (s : State) : KeepsParts s (execSpanWakeI s) := by simp [execSpanWakeI]

/-! ### Machine/Power.lean -/

@[simp] theorem heldRec_keeps (r) (s : State) : KeepsParts s (heldRec r s) := by simp [heldRec]
@[simp] theorem runHeld_keeps (i : Instr) (s : State) : KeepsParts s (runHeld i s) := by
  unfold runHeld
  split <;> simp
@[simp] theorem State.replay_parts (s : State) (x : Instr × Nat) : (s.replay x).parts = s.parts := by
  obtain ⟨y, h, hy⟩ := runHeld_keeps x.1 { s with power := { s.power with heldAge := x.2 } }
  simpa [State.replay, h, finish] using hy
@[simp] theorem State.replayAll_parts (s : State) : (s.replayAll).parts = s.parts := by simp [State.replayAll]
@[simp] theorem State.powerEstimate_parts (given cap) (s : State) : (s.powerEstimate given cap).parts = s.parts := by
  simp [State.powerEstimate]
@[simp] theorem State.powerWindow_parts (s : State) : (s.powerWindow).parts = s.parts := by simp [State.powerWindow]
@[simp] theorem State.opDue_parts (s : State) : (s.opDue).parts = s.parts := by simp [State.opDue]
@[simp] theorem State.opChange_parts (op) (s : State) : (s.opChange op).parts = s.parts := by simp [State.opChange]
@[simp] theorem State.opTick_parts (s : State) : (s.opTick).parts = s.parts := by simp [State.opTick]
@[simp] theorem State.takeOp_parts (s : State) : (s.takeOp).parts = s.parts := by unfold State.takeOp; split <;> simp
@[simp] theorem State.relockDone_parts (s : State) : (s.relockDone).parts = s.parts := by simp [State.relockDone]
@[simp] theorem State.commitSleep_parts (dest) (s : State) : (s.commitSleep dest).parts = s.parts := by simp [State.commitSleep]
@[simp] theorem State.sleepEntry_parts (s : State) : (s.sleepEntry).parts = s.parts := by simp [State.sleepEntry]
@[simp] theorem State.restNow_parts (s : State) : (s.restNow).parts = s.parts := by simp [State.restNow]
@[simp] theorem State.awake_parts (s : State) : (s.awake).parts = s.parts := by simp only [State.awake]; split <;> simp
theorem State.offLosses_parts (s : State) (h : s.parts = Parts.whole) : (s.offLosses).parts = Parts.whole := by
  rw [← State.initPass_parts] at h
  obtain ⟨hfab, hmem, hwins, hlens, hchans, hslots, -, hops, hchange, hmbs, hpws, hscale, -, -⟩ := Parts.ext_iff.1 h
  exact Parts.ext hfab hmem hwins ((List.length_map ..).trans hlens) hchans hslots List.length_replicate hops hchange hmbs hpws
    hscale List.length_replicate List.length_replicate
@[simp] theorem execPowerEstimate_keeps (activity cap) (s : State) : KeepsParts s (execPowerEstimate activity cap s) := by
  simp [execPowerEstimate]
@[simp] theorem execPowerWindow_keeps (s : State) : KeepsParts s (execPowerWindow s) := by simp [execPowerWindow]
@[simp] theorem execOpChange_keeps (op) (s : State) : KeepsParts s (execOpChange op s) := by simp [execOpChange]
@[simp] theorem execRelockComplete_keeps (s : State) : KeepsParts s (execRelockComplete s) := by simp [execRelockComplete]
@[simp] theorem execPwrcSleepChange_keeps (high) (s : State) : KeepsParts s (execPwrcSleepChange high s) := by
  simp [execPwrcSleepChange]
@[simp] theorem execSleepEntry_keeps (s : State) : KeepsParts s (execSleepEntry s) := by simp [execSleepEntry]
@[simp] theorem execOffDrainComplete_keeps (s : State) : KeepsParts s (execOffDrainComplete s) := by simp [execOffDrainComplete]
@[simp] theorem execSleepEntryComplete_keeps (s : State) : KeepsParts s (execSleepEntryComplete s) := by
  simp [execSleepEntryComplete]
@[simp] theorem execWakeComplete_keeps (s : State) : KeepsParts s (execWakeComplete s) := by simp [execWakeComplete]

/-! ### Machine/Reset.lean -/

theorem State.blank_parts (s : State) : (s.blank).parts = Parts.whole := State.reset_parts
theorem State.warmReset_parts (s : State) : (s.warmReset).parts = Parts.whole := State.reset_parts
@[simp] theorem State.release_parts (straps op) (s : State) : (s.release straps op).parts = s.parts := by simp [State.release]
@[simp] theorem execResetRelease_keeps (straps op) (s : State) : KeepsParts s (execResetRelease straps op s) := by
  simp [execResetRelease]
@[simp] theorem execInitComplete_keeps (s : State) : KeepsParts s (execInitComplete s) := by simp [execInitComplete]

/-! ### Machine/Errors.lean -/

@[simp] theorem State.scrubSec_parts (key i) (s : State) : (s.scrubSec key i).parts = s.parts := by
  unfold State.scrubSec
  split <;> simp
@[simp] theorem State.scrubSet_parts (set) (s : State) : (s.scrubSet set).parts = s.parts := by simp [State.scrubSet]
@[simp] theorem State.scrubStep_parts (s : State) : (s.scrubStep).parts = s.parts := by simp [State.scrubStep]
@[simp] theorem State.scrubVisit_parts (s : State) : (s.scrubVisit).parts = s.parts := by simp [State.scrubVisit]
@[simp] theorem State.endRest_parts (s : State) : (s.endRest).parts = s.parts := by simp [State.endRest]
@[simp] theorem State.configWord_parts (region flips) (s : State) : (s.configWord region flips).parts = s.parts := by
  simp only [State.configWord]
  repeat' split
  all_goals simp
@[simp] theorem execScrubVisit_keeps (s : State) : KeepsParts s (execScrubVisit s) := by simp [execScrubVisit]
@[simp] theorem execScrubForce_keeps (s : State) : KeepsParts s (execScrubForce s) := by simp [execScrubForce]
@[simp] theorem execScrubDeficitWake_keeps (s : State) : KeepsParts s (execScrubDeficitWake s) := by simp [execScrubDeficitWake]
@[simp] theorem execConfigWordCheck_keeps (region flips) (s : State) : KeepsParts s (execConfigWordCheck region flips s) := by
  simp [execConfigWordCheck]
@[simp] theorem execLockLoss_keeps (s : State) : KeepsParts s (execLockLoss s) := by simp [execLockLoss]

/-! ### Machine/Wrapper.lean -/

@[simp] theorem State.loadWir_parts (w wrstn) (s : State) : (s.loadWir w wrstn).parts = s.parts := by simp [State.loadWir]
@[simp] theorem State.bypass_parts (wsi) (s : State) : (s.bypass wsi).parts = s.parts := by simp [State.bypass]
@[simp] theorem runInput_keeps (i : Instr) (s : State) : KeepsParts s (runInput i s) := by
  unfold runInput
  split <;> simp
@[simp] theorem State.present_parts (s : State) (i : Instr) : (s.present i).parts = s.parts := by
  obtain ⟨x, h, hx⟩ := runInput_keeps i s
  simpa [State.present, h, finish] using hx
@[simp] theorem State.wrapper_parts (w x) (s : State) : (s.wrapper w x).parts = s.parts := by
  simp only [State.wrapper]
  split <;> simp
@[simp] theorem State.idRegister_parts (s : State) : (s.idRegister).parts = s.parts := by simp [State.idRegister]
@[simp] theorem State.mbistUpdate_parts (n) (s : State) : (s.mbistUpdate n).parts = s.parts := by simp [State.mbistUpdate]
@[simp] theorem State.mbist_parts (x) (s : State) : (s.mbist x).parts = s.parts := by simp [State.mbist]
@[simp] theorem State.injectUpdate_parts (r) (s : State) : (s.injectUpdate r).parts = s.parts := by simp [State.injectUpdate]
@[simp] theorem State.injection_parts (x) (s : State) : (s.injection x).parts = s.parts := by simp [State.injection]
@[simp] theorem execWsBypass_keeps (x) (s : State) : KeepsParts s (execWsBypass x s) := by simp [execWsBypass]
@[simp] theorem execWsExtest_keeps (x) (s : State) : KeepsParts s (execWsExtest x s) := by simp [execWsExtest]
@[simp] theorem execWsIntest_keeps (x) (s : State) : KeepsParts s (execWsIntest x s) := by simp [execWsIntest]
@[simp] theorem execWsPreload_keeps (x) (s : State) : KeepsParts s (execWsPreload x s) := by simp [execWsPreload]
@[simp] theorem execWsClamp_keeps (x) (s : State) : KeepsParts s (execWsClamp x s) := by simp [execWsClamp]
@[simp] theorem execWsSafe_keeps (x) (s : State) : KeepsParts s (execWsSafe x s) := by simp [execWsSafe]
@[simp] theorem execFzId_keeps (s : State) : KeepsParts s (execFzId s) := by simp [execFzId]
@[simp] theorem execFzMbist_keeps (x) (s : State) : KeepsParts s (execFzMbist x s) := by simp [execFzMbist]
@[simp] theorem execMbistComplete_keeps (fail bank row) (s : State) : KeepsParts s (execMbistComplete fail bank row s) := by
  simp [execMbistComplete]
@[simp] theorem execFzInject_keeps (x) (s : State) : KeepsParts s (execFzInject x s) := by simp [execFzInject]

/-! ### Machine/Tick.lean -/

@[simp] theorem State.ageAll_parts (s : State) : (s.ageAll).parts = s.parts := by simp [State.ageAll]
@[simp] theorem State.idleTick_parts (s : State) : (s.idleTick).parts = s.parts := by simp [State.idleTick]
@[simp] theorem State.countModes_parts (n) (s : State) : (s.countModes n).parts = s.parts := by simp [State.countModes]
@[simp] theorem State.fclkTick_parts (s : State) : (s.fclkTick).parts = s.parts := by simp [State.fclkTick]
@[simp] theorem State.twinTick_parts (s : State) : (s.twinTick).parts = s.parts := by simp [State.twinTick]
@[simp] theorem State.tick_parts (s : State) : (s.tick).parts = s.parts := by simp [State.tick]

/-! ### What a step keeps -/

theorem State.shaped_iff (s : State) : s.Shaped ↔ s.parts = Parts.whole := by
  constructor
  · rintro ⟨⟩
    exact Parts.ext ‹_› ‹_› ‹_› ‹_› ‹_› ‹_› ‹_› ‹_› ‹_› ‹_› ‹_› ‹_› ‹_› ‹_›
  · intro h
    obtain ⟨h1, h2, h3, h4, h5, h6, h7, h8, h9, h10, h11, h12, h13, h14⟩ := Parts.ext_iff.1 h
    exact ⟨h1, h2, h3, h4, h5, h6, h7, h8, h9, h10, h11, h12, h13, h14⟩

/-- The meaning ends through `finish`, and the slice has all its parts where it had them before. -/
def KeepsShape (s : State) (r : Res) : Prop := ∃ x : State, r = finish x ∧ (s.Shaped → x.Shaped)

theorem KeepsParts.keepsShape {s : State} {r : Res} (h : KeepsParts s r) : KeepsShape s r := by
  obtain ⟨x, hx, hp⟩ := h
  exact ⟨x, hx, fun hs => x.shaped_iff.2 (hp.trans (s.shaped_iff.1 hs))⟩

theorem execOffWakeComplete_keepsShape (s : State) : KeepsShape s (execOffWakeComplete s) := by
  unfold execOffWakeComplete
  split
  · refine ⟨_, rfl, fun hs => (State.shaped_iff _).2 ?_⟩
    rw [State.awake_parts]
    exact State.offLosses_parts _ ((State.fresh0_parts s).trans (s.shaped_iff.1 hs))
  · exact KeepsParts.keepsShape (State.notDue_keeps s)

theorem exec_keepsShape (i : Instr) (s : State) : KeepsShape s (exec i s) := by
  cases i with
  | coldReset => exact ⟨_, rfl, fun _ => (State.shaped_iff _).2 (State.blank_parts _)⟩
  | warmReset => exact ⟨_, rfl, fun _ => (State.shaped_iff _).2 (State.warmReset_parts _)⟩
  | offWakeComplete => exact execOffWakeComplete_keepsShape s
  | _ => exact KeepsParts.keepsShape (by simp [exec])

/-- The queue of commands is none of the parts. -/
theorem State.shaped_pending (s : State) (l : List Instr) : State.Shaped { s with pending := l } ↔ s.Shaped := by
  rw [State.shaped_iff, State.shaped_iff]
  rfl

/-- What both step lemmas turn on: every step ends through `finish`, with all parts where there were all before. -/
theorem step_keepsShape (s : State) : KeepsShape s (step s) := by
  unfold step
  split
  · exact KeepsParts.keepsShape (by simp)
  next c rest _ =>
    obtain ⟨x, hx, hp⟩ := exec_keepsShape c { s with pending := rest }
    exact ⟨x, hx, fun hs => hp ((s.shaped_pending rest).2 hs)⟩

/-- What the end of a step makes of a lens slot (R119). -/
def State.settleSlot (s : State) (i : Nat) (l : LensSlot) : LensSlot :=
  if l.desc.isSome && !l.inAct && !l.inSh && s.ownCount i == 0 then l.freed (s.lensInFlight i)
  else if l.ghost then { l with ghost := false } else l

theorem State.lensSlot_settle (s : State) (i : Nat) : s.settle.lensSlot i = s.settleSlot i (s.lensSlot i) := by
  simp only [State.settleSlot, State.lensSlot, State.settle, List.getD_eq_getElem?_getD, List.getElem?_mapIdx]
  cases s.lens.slots[i]? <;> simp

theorem State.settled_settle (s : State) : s.settle.Settled := by
  intro i h
  change _ ∨ _ ∨ s.ownCount i ≠ 0 ∨ s.lensInFlight i = true
  rw [s.lensSlot_settle, State.settleSlot] at h ⊢
  by_cases hf : s.lensInFlight i = true
  · simp [hf]
  · simp only [hf, LensSlot.freed] at h ⊢
    grind

end Sys2Proof.Machine

open Sys2Proof Sys2Proof.Machine

/-- Settles O57: a step ends through `finish`, whose `State.settle` empties the slots without cause (`State.settled_settle`); the
edges that may run after it leave the lens slots, the lines and what is in flight. -/
theorem everyStepSettlesSlots : Obligations.EveryStepSettlesSlots := by
  intro s t h
  obtain ⟨x, hx, -⟩ := step_keepsShape s
  obtain rfl : x.settle.edges = t := Host.Outcome.next.inj (hx.symm.trans h)
  obtain ⟨_, _, _, _, he⟩ := x.settle.edges_shape
  rw [he]
  exact x.settled_settle

/-- Settles O59: no function of the model changes the number of a part (`State.parts`); the resets put back all of them, and a wake
from OFF those of the lost domain. -/
theorem everyStepKeepsShape : Obligations.EveryStepKeepsShape := by
  intro s t hs h
  obtain ⟨x, hx, hp⟩ := step_keepsShape s
  obtain rfl : x.settle.edges = t := Host.Outcome.next.inj (hx.symm.trans h)
  rw [State.shaped_iff, State.edges_parts, State.settle_parts, ← State.shaped_iff]
  exact hp hs

end

section

/-! Proofs about the lens sets (sitting 4): the actions SEAL, FINALIZE, LENS_SWAP and SET_PERS, the swaps of the sets, the end of a
rebuild, and the thrash monitor. -/

namespace Sys2Proof.Machine
open Sys2Proof

/-! ### What a record on the span changes -/

/-- Only the span, its log records, what left the ports and the meters differ, and no flit is lost. -/
def State.LinkOnly (s t : State) : Prop :=
  ∃ reg ctr acts sig sent elog span,
    t = { s with reg := reg, ctr := ctr, acts := acts, sig := sig, out := s.out ++ sent, elog := elog, span := span }

theorem State.LinkOnly.refl (s : State) : s.LinkOnly s := ⟨s.reg, s.ctr, s.acts, s.sig, [], s.elog, s.span, by rw [List.append_nil]⟩

theorem State.LinkOnly.trans {s t u : State} (h : s.LinkOnly t) (k : t.LinkOnly u) : s.LinkOnly u := by
  obtain ⟨_, _, _, _, o, _, _, rfl⟩ := h
  obtain ⟨_, _, _, _, o', _, _, rfl⟩ := k
  exact ⟨_, _, _, _, o ++ o', _, _, by rw [List.append_assoc]⟩

section

variable {s t : State} (h : s.LinkOnly t)

include h

theorem State.LinkOnly.bad : t.bad = s.bad := by obtain ⟨_, _, _, _, _, _, _, rfl⟩ := h; rfl
theorem State.LinkOnly.lens : t.lens = s.lens := by obtain ⟨_, _, _, _, _, _, _, rfl⟩ := h; rfl

end

/-- A fold of steps that write the span only writes nothing else. -/
theorem foldl_linkOnly {α} (f : State → α → State) (hf : ∀ (s : State) (a : α), s.bad = [] → s.LinkOnly (f s a)) (l : List α) :
    ∀ s : State, s.bad = [] → s.LinkOnly (l.foldl f s) := by
  induction l with
  | nil => exact fun s _ => .refl s
  | cons a l ih => exact fun s hb => (hf s a hb).trans (ih _ ((hf s a hb).bad.trans hb))

theorem State.linkOnly_span (s : State) (p : Span) : s.LinkOnly { s with span := p } :=
  ⟨s.reg, s.ctr, s.acts, s.sig, [], s.elog, p, by rw [List.append_nil]⟩

theorem State.linkOnly_remapLane (lane : Nat) (s : State) : s.LinkOnly (s.remapLane lane) := ⟨_, _, _, _, _, _, _, rfl⟩

theorem State.linkOnly_remapDue {s : State} (hb : s.bad = []) : s.LinkOnly s.remapDue :=
  (s.linkOnly_span _).trans (foldl_linkOnly _ (fun t x _ => t.linkOnly_remapLane x.1) _ _ hb)

theorem State.linkOnly_sendFrame (r : Option SpanRec) {s : State} (hb : s.bad = []) : s.LinkOnly (s.sendFrame r) :=
  State.LinkOnly.trans ⟨s.reg, s.ctr, s.acts, s.sig, _, s.elog, _, rfl⟩ (State.linkOnly_remapDue hb)

theorem State.linkOnly_countN (e : Nat) (p : Option Nat) (n : Nat) {s : State} (hb : s.bad = []) : s.LinkOnly (s.countN e p n) := by
  rw [State.countN_calm e p n s hb]
  exact ⟨_, _, _, _, [], _, _, by rw [List.append_nil]⟩

theorem State.linkOnly_act (i n : Nat) (s : State) : s.LinkOnly (s.act i n) :=
  ⟨_, _, _, _, [], _, _, by rw [List.append_nil]; rfl⟩

theorem State.linkOnly_spanOut (r : SpanRec) {s : State} (hb : s.bad = []) : s.LinkOnly (s.spanOut r) := by
  have h := (State.linkOnly_countN Ev.spanSlotTx none r.slots hb).trans (State.linkOnly_act 14 r.slots _)
  exact (h.trans (State.linkOnly_span _ _)).trans (State.linkOnly_sendFrame _ (h.bad.trans hb))

theorem State.linkOnly_spanPut (w : SpanWait) {s : State} (hb : s.bad = []) : s.LinkOnly (s.spanPut w) := by
  unfold State.spanPut
  split
  · exact State.linkOnly_spanOut _ hb
  · exact s.linkOnly_span _

theorem State.linkOnly_use (r n : Nat) (s : State) : s.LinkOnly (s.use r n) := by
  obtain ⟨g, hg⟩ := s.use_shape r n
  rw [hg]
  exact ⟨g, s.ctr, s.acts, s.sig, [], s.elog, s.span, by rw [List.append_nil]⟩

theorem State.linkOnly_spanSend (r : SpanRec) {s : State} (hb : s.bad = []) : s.LinkOnly (s.spanSend r) :=
  (s.linkOnly_use _ _).trans (State.linkOnly_spanPut _ ((s.linkOnly_use _ _).bad.trans hb))


/-- Only the lens sets, the span, its log records, what left the ports and the meters differ, and no flit is lost. -/
def State.LensOnly (s t : State) : Prop := ∃ l, State.LinkOnly { s with lens := l } t

theorem State.lensOnly_lens (s : State) (l : LensUnit) : s.LensOnly { s with lens := l } := ⟨l, .refl _⟩

theorem State.LensOnly.trans {s t u : State} (h : s.LensOnly t) (k : t.LensOnly u) : s.LensOnly u := by
  obtain ⟨_, _, _, _, _, o, _, _, rfl⟩ := h
  obtain ⟨l, _, _, _, _, o', _, _, rfl⟩ := k
  exact ⟨l, _, _, _, _, o ++ o', _, _, by rw [List.append_assoc]⟩

theorem State.LensOnly.sends {s t : State} (h : s.LensOnly t) {f : Out} (hf : s.Sends f) : t.Sends f := by
  obtain ⟨_, _, _, _, _, _, _, _, rfl⟩ := h
  exact hf.imp (List.mem_append_left _) id

section

variable {s t : State} (h : s.LensOnly t)

include h

theorem State.LensOnly.bad : t.bad = s.bad := by obtain ⟨_, _, _, _, _, _, _, _, rfl⟩ := h; rfl
theorem State.LensOnly.cue : t.cue = s.cue := by obtain ⟨_, _, _, _, _, _, _, _, rfl⟩ := h; rfl
theorem State.LensOnly.arr : t.arr = s.arr := by obtain ⟨_, _, _, _, _, _, _, _, rfl⟩ := h; rfl
theorem State.LensOnly.dir : t.dir = s.dir := by obtain ⟨_, _, _, _, _, _, _, _, rfl⟩ := h; rfl
theorem State.LensOnly.wins : t.wins = s.wins := by obtain ⟨_, _, _, _, _, _, _, _, rfl⟩ := h; rfl
theorem State.LensOnly.cfg : t.cfg = s.cfg := by obtain ⟨_, _, _, _, _, _, _, _, rfl⟩ := h; rfl
theorem State.LensOnly.mbs : t.mbs = s.mbs := by obtain ⟨_, _, _, _, _, _, _, _, rfl⟩ := h; rfl
theorem State.LensOnly.walks : t.walks = s.walks := by obtain ⟨_, _, _, _, _, _, _, _, rfl⟩ := h; rfl
theorem State.LensOnly.ranges : t.ranges = s.ranges := by obtain ⟨_, _, _, _, _, _, _, _, rfl⟩ := h; rfl
theorem State.LensOnly.power : t.power = s.power := by obtain ⟨_, _, _, _, _, _, _, _, rfl⟩ := h; rfl

end

/-! ### The lens sets -/

/-- R119: what the end of a step does to a lens slot takes it out of no set. -/
theorem State.settleSlot_marks (s : State) (i : Nat) (l : LensSlot) :
    (s.settleSlot i l).inAct = l.inAct ∧ (s.settleSlot i l).inSh = l.inSh := by
  unfold State.settleSlot LensSlot.freed
  grind

/-- R119: a slot of the active set keeps its descriptor. -/
theorem State.settleSlot_desc (s : State) (i : Nat) {l : LensSlot} (h : l.inAct = true) : (s.settleSlot i l).desc = l.desc := by
  unfold State.settleSlot
  grind

@[simp] theorem LensSlot.restage_inAct (l : LensSlot) : l.restage.inAct = l.inAct := by unfold LensSlot.restage; split <;> rfl
@[simp] theorem LensSlot.restage_inSh (l : LensSlot) : l.restage.inSh = l.inSh := by unfold LensSlot.restage; split <;> rfl
@[simp] theorem LensSlot.restage_desc (l : LensSlot) : l.restage.desc = l.desc := by unfold LensSlot.restage; split <;> simp [*]

/-- R123: a slot that takes over the lines of another stays in its sets. -/
theorem succeedFrom_marks (old : List LensSlot) (i : Nat) (l : LensSlot) :
    (succeedFrom old i l).inAct = l.inAct ∧ (succeedFrom old i l).inSh = l.inSh := by
  unfold succeedFrom
  grind

/-- A lens slot of a set of slots that was made slot by slot. -/
theorem getD_mapIdx {α} (f : Nat → α → α) (l : List α) (i : Nat) (d : α) :
    (l.mapIdx f).getD i d = if i < l.length then f i (l.getD i d) else d := by
  simp only [List.getD_eq_getElem?_getD, List.getElem?_mapIdx]
  split <;> simp_all

/-- R287: the slots of `slots` with the two sets exchanged. -/
def Exchanged (old new : List LensSlot) : Prop :=
  ∀ i, (new.getD i {}).inAct = (old.getD i {}).inSh ∧ (new.getD i {}).inSh = (old.getD i {}).inAct

/-- R287, R412: `VER` records go to the twin; of the lens slots only what they wait for changes. -/
theorem State.sendVers_slots {s : State} (hb : s.bad = []) :
    ∃ f : Nat → Bool, s.LensOnly s.sendVers ∧
      s.sendVers.lens = { s.lens with slots := s.lens.slots.mapIdx fun i l => { l with unverified := f i } } := by
  let f (i : Nat) : Bool := ((List.range 256).filter fun i => s.verifies i (s.lensSlot i)).contains i
  suffices h : State.LinkOnly { s with lens := { s.lens with slots := s.lens.slots.mapIdx fun i l => { l with unverified := f i } } }
      s.sendVers from ⟨f, ⟨_, h⟩, h.lens⟩
  unfold State.sendVers
  dsimp only
  split
  · exact .refl _
  · refine foldl_linkOnly _ (fun t i ht => ?_) _ _ hb
    split
    · split
      · exact State.linkOnly_spanSend _ ht
      · exact .refl t
    · exact .refl t

/-- R123: the exchange of the lens sets and of their tints. -/
theorem State.swapSets_slots {s : State} (hb : s.bad = []) :
    ∃ new, Exchanged s.lens.slots new ∧ s.LensOnly s.swapSets ∧
      s.swapSets.lens = { s.lens with slots := new, tintAct := s.lens.tintSh, tintSh := s.lens.tintAct } := by
  unfold State.swapSets
  dsimp only
  generalize hn : List.mapIdx _ s.lens.slots = new
  obtain ⟨f, hx, hl⟩ := State.sendVers_slots
    (s := { s with lens := { s.lens with slots := new, tintAct := s.lens.tintSh, tintSh := s.lens.tintAct } }) hb
  refine ⟨_, fun i => ?_, (s.lensOnly_lens _).trans hx, hl⟩
  subst hn
  rw [List.mapIdx_mapIdx, getD_mapIdx]
  split
  · dsimp only [Function.comp]
    have hs := succeedFrom_marks
    grind [LensSlot.restage_inAct, LensSlot.restage_inSh]
  · grind

/-! ### Actions of the `DUE` queue (R276) -/

/-- An action slot that was not updated. -/
theorem State.slot_setSlot_ne {i k : Nat} (h : k ≠ i) (f : ActSlot → ActSlot) (s : State) : (s.setSlot i f).slot k = s.slot k := by
  simp only [State.slot, State.setSlot, List.getD_eq_getElem?_getD, List.getElem?_modify_ne _ _ h.symm]

/-- A slice at rest accepts an action that walks no memory as soon as it is the first that is due. -/
theorem State.AtRest.actionRow {s : State} (h : s.AtRest) {i act : Nat} {rest : List Nat} (hdue : s.cue.due = i :: rest)
    (hact : (s.slot i).act = act) (hw : walking act = false) :
    Sys2Proof.Machine.actionRow act s = finish ((s.fresh0.accept i).actionRun i) := by
  have hsome : s.actionDue act = some i := by simp [State.actionDue, hdue, h.service, h.clock, hact, hw]
  have hread : s.fresh0.entryRead (.slot i) 6 i = s.fresh0 := by simp [State.entryRead, h.bad]
  have hcfg : s.fresh0.cfgRead (.slot i) = s.fresh0 := State.cfgRead_calm _ _ h.inject h.upsets h.bad
  unfold Sys2Proof.Machine.actionRow
  rw [hsome]
  dsimp only
  rw [hread, hcfg, State.fresh0_power, h.service, if_pos (by decide)]

/-- The `DUE` queue and the action slots once slot `i` has been accepted from the head of the queue and `a` is what it holds. -/
structure State.Runs (s : State) (i : Nat) (rest : List Nat) (a : ActSlot) (t : State) : Prop where
  slot : t.slot i = a
  due : t.cue.due = rest
  others : ∀ k, k ≠ i → t.slot k = s.slot k

theorem State.runs_accept {s : State} {i : Nat} {rest : List Nat} (hdue : s.cue.due = i :: rest) (hnot : i ∉ rest)
    (hi : i < s.cue.slots.length) : s.Runs i rest { s.slot i with st := .running, out := none } (s.fresh0.accept i) where
  slot := (State.slot_setSlot i i _ _ hi).trans (if_pos rfl)
  due := by
    show s.cue.due.filter (· != i) = rest
    rw [hdue, List.filter_cons_of_neg (by simp), List.filter_eq_self]
    exact fun k hk => by simpa using fun e : k = i => hnot (e ▸ hk)
  others := fun _ hk => State.slot_setSlot_ne hk _ _

/-- R276: an action that is accepted changes neither the array nor the directory. -/
theorem State.accept_rest (i : Nat) (s : State) : (s.fresh0.accept i).arr = s.arr ∧ (s.fresh0.accept i).dir = s.dir := by
  simp [State.accept]

/-- R277: the outcome of an accepted action is ready. -/
theorem State.Runs.ready {s t : State} {i : Nat} {rest : List Nat} {a : ActSlot} (h : s.Runs i rest a t) (ha : a.st = .running)
    (hi : i < t.cue.slots.length) (code : Nat) (isErr : Bool) (mark : Nat) :
    s.Runs i rest { a with out := some (a.outcome code isErr mark) } (t.slotReady i code isErr mark) where
  slot := by
    refine (State.slot_setSlot i i _ _ hi).trans ((if_pos rfl).trans ?_)
    rw [h.slot, ha]
    rfl
  due := h.due
  others := fun k hk => (State.slot_setSlot_ne hk _ _).trans (h.others k hk)

theorem State.Runs.of_cue {s t u : State} {i : Nat} {rest : List Nat} {a : ActSlot} (h : s.Runs i rest a t) (hc : u.cue = t.cue) :
    s.Runs i rest a u where
  slot := (congrArg (fun c : CueUnit => c.slots.getD i {}) hc).trans h.slot
  due := (congrArg CueUnit.due hc).trans h.due
  others := fun k hk => (congrArg (fun c : CueUnit => c.slots.getD k {}) hc).trans (h.others k hk)

/-- R277: an action that was accepted and whose outcome is ready with `DONE`. -/
theorem State.runs_done {s x : State} {i : Nat} {rest : List Nat} (hdue : s.cue.due = i :: rest) (hnot : i ∉ rest)
    (hi : i < s.cue.slots.length) (hc : x.cue = (s.fresh0.accept i).cue) :
    s.Runs i rest { s.slot i with st := .running, out := some ((s.slot i).outcome 0 false 0) } (x.slotReady i 0 false 0) := by
  have hlen : i < x.cue.slots.length := by
    rw [hc]
    exact lt_of_lt_of_eq hi (List.length_modify ..).symm
  exact ((State.runs_accept hdue hnot hi).of_cue hc).ready rfl hlen 0 false 0

/-! ### Actions on windows -/

/-- R249, R250: what an action that seals or finalises a window of its own partition and generation does while the window takes
contributions. -/
theorem State.sealOp_takes {s : State} {i w p g : Nat} (fin : Bool) (harm : (s.win w).arming = none) (htakes : (s.win w).takes = true)
    (hpart : (s.win w).part = p) (hgen : g = (s.win w).gen.toNat) :
    s.sealOp (.action i) fin w (some p) (some g) =
      if fin then s.finalizeWin (.action i) w else (s.sealWin w 2).sealDone (.action i) w .done := by
  have hst : (s.win w).st = .armed ∨ (s.win w).st = .opened := by simpa [Window.takes] using htakes
  obtain hst | hst := hst <;> simp [State.sealOp, harm, hpart, hgen, hst]

/-- A window that was not updated. -/
theorem State.win_setWin_ne {w v : Nat} (h : v ≠ w) (f : Window → Window) (s : State) : (s.setWin w f).win v = s.win v := by
  simp only [State.win, State.setWin, List.getD_eq_getElem?_getD, List.getElem?_modify_ne _ _ h.symm]

/-- R250: what a finalisation that action `i` asks for notes in its window. -/
def Window.asked (i need : Nat) (x : Window) : Window :=
  { x with finReq := true, finSlots := x.finSlots ++ [i], finNeed := if x.finReq || x.autoFin then x.finNeed else need }

/-- R232, R250: a window that takes contributions and is asked to be finalised is sealed first. -/
theorem State.finalizeWin_takes {s : State} {i w : Nat} (hw : w < s.wins.length) (htakes : (s.win w).takes = true) :
    s.finalizeWin (.action i) w = ((s.setWin w (Window.asked i s.lensAccepted)).sealWin w 3).beginFinal w := by
  have hst : ((s.setWin w (Window.asked i s.lensAccepted)).win w).st ≠ .sealed := by
    rw [State.win_setWin w w _ s hw, if_pos rfl]
    intro e
    simp [Window.takes, show (s.win w).st = .sealed from e] at htakes
  exact congrArg (State.beginFinal w) (if_neg (mt beq_iff_eq.1 hst))

/-- R250: a window that is not drained is not finalised yet. -/
theorem State.finalizeWin_win {s : State} {i w : Nat} (hw : w < s.wins.length) (htakes : (s.win w).takes = true) :
    (s.finalizeWin (.action i) w).win w =
      { (s.win w).asked i s.lensAccepted with st := .sealed, cause := 3, drained := false } := by
  have hlen : ∀ (f : Window → Window) (t : State), (t.setWin w f).wins.length = t.wins.length := fun f t => t.setWin_wins_length w f
  rw [State.finalizeWin_takes hw htakes, State.beginFinal, State.sealWin]
  simp [State.win_setWin, hlen, hw]

/-- R250: a finalisation changes its window only. -/
theorem State.finalizeWin_rest {s : State} {i w : Nat} (hw : w < s.wins.length) (htakes : (s.win w).takes = true) :
    (s.finalizeWin (.action i) w).arr = s.arr ∧ (s.finalizeWin (.action i) w).dir = s.dir ∧
      (s.finalizeWin (.action i) w).cue = s.cue ∧ (s.finalizeWin (.action i) w).power = s.power := by
  rw [State.finalizeWin_takes hw htakes, State.beginFinal, State.sealWin]
  simp

theorem State.finalizeWin_win_ne {s : State} {i w v : Nat} (hw : w < s.wins.length) (htakes : (s.win w).takes = true) (hv : v ≠ w) :
    (s.finalizeWin (.action i) w).win v = s.win v := by
  rw [State.finalizeWin_takes hw htakes, State.beginFinal, State.sealWin, State.win_setWin_ne hv, State.win_setWin_ne hv,
    State.win_setWin_ne hv]

/-! ### Actions on the lens sets -/

/-- What the end of a step leaves of the lens slots and tints of a state. -/
theorem State.settle_marks (s : State) (i : Nat) :
    (s.settle.lensSlot i).inAct = (s.lensSlot i).inAct ∧ (s.settle.lensSlot i).inSh = (s.lensSlot i).inSh := by
  rw [State.lensSlot_settle]
  exact s.settleSlot_marks i _

/-- R123, R287: the sets and tints of the lens unit `l` have been exchanged in `k`, which waits for the same operations. -/
structure LensUnit.SwapsTo (l k : LensUnit) : Prop where
  slots : Exchanged l.slots k.slots
  tintAct : k.tintAct = l.tintSh
  tintSh : k.tintSh = l.tintAct
  queue : k.queue = l.queue

/-- R123: sets that were exchanged stay so to the end of the step. -/
theorem LensUnit.SwapsTo.settle {s t : State} (h : s.lens.SwapsTo t.lens) : s.SwapsTo t.settle :=
  ⟨h.tintAct, h.tintSh, fun i _ => ⟨(t.settle_marks i).1.trans (h.slots i).1, (t.settle_marks i).2.trans (h.slots i).2⟩⟩

/-- R124: with no rebuild in progress and no operation waiting a lens operation is performed at once. -/
theorem State.acceptLens_now {s : State} (hr : s.lens.rebuild = false) (hq : s.lens.queue = []) (o : LensOp) :
    s.acceptLens o = s.lensOp o := by
  simp [State.acceptLens, hr, hq]

/-- R125: the slots once the lens of `src` has been copied into `dst` with persistence `pers`. -/
def persCopied (src dst pers : Nat) (d : Desc) (slots : List LensSlot) : List LensSlot :=
  let a := slots.getD src {}
  let copy : LensSlot :=
    { desc := some { d with slot := dst, pers := pers }, inAct := true, inSh := a.inSh, bareAct := true, bareSh := true,
      preds := (src :: a.preds).filter (· != dst) }
  ((dropPred dst slots).set dst copy.restage).modify src fun l => { l with inAct := false, inSh := false, preds := [] }.restage

theorem length_persCopied (src dst pers : Nat) (d : Desc) (slots : List LensSlot) :
    (persCopied src dst pers d slots).length = slots.length := by
  simp [persCopied, dropPred]

/-- R125: the slot `DST` after the copy. -/
theorem persCopied_dst {src dst : Nat} (pers : Nat) (d : Desc) {slots : List LensSlot} (hne : dst ≠ src) (hdst : dst < slots.length) :
    ((persCopied src dst pers d slots).getD dst {}).desc = some { d with slot := dst, pers := pers } ∧
      ((persCopied src dst pers d slots).getD dst {}).inAct = true ∧
      ((persCopied src dst pers d slots).getD dst {}).inSh = (slots.getD src {}).inSh := by
  have hlen : dst < (dropPred dst slots).length := by simpa [dropPred] using hdst
  simp only [persCopied, List.getD_eq_getElem?_getD, List.getElem?_modify_ne _ _ hne.symm, List.getElem?_set_self hlen,
    Option.getD_some, LensSlot.restage_desc, LensSlot.restage_inAct, LensSlot.restage_inSh, and_self]

/-- R125: the slot `SRC` after the copy. -/
theorem persCopied_src (src dst pers : Nat) (d : Desc) (slots : List LensSlot) :
    ((persCopied src dst pers d slots).getD src {}).inAct = false ∧ ((persCopied src dst pers d slots).getD src {}).inSh = false := by
  simp only [persCopied, List.getD_eq_getElem?_getD, List.getElem?_modify_eq]
  cases ((dropPred dst slots).set dst _)[src]? <;> simp

/-- R125: `SET_PERS` of a lens of the active set into a free slot copies it, and its outcome is ready. -/
theorem State.setPers_copies {s : State} {i src dst pers : Nat} {d : Desc} (hb : s.bad = []) (hd : (s.lensSlot src).desc = some d)
    (hact : (s.lensSlot src).inAct = true) (hpers : pers ≤ 2) (hdpers : d.pers ≤ 2) (happ : d.append = false)
    (hred : d.reduction = false) (hfree : s.slotKind dst = .free) :
    ∃ (x : State) (f : Nat → Bool), s.setPers i src dst pers = x.slotReady i 0 false 0 ∧ s.LensOnly x ∧
      x.lens.slots = (persCopied src dst pers d s.lens.slots).mapIdx fun k l => { l with unverified := f k } := by
  obtain ⟨f, hx, hl⟩ := State.sendVers_slots
    (s := { s with lens := { s.lens with slots := persCopied src dst pers d s.lens.slots } }) hb
  refine ⟨_, f, ?_, (s.lensOnly_lens _).trans hx, congrArg LensUnit.slots hl⟩
  unfold State.setPers
  dsimp only
  rw [hd]
  dsimp only
  rw [if_neg (by simp [hact, happ, hred]; omega), if_neg (by simp [hfree])]
  rfl

/-- R125: `SRC` and `DST` of an accepted `SET_PERS` are two slots. -/
theorem State.slotKind_free_ne {s : State} {src dst : Nat} (hact : (s.lensSlot src).inAct = true) (hfree : s.slotKind dst = .free) :
    dst ≠ src := by
  rintro rfl
  simp [State.slotKind, hact] at hfree

/-- R277: the window operation that an action asks for. -/
theorem State.actionRun_window {s : State} {i : Nat} {fin : Bool} (hact : (s.slot i).act = if fin then 4 else 3) :
    s.actionRun i = s.sealOp (.action i) fin (bits ((s.slot i).word 6) 5 0) (some (s.slot i).part)
      (some (bits ((s.slot i).word 6) 37 6)) := by
  unfold State.actionRun
  cases fin <;> simp only [hact] <;> rfl

/-- R277: the lens operation that an action asks for. -/
theorem State.actionRun_lens {s : State} {i : Nat} {o : LensOp}
    (ho : (s.slot i).act = 5 ∧ o = .swap (.action i) ∨ (s.slot i).act = 7 ∧
      o = .setPers i (bits ((s.slot i).word 7) 7 0) (bits ((s.slot i).word 7) 15 8) (bits ((s.slot i).word 7) 17 16)) :
    s.actionRun i = (s.acceptLens o).walksGo := by
  unfold State.actionRun
  obtain ⟨hact, rfl⟩ | ⟨hact, rfl⟩ := ho <;> simp only [hact]

/-- R276: an accepted slot keeps the descriptor of its action. -/
theorem State.slot_accept {s : State} {i : Nat} (hi : i < s.cue.slots.length) :
    (s.fresh0.accept i).slot i = { s.slot i with st := .running, out := none } :=
  (State.slot_setSlot i i _ _ hi).trans (if_pos rfl)

/-- R250: a lens operation is counted. -/
def State.countsOp (s : State) : State := { s with lens := { s.lens with done := s.lens.done + 1 } }

theorem State.lensOnly_countsOp (s : State) : s.LensOnly s.countsOp := s.lensOnly_lens _

/-- R123: what a swap of the lens sets does, before its source is told. -/
theorem State.lensOp_swap {s : State} (hb : s.bad = []) (src : SwapSrc) :
    ∃ x : State, s.lensOp (.swap src) = x.srcDone src .done [] 0 ∧ s.LensOnly x ∧ s.lens.SwapsTo x.lens := by
  obtain ⟨new, hnew, hx, hl⟩ := State.swapSets_slots (s := s.countsOp) hb
  exact ⟨_, rfl, s.lensOnly_countsOp.trans hx, hl ▸ ⟨hnew, rfl, rfl, rfl⟩⟩

/-- R124, R277: an action on the lens sets of a slice at rest whose lens operations are all performed; the operation is counted
(R250), and its outcome is ready. -/
theorem State.AtRest.lensAction {s x : State} (h : s.AtRest) {i act : Nat} {rest : List Nat} (hdue : s.cue.due = i :: rest)
    (hi : i < s.cue.slots.length) (hr : s.lens.rebuild = false) (hq : s.lens.queue = []) (hact : (s.slot i).act = act)
    (hw : walking act = false) {o : LensOp}
    (ho : act = 5 ∧ o = .swap (.action i) ∨ act = 7 ∧
      o = .setPers i (bits ((s.slot i).word 7) 7 0) (bits ((s.slot i).word 7) 15 8) (bits ((s.slot i).word 7) 17 16))
    (hop : (s.fresh0.accept i).lensOp o = x.slotReady i 0 false 0) (hx : (s.fresh0.accept i).LensOnly x) :
    Sys2Proof.Machine.actionRow act s = .next (State.settle (x.slotReady i 0 false 0)) := by
  have hrun : (s.fresh0.accept i).actionRun i = ((s.fresh0.accept i).acceptLens o).walksGo := by
    refine State.actionRun_lens ?_
    rw [State.slot_accept hi]
    subst hact
    exact ho
  have hcalm : State.walksGo (x.slotReady i 0 false 0) = x.slotReady i 0 false 0 :=
    State.walksGo_calm (hx.walks.trans h.walks) (hx.ranges.trans h.ranges)
  rw [h.actionRow hdue hact hw, hrun, State.acceptLens_now (s := s.fresh0.accept i) hr hq, hop, hcalm]
  exact finish_of_service ((congrArg Power.state hx.power).trans h.service)

/-- R123, R277: `LENS_SWAP` at the head of the `DUE` queue. -/
theorem exec_actionLensSwap {s : State} (h : s.AtRest) {i : Nat} {rest : List Nat} (hdue : s.cue.due = i :: rest)
    (hi : i < s.cue.slots.length) (hr : s.lens.rebuild = false) (hq : s.lens.queue = []) (hact : (s.slot i).act = 5) :
    ∃ x : State, exec .actionLensSwap s = .next (State.settle (x.slotReady i 0 false 0)) ∧ (s.fresh0.accept i).LensOnly x ∧
      s.lens.SwapsTo x.lens := by
  obtain ⟨x, hop, hx, hl⟩ := State.lensOp_swap (s := s.fresh0.accept i) h.bad (.action i)
  exact ⟨x, h.lensAction hdue hi hr hq hact rfl (.inl ⟨rfl, rfl⟩) hop hx, hx, hl⟩

/-- R125, R277: `SET_PERS` at the head of the `DUE` queue. -/
theorem exec_actionSetPers {s : State} (h : s.AtRest) {i : Nat} {rest : List Nat} (hdue : s.cue.due = i :: rest)
    (hi : i < s.cue.slots.length) (hr : s.lens.rebuild = false) (hq : s.lens.queue = []) (hact : (s.slot i).act = 7)
    {src dst pers : Nat} (hargs : src = bits ((s.slot i).word 7) 7 0 ∧ dst = bits ((s.slot i).word 7) 15 8 ∧
      pers = bits ((s.slot i).word 7) 17 16) {d : Desc}
    (hd : (s.lensSlot src).desc = some d) (hin : (s.lensSlot src).inAct = true) (hpers : pers ≤ 2) (hdpers : d.pers ≤ 2)
    (happ : d.append = false) (hred : d.reduction = false) (hfree : s.slotKind dst = .free) :
    ∃ (x : State) (f : Nat → Bool), exec .actionSetPers s = .next (State.settle (x.slotReady i 0 false 0)) ∧
      (s.fresh0.accept i).LensOnly x ∧
      x.lens.slots = (persCopied src dst pers d s.lens.slots).mapIdx fun k l => { l with unverified := f k } := by
  obtain ⟨x, f, hop, hx, hl⟩ := State.setPers_copies (s := (s.fresh0.accept i).countsOp) (i := i) h.bad hd hin hpers hdpers happ hred hfree
  have hsx := (s.fresh0.accept i).lensOnly_countsOp.trans hx
  obtain ⟨hsrc, hdst, hto⟩ := hargs
  exact ⟨x, f, h.lensAction (o := .setPers i src dst pers) hdue hi hr hq hact rfl (.inr ⟨rfl, by rw [hsrc, hdst, hto]⟩) hop hsx, hsx, hl⟩

/-! ### Mailbox commands (R374, R375) -/

/-- A slice at rest in which a mailbox has taken its command and said so. -/
def State.taken (op : Nat) (m : MbCmd) (s : State) : State :=
  { s.fresh0 with power := { s.power with scrubWake := false, idle := 0 }, out := [.csrp .ok 0],
                  mbs := s.mbs.set (mbIdx m.window) (MbRuns op m) }

/-- R375: the partition of a mailbox that accepts a command is active. -/
theorem State.mbCheck_active {s : State} {op : Nat} {m : MbCmd} (h : s.mbCheck op m = .ok) :
    m.window.any (fun p => !(s.part p).active) = false := by
  unfold State.mbCheck at h
  cases hw : m.window with
  | none => rfl
  | some p =>
    by_contra hc
    have hp : (s.part p).active = false := by simpa using hc
    simp [hw, hp] at h
    split_ifs at h

/-- R374: what a mailbox does with a command that it accepts. -/
theorem State.mbWrite_accepts {s : State} {op : Nat} {m : MbCmd} (run : MbCmd → State → State)
    (hreach : Csrp.reaches { mgmt := m.mgmt, part := m.srcPart } m.window = true) (hthere : mbIdx m.window < s.mbs.length)
    (hfree : (s.mbs.getD (mbIdx m.window) {}).st ≠ 1) (hok : s.mbCheck op m = .ok) :
    s.mbWrite op m run =
      run m { s with out := s.out ++ [.csrp .ok 0], mbs := s.mbs.set (mbIdx m.window) (MbRuns op m) } := by
  have hst : ((s.mbs.modify (mbIdx m.window) fun b => { b with args := m.words }).getD (mbIdx m.window) {}).st ≠ 1 := by
    simpa [List.getD_eq_getElem?_getD, List.getElem?_eq_getElem hthere] using hfree
  have hset : (s.mbs.modify (mbIdx m.window) fun b => { b with args := m.words }).modify (mbIdx m.window) (fun b =>
      { b with st := 1, isErr := false, code := 0, seq := m.seq, opcode := op, res := List.replicate 4 0 }) =
      s.mbs.set (mbIdx m.window) (MbRuns op m) := by
    refine List.ext_getElem? fun k => ?_
    by_cases hk : k = mbIdx m.window
    · rw [hk, List.getElem?_set_self hthere]
      simp [List.getElem?_eq_getElem hthere, MbRuns]
    · simp [List.getElem?_modify_ne, List.getElem?_set_ne, Ne.symm hk]
  unfold State.mbWrite
  rw [hreach, State.mbCheck_active hok]
  dsimp only
  rw [if_neg (by decide), if_neg (by simpa using hst), State.csrp_eq, hset]
  split
  · rfl
  · next hne => exact absurd hok hne

/-- R374: a mailbox of a slice at rest takes a command that it accepts, says so, and runs it. -/
theorem State.AtRest.mailboxRow {s : State} (h : s.AtRest) {op : Nat} {m : MbCmd} (ha : s.Accepts op m) (i : Instr)
    (run : MbCmd → State → State) : Sys2Proof.Machine.mailboxRow i op m run s = finish (run m (s.taken op m)) := by
  unfold Sys2Proof.Machine.mailboxRow
  rw [h.csrGate]
  exact congrArg finish (State.mbWrite_accepts run ha.reach ha.there ha.free ha.ok)

theorem State.taken_mbs {s : State} {op : Nat} {m : MbCmd} (ha : s.Accepts op m) :
    (s.taken op m).mbs[mbIdx m.window]? = some (MbRuns op m) := List.getElem?_set_self ha.there

/-- R374: what a mailbox shows of a command that completes. -/
def Mailbox.completed (st : Status) (res : List Word) (b : Mailbox) : Mailbox :=
  { b with st := 2, isErr := false, code := st.code, res := (res ++ List.replicate 4 0).take 4 }

/-- R374, R482: with no parity error the completion of a command writes its mailbox and may be measured. -/
theorem State.mbDone_calm (w : Option Nat) (st : Status) (res : List Word) {s : State} (hb : s.bad = []) :
    ∃ h n, s.mbDone w st res = { s with hist := h, fresh := n, mbs := s.mbs.modify (mbIdx w) (Mailbox.completed st res) } := by
  obtain ⟨h, n, hm⟩ := s.measure_calm 11 w hb
  exact ⟨h, n, by rw [State.mbDone, hm]; rfl⟩

/-- R123, R374: in `s` a swap of the lens sets was performed and its mailbox completed, which gives `t`. -/
structure State.SwapEnds (s : State) (w : Option Nat) (t : State) : Prop where
  swap : s.SwapsTo t
  queue : t.lens.queue = s.lens.queue
  mbs : t.mbs = s.mbs.modify (mbIdx w) (Mailbox.completed .done [])
  sends : ∀ f, s.Sends f → t.Sends f
  arr : t.arr = s.arr
  dir : t.dir = s.dir
  wins : t.wins = s.wins
  cfg : t.cfg = s.cfg

/-- R123: a swap of the lens sets that a mailbox asked for, in a slice in service in which no walk and no range command runs. -/
theorem State.swap_ends {s : State} (hb : s.bad = []) (hserv : s.power.state = .service) (hw : s.walks = []) (hr : s.ranges = [])
    (w : Option Nat) :
    (s.lensOp (.swap (.mailbox w))).walks = [] ∧ (s.lensOp (.swap (.mailbox w))).ranges = [] ∧
      (s.lensOp (.swap (.mailbox w))).lens.queue = s.lens.queue ∧
      ∃ t, finish (s.lensOp (.swap (.mailbox w))) = .next t ∧ s.SwapEnds w t := by
  obtain ⟨x, hop, hx, hl⟩ := State.lensOp_swap hb (.mailbox w)
  obtain ⟨h, n, hdone⟩ := State.mbDone_calm w .done [] (hx.bad.trans hb)
  have heq : s.lensOp (.swap (.mailbox w)) = _ := hop.trans hdone
  rw [heq]
  refine ⟨hx.walks.trans hw, hx.ranges.trans hr, hl.queue, _, finish_of_service ((congrArg Power.state hx.power).trans hserv), ?_⟩
  exact { swap := hl.settle, queue := hl.queue, mbs := congrArg (List.modify · (mbIdx w) _) hx.mbs, sends := fun _ hf => hx.sends hf,
          arr := hx.arr, dir := hx.dir, wins := hx.wins, cfg := hx.cfg }

/-- R123: `LENS_SWAP` of the management mailbox. -/
theorem State.AtRest.exec_lensSwap {s : State} {m : MbCmd} (h : s.AtRest) (ha : s.Accepts 0x0C m) :
    exec (.lensSwap m) s = finish (State.acceptLens (.swap (.mailbox m.window)) (s.taken 0x0C m)).walksGo :=
  h.mailboxRow ha (.lensSwap m) State.swapCmd

/-- R124: with nothing else waiting a swap that waited is performed at its swap point. -/
theorem State.AtRest.exec_swapPoint {s : State} (h : s.AtRest) (hr : s.lens.rebuild = false) {src : SwapSrc}
    (hq : s.lens.queue = [.swap src]) :
    exec .swapPoint s = finish (State.walksGo (State.lensOp (.swap src) { s.fresh0 with lens := { s.lens with queue := [] } })) := by
  have hdue : (s.fclkRuns && s.swapDue) = true := by simp [h.fclkRuns, State.swapDue, hr, hq]
  show (if s.fclkRuns && s.swapDue then finish s.fresh0.swapPoint else s.notDue) = _
  rw [if_pos hdue]
  have hpoint : s.fresh0.swapPoint = (State.runToSwap 0
      (State.lensOp (.swap src) { s.fresh0 with lens := { s.lens with queue := [] } })).walksGo := by
    unfold State.swapPoint
    rw [State.fresh0_lens, hq]
    rfl
  rw [hpoint, State.runToSwap]

/-- R361: what a prescription that posts `OK` leaves. -/
theorem State.prescOk_presc (p : Presc) (s : State) :
    (s.prescOk p).presc.phase = .idle ∧ (s.prescOk p).presc.valid = true ∧ (s.prescOk p).presc.code = .ok ∧
      (s.prescOk p).presc.offset = 0 := by
  simp [State.prescOk, State.setMeas, State.measBump]

theorem State.prescOk_rest (p : Presc) (s : State) :
    (s.prescOk p).lens = s.lens ∧ (s.prescOk p).regs = s.regs ∧ (s.prescOk p).power = s.power ∧ (s.prescOk p).arr = s.arr ∧
      (s.prescOk p).dir = s.dir ∧ (s.prescOk p).wins = s.wins ∧ (s.prescOk p).cfg = s.cfg := by
  simp [State.prescOk, State.setMeas, State.measBump]

/-- R121: the rebuild has ended, and `BUSY` with it. -/
def State.rebuildOver (s : State) : State :=
  { s.fresh0 with lens := { s.lens with rebuild := false }, regs := { s.regs with editBusy := false } }

/-- R121, R361: the end of a rebuild in a slice at rest with no lens operation waiting. -/
theorem State.AtRest.exec_shadowRebuildComplete {s : State} (h : s.AtRest) (hr : s.lens.rebuild = true) (hq : s.lens.queue = []) :
    exec .shadowRebuildComplete s = finish (s.presc.todo.elim s.rebuildOver fun p =>
      if s.presc.phase == PrescPhase.apply && !p.full then s.rebuildOver.prescOk p else s.rebuildOver) := by
  have hdue : (s.fclkRuns && s.lens.rebuild) = true := by simp [h.fclkRuns, hr]
  show (if s.fclkRuns && s.lens.rebuild then finish s.fresh0.rebuilt else s.notDue) = _
  rw [if_pos hdue]
  have hnone : s.fresh0.partialWaits = false := by simp [State.partialWaits, hq]
  have hcalm : (State.runToSwap s.fresh0.lens.queue.length s.rebuildOver).walksGo = s.rebuildOver := by
    rw [State.fresh0_lens, hq]
    exact State.walksGo_calm h.walks h.ranges
  unfold State.rebuildOver at hcalm ⊢
  unfold State.rebuilt
  dsimp only
  rw [hnone]
  erw [hcalm]
  simp only [Bool.not_false, Bool.and_true, State.fresh0_presc]
  cases s.presc.todo <;> rfl

/-- R105: the next window of a partition's lookups, which has begun with the counts made since (log entry 115). -/
def Thrash.next (n : Thrash) : Thrash := { lookups := n.nextLookups, hits := n.nextHits, evicts := n.nextEvicts }

/-- R105: the next window of lookups has begun. -/
def State.windowBegun (p : Nat) (s : State) : State :=
  { s.fresh0 with lens := { s.lens with thrash := s.lens.thrash.set p (s.lens.thrash.getD p {}).next } }

/-- R105: the end of a window of lookups in a slice at rest. -/
theorem State.AtRest.exec_thrashWindowEnd {s : State} (h : s.AtRest) {p : Nat} (hmany : 65536 ≤ (s.lens.thrash.getD p {}).lookups) :
    ∃ c g, exec (.thrashWindowEnd p) s = finish (
      if (s.lens.thrash.getD p {}).hits / 64 < (s.part p).thrashHit ∧ (s.part p).thrashEvict < (s.lens.thrash.getD p {}).evicts / 64
      then { s.windowBegun p with ctr := c, sig := g, pws := s.pws.modify p fun w => { w with status := w.status ||| 1 } }
      else s.windowBegun p) := by
  have hcount := State.countN_calm Ev.thrash (some p) 1 (s.windowBegun p) h.bad
  refine ⟨((s.windowBegun p).countN Ev.thrash (some p) 1).ctr, evSig Ev.thrash (some p) ++ (s.windowBegun p).sig, ?_⟩
  show (if s.fclkRuns && decide (65536 ≤ (s.lens.thrash.getD p {}).lookups) then finish (s.fresh0.thrashEnd p) else s.notDue) = _
  rw [if_pos (by rw [h.fclkRuns, decide_eq_true hmany]; rfl)]
  refine congrArg finish ?_
  have hend : s.fresh0.thrashEnd p = if decide ((s.lens.thrash.getD p {}).hits / 64 < (s.part p).thrashHit) &&
      decide ((s.part p).thrashEvict < (s.lens.thrash.getD p {}).evicts / 64)
      then State.pwStatus p 1 ((s.windowBegun p).countN Ev.thrash (some p) 1) else s.windowBegun p := rfl
  rw [hend, hcount]
  simp only [Bool.and_eq_true, decide_eq_true_eq]
  rfl

end Sys2Proof.Machine

open Sys2Proof Sys2Proof.Machine

/-- Settles O32: an accepted action acts on its window as `State.sealWin` and `State.finalizeWin` do, or on the lens sets at once
(`State.lensOp_swap`, `State.setPers_copies`); the end of the step takes no slot out of a set (`State.settle_marks`). -/
theorem windowAndLensActions : Obligations.WindowAndLensActions := by
  intro s i rest h _ hq hr hdue hnot hi a w ready src dst pers
  have hslot := State.slot_accept hi
  refine ⟨fun hw harm htakes hpart hgen => ⟨fun hact => ?_, fun hact => ?_⟩, fun hact => ?_,
    fun hact d hd hin hpers hdpers happ hred hfree hsrc hdst => ?_⟩
  · have hrun : (s.fresh0.accept i).actionRun i = ((s.fresh0.accept i).sealWin w 2).slotReady i 0 false 0 :=
      (State.actionRun_window (fin := false) (by rw [hslot]; exact hact)).trans
        (by rw [hslot]; exact State.sealOp_takes false harm htakes hpart hgen)
    obtain ⟨hready, hdue', hothers⟩ := State.runs_done (x := (s.fresh0.accept i).sealWin w 2) hdue hnot hi rfl
    have hrow : exec .actionSeal s = actionRow 3 s := rfl
    rw [hrow, h.actionRow hdue hact rfl, hrun]
    have hwin : ((s.fresh0.accept i).sealWin w 2).win w = { s.win w with st := .sealed, cause := 2, drained := false } :=
      (State.win_setWin w w _ (s.fresh0.accept i) hw).trans (if_pos rfl)
    have hwins : ∀ v, v ≠ w → ((s.fresh0.accept i).sealWin w 2).win v = s.win v :=
      fun v hv => State.win_setWin_ne hv _ (s.fresh0.accept i)
    obtain ⟨harr, hdir⟩ := s.accept_rest i
    exact ⟨_, finish_of_service h.service, hwin, hready, hdue', hothers, hwins, harr, hdir⟩
  · have hrun : (s.fresh0.accept i).actionRun i = (s.fresh0.accept i).finalizeWin (.action i) w :=
      (State.actionRun_window (fin := true) (by rw [hslot]; exact hact)).trans
        (by rw [hslot]; exact State.sealOp_takes true harm htakes hpart hgen)
    have hwin := State.finalizeWin_win (s := s.fresh0.accept i) (i := i) hw htakes
    have hwins : ∀ v, v ≠ w → ((s.fresh0.accept i).finalizeWin (.action i) w).win v = s.win v :=
      fun v hv => State.finalizeWin_win_ne (s := s.fresh0.accept i) hw htakes hv
    obtain ⟨harr, hdir, hcue, hpower⟩ := State.finalizeWin_rest (s := s.fresh0.accept i) (i := i) hw htakes
    obtain ⟨hrun', hdue', hothers⟩ := (State.runs_accept hdue hnot hi).of_cue hcue
    obtain ⟨harr', hdir'⟩ := s.accept_rest i
    have hrow : exec .actionFinalize s = actionRow 4 s := rfl
    rw [hrow, h.actionRow hdue hact rfl, hrun]
    exact ⟨_, finish_of_service ((congrArg Power.state hpower).trans h.service), congrArg Window.st hwin, congrArg Window.cause hwin,
      congrArg Window.finSlots hwin, hrun', hdue', hothers, hwins, harr.trans harr', hdir.trans hdir'⟩
  · obtain ⟨x, hnext, hx, hswap⟩ := exec_actionLensSwap h hdue hi hr hq hact
    obtain ⟨hready, hdue', hothers⟩ := State.runs_done hdue hnot hi hx.cue
    exact ⟨_, hnext, LensUnit.SwapsTo.settle hswap, hready, hdue', hothers, hx.arr, hx.dir, hx.wins, hx.cfg⟩
  · obtain ⟨x, f, hnext, hx, hlens⟩ := exec_actionSetPers h hdue hi hr hq hact ⟨rfl, rfl, rfl⟩ hd hin hpers hdpers happ hred hfree
    obtain ⟨hready, hdue', hothers⟩ := State.runs_done hdue hnot hi hx.cue
    obtain ⟨hdesc, hdstAct, hdstSh⟩ := persCopied_dst pers d (State.slotKind_free_ne hin hfree) hdst
    obtain ⟨hsrcAct, hsrcSh⟩ := persCopied_src src dst pers d s.lens.slots
    have hmarks := State.settle_marks (x.slotReady i 0 false 0)
    have hat : ∀ k, k < s.lens.slots.length → (x.slotReady i 0 false 0).lensSlot k =
        { (persCopied src dst pers d s.lens.slots).getD k {} with unverified := f k } := fun k hk => by
      show x.lens.slots.getD k {} = _
      rw [hlens, getD_mapIdx, length_persCopied, if_pos hk]
    refine ⟨_, hnext, ?_, ?_, ?_, ?_, ?_, hready, hdue', hothers, hx.arr, hx.dir, hx.wins, hx.cfg⟩
    · rw [State.lensSlot_settle, hat dst hdst]
      exact (State.settleSlot_desc _ _ (by exact hdstAct)).trans hdesc
    · rw [(hmarks dst).1, hat dst hdst]
      exact hdstAct
    · rw [(hmarks dst).2, hat dst hdst]
      exact hdstSh
    · rw [(hmarks src).1, hat src hsrc]
      exact hsrcAct
    · rw [(hmarks src).2, hat src hsrc]
      exact hsrcSh

/-- Settles O33: a swap that a mailbox asked for completes it (`State.swap_ends`), at once or at its swap point; the end of a rebuild
posts the outcome of a partial prescription (`State.AtRest.exec_shadowRebuildComplete`); and the end of a window of lookups begins the
next one (`State.AtRest.exec_thrashWindowEnd`). -/
theorem lensSetsAndThrash : Obligations.LensSetsAndThrash := by
  refine ⟨fun s m h ha _ hq => ⟨fun hr => ?_, fun hr => ?_⟩, fun s win b h _ hr hq hmb => ?_, fun s h _ hr hq => ?_,
    fun s p h hp hmany => ?_⟩
  · obtain ⟨hw, hg, -, t, hfin, ht⟩ := State.swap_ends (s := s.taken 0x0C m) h.bad h.service h.walks h.ranges m.window
    rw [h.exec_lensSwap ha, State.acceptLens_now (s := s.taken 0x0C m) hr hq, State.walksGo_calm hw hg]
    refine ⟨t, hfin, ht.sends _ (.inl (List.mem_singleton.2 rfl)), ht.swap, ?_, ht.arr, ht.dir, ht.wins, ht.cfg⟩
    rw [ht.mbs, List.getElem?_modify_eq, State.taken_mbs ha]
    rfl
  · have hwaits : State.acceptLens (.swap (.mailbox m.window)) (s.taken 0x0C m) =
        { s.taken 0x0C m with lens := { s.lens with queue := s.lens.queue ++ [.swap (.mailbox m.window)] } } :=
      if_pos (by simp [State.taken, hr])
    have hcalm : (State.acceptLens (.swap (.mailbox m.window)) (s.taken 0x0C m)).walksGo = _ :=
      (congrArg State.walksGo hwaits).trans (State.walksGo_calm h.walks h.ranges)
    rw [h.exec_lensSwap ha, hcalm, hq]
    exact ⟨_, finish_of_service h.service, .inl (List.mem_singleton.2 rfl), rfl, rfl, State.taken_mbs ha, rfl, rfl, rfl, rfl⟩
  · obtain ⟨hw, hg, hqueue, t, hfin, ht⟩ := State.swap_ends (s := { s.fresh0 with lens := { s.lens with queue := [] } }) h.bad h.service
      h.walks h.ranges win
    rw [h.exec_swapPoint hr hq, State.walksGo_calm hw hg]
    refine ⟨t, hfin, ht.swap, ht.queue, ?_, ht.arr, ht.dir, ht.wins, ht.cfg⟩
    rw [ht.mbs, List.getElem?_modify_eq]
    exact congrArg (Option.map (Mailbox.completed .done [])) hmb
  · rw [h.exec_shadowRebuildComplete hr hq]
    cases htodo : s.presc.todo with
    | none =>
      refine ⟨_, finish_of_service h.service, rfl, rfl, ?_, fun _ => ⟨rfl, rfl⟩, rfl, rfl, rfl, rfl⟩
      exact fun p _ hp => absurd hp (by simp)
    | some p =>
      rw [Option.elim_some]
      split
      · obtain ⟨hlens, hregs, hpower, harr, hdir, hwins, hcfg⟩ := State.prescOk_rest p s.rebuildOver
        exact ⟨_, finish_of_service ((congrArg Power.state hpower).trans h.service), congrArg LensUnit.rebuild hlens,
          congrArg Regs.editBusy hregs, fun _ _ _ _ => State.prescOk_presc p s.rebuildOver, fun hn => absurd hn (by simp), harr, hdir,
          hwins, hcfg⟩
      · next hends =>
        refine ⟨_, finish_of_service h.service, rfl, rfl, ?_, fun hn => absurd hn (by simp), rfl, rfl, rfl, rfl⟩
        intro k hphase hk hfull
        obtain rfl : p = k := Option.some.inj hk
        exact absurd (by simp [hphase, hfull]) hends
  · obtain ⟨c, g, hexec⟩ := h.exec_thrashWindowEnd hmany
    rw [hexec]
    intro n hot
    split
    · next hhot =>
      refine ⟨_, finish_of_service h.service, rfl, fun _ => ?_, fun hn => absurd hhot hn, fun k hk => ?_, rfl, rfl, rfl, rfl, rfl⟩
      · show ((s.pws.modify p _).getD p {}).status = _
        simp [List.getD_eq_getElem?_getD, List.getElem?_eq_getElem hp]
      · exact List.getElem?_modify_ne _ _ hk.symm
    · next hhot =>
      exact ⟨_, finish_of_service h.service, rfl, fun hy => absurd hy hhot, fun _ => ⟨rfl, rfl⟩, fun _ _ => rfl, rfl, rfl, rfl, rfl, rfl⟩

end

section

/-! The refutation of O18 (sitting 4), by evaluation. -/

namespace Sys2Proof.Machine
open Sys2Proof

/-! ### A provisional read behind a notice of its line that has not left (R139, R144) -/

/-- Line 5 with both sectors in the array. -/
def cachedLine5 : CLine := { set := setOf 5, way := 1, line := 5, lo := Sec.clean 7 false, hi := Sec.clean 9 false }

/-- The `PROV_VOID` of line 5 to agent 1, whose entry 3 has been closed since, with no credit of the snoop channel of port 1. -/
def voidNotice : HeldOut := { flit := .snp 1 4 5 3 1, part := some 0 }

/-- A slice at rest that homes every bucket, with line 5 in the array and that notice in front of port 1. -/
def voidNoticeHeld : State :=
  { power := { state := .service, rstLow := false },
    cfg := { inForce := true, map := List.replicate 1024 0, parts := [{ active := true }],
             route := [{ present := true }, { present := true, port := 1 }] },
    fab := [{}, { oSnp := 0 }], heldOut := [voidNotice], arr := [cachedLine5] }

/-- A read of line 5 by agent 0. -/
def readLine5 : Req := { port := 0, agent := 0, txid := 1, addr := 640, size := 7 }

theorem voidNoticeHeld_atRest : voidNoticeHeld.AtRest :=
  ⟨⟨rfl, rfl, rfl, by decide, rfl, rfl, rfl, rfl, rfl, rfl, rfl, rfl, rfl, rfl, rfl, rfl, rfl, rfl, rfl, rfl, rfl, rfl, rfl, rfl⟩, rfl⟩

theorem voidNoticeHeld_admits : voidNoticeHeld.Admits .rdOnce { readLine5 with provisional := true } where
  toAtRest := voidNoticeHeld_atRest
  whole := by decide +kernel
  flips := rfl
  clean := by decide
  header := by decide +kernel
  home := by decide +kernel
  scratch := by decide +kernel
  allowed := by decide +kernel
  prov := rfl
  noHeader := by decide +kernel
  noBell := by decide +kernel
  noPlane := by decide +kernel

/-- R144: the read waits for the notice; its transaction stands. -/
theorem provisionalRead_waits :
    nextView (fun t => t.txns.length) (exec (.provisionalRead true readLine5) voidNoticeHeld) = some 1 := by
  decide +kernel

end Sys2Proof.Machine

open Sys2Proof Sys2Proof.Machine

/-- Refutes O18: its first clause does not say what waits in front of the ports. While a `PROV_VOID` of the line waits for a credit
(R144), the model serves no read of the line (`State.voidHeld`); so in a slice at rest in which one waits for another agent, whose entry
is closed, the read keeps its transaction (`voidNoticeHeld`). -/
theorem not_provisionalReads : ¬ Obligations.ProvisionalReads := by
  intro h
  obtain ⟨t, he, -, -, -, -, -, htxns, -⟩ := h.1 voidNoticeHeld true readLine5 cachedLine5 voidNoticeHeld_admits (by decide +kernel)
    (by decide +kernel) (by decide) (by decide) (by decide +kernel)
  have hn : t.txns.length = 1 := view_of_next provisionalRead_waits he
  rw [htxns] at hn
  exact absurd hn (by decide)

end

section

/-! Proofs about deadlines (sitting 5): what a completion leaves alone, the deadline of a provisional read, the watchdog, and the
statement O21. -/

namespace Sys2Proof.Machine
open Sys2Proof

/-! ### What a completion leaves alone -/

/-- Only the flits of the ports and the meters differ; the histograms only when one is bound to a source (R482), and a counter only
when it is bound to an event (R476). -/
structure State.Metered (s t : State) : Prop where
  shape : ∃ fab held reg acts sig out ctr hist fresh,
    t = { s with fab := fab, heldOut := held, reg := reg, acts := acts, sig := sig, out := out, ctr := ctr, hist := hist, fresh := fresh }
  hist : (∀ c ∈ s.cfg.hists, c.src = 0) → t.hist = s.hist
  ctr : ∀ i : Nat, (∀ c : CtrCfg, s.cfg.ctrs[i]? = some c → c.mode ≠ 0 ∨ c.event = 0) → t.ctr[i]? = s.ctr[i]?

theorem State.Metered.refl (s : State) : s.Metered s := ⟨⟨_, _, _, _, _, _, _, _, _, rfl⟩, fun _ => rfl, fun _ _ => rfl⟩

theorem State.Metered.trans {s t u : State} (h : s.Metered t) (k : t.Metered u) : s.Metered u := by
  obtain ⟨⟨_, _, _, _, _, _, _, _, _, rfl⟩, hhist, hctr⟩ := h
  obtain ⟨⟨_, _, _, _, _, _, _, _, _, rfl⟩, khist, kctr⟩ := k
  exact ⟨⟨_, _, _, _, _, _, _, _, _, rfl⟩, fun hc => (khist hc).trans (hhist hc), fun i hc => (kctr i hc).trans (hctr i hc)⟩

section

variable {s t : State} (h : s.Metered t)

include h

theorem State.Metered.bad : t.bad = s.bad := by obtain ⟨⟨_, _, _, _, _, _, _, _, _, rfl⟩, -, -⟩ := h; rfl
theorem State.Metered.prov : t.prov = s.prov := by obtain ⟨⟨_, _, _, _, _, _, _, _, _, rfl⟩, -, -⟩ := h; rfl
theorem State.Metered.waiting : t.waiting = s.waiting := by obtain ⟨⟨_, _, _, _, _, _, _, _, _, rfl⟩, -, -⟩ := h; rfl
theorem State.Metered.power : t.power = s.power := by obtain ⟨⟨_, _, _, _, _, _, _, _, _, rfl⟩, -, -⟩ := h; rfl
theorem State.Metered.elog : t.elog = s.elog := by obtain ⟨⟨_, _, _, _, _, _, _, _, _, rfl⟩, -, -⟩ := h; rfl
theorem State.Metered.cfg : t.cfg = s.cfg := by obtain ⟨⟨_, _, _, _, _, _, _, _, _, rfl⟩, -, -⟩ := h; rfl
theorem State.Metered.arr : t.arr = s.arr := by obtain ⟨⟨_, _, _, _, _, _, _, _, _, rfl⟩, -, -⟩ := h; rfl
theorem State.Metered.dir : t.dir = s.dir := by obtain ⟨⟨_, _, _, _, _, _, _, _, _, rfl⟩, -, -⟩ := h; rfl
theorem State.Metered.wins : t.wins = s.wins := by obtain ⟨⟨_, _, _, _, _, _, _, _, _, rfl⟩, -, -⟩ := h; rfl

end

/-- The provisional entries are no meter: both sides may get others. -/
theorem State.Metered.withProv {s t : State} (h : s.Metered t) (l : List ProvEnt) :
    State.Metered { s with prov := l } { t with prov := l } := by
  obtain ⟨⟨_, _, _, _, _, _, _, _, _, rfl⟩, hhist, hctr⟩ := h
  exact ⟨⟨_, _, _, _, _, _, _, _, _, rfl⟩, hhist, hctr⟩

theorem State.Metered.still {s t : State} (h : s.Metered t) (hs : s.Still) : t.Still := by
  obtain ⟨⟨_, _, _, _, _, _, _, _, _, rfl⟩, -, -⟩ := h
  exact { hs with }

theorem State.metered_reg (s : State) (g : RegUnit) : s.Metered { s with reg := g } :=
  ⟨⟨_, _, _, _, _, _, _, _, _, rfl⟩, fun _ => rfl, fun _ _ => rfl⟩

/-- A fold of steps that write ports and meters writes nothing else. -/
theorem foldl_metered {α} (f : State → α → State) (hf : ∀ (s : State) (a : α), s.bad = [] → s.Metered (f s a)) (l : List α) :
    ∀ s : State, s.bad = [] → s.Metered (l.foldl f s) := by
  induction l with
  | nil => exact fun s _ => .refl s
  | cons a l ih => exact fun s hb => (hf s a hb).trans (ih _ ((hf s a hb).bad.trans hb))

/-- R476: a counter that is bound to no event counts none. -/
theorem State.counts_unbound {s : State} {i : Nat} (h : ∀ c : CtrCfg, s.cfg.ctrs[i]? = some c → c.mode ≠ 0 ∨ c.event = 0)
    (e : Nat) (p : Option Nat) : s.counts e p i = false := by
  unfold State.counts
  split
  · next c hc =>
    by_contra hcount
    simp only [Bool.not_eq_false, Bool.and_eq_true, beq_iff_eq, bne_iff_ne] at hcount
    obtain ⟨⟨⟨⟨-, hmode⟩, hev⟩, hevent⟩, -⟩ := hcount
    rcases h c hc with hm | he
    · exact hm hmode
    · exact hev (hevent.symm.trans he)
  · rfl

theorem State.metered_count (e : Nat) (p : Option Nat) {s : State} (hb : s.bad = []) : s.Metered (s.count e p) where
  shape := ⟨s.fab, s.heldOut, s.reg, s.acts, _, s.out, _, s.hist, s.fresh, State.countN_calm e p 1 s hb⟩
  hist := fun _ => by rw [State.count, State.countN_calm e p 1 s hb]
  ctr := fun i hi => by
    simp [State.count, State.countN, hb, List.getElem?_mapIdx, State.counts_unbound hi]

theorem State.metered_measure (src : Nat) (p : Option Nat) {s : State} (hb : s.bad = []) : s.Metered (s.measure src p) := by
  obtain ⟨x, n, hx⟩ := s.measure_calm src p hb
  refine ⟨⟨s.fab, s.heldOut, s.reg, s.acts, s.sig, s.out, s.ctr, x, n, hx⟩, fun hc => ?_, fun _ _ => by rw [hx]⟩
  by_cases hsrc : src = 0
  · subst hsrc
    exact congrArg State.hist (foldl_id _ _ s fun _ _ => if_neg (by simp))
  · rw [State.measure_unbound hsrc p hc]

theorem State.metered_answered (port txid : Nat) (data : Bool) {s : State} (hb : s.bad = []) :
    s.Metered (s.answered port txid none data) := by
  unfold State.answered
  split
  · exact .refl s
  · exact foldl_metered _ (fun _ x ht => State.metered_measure x _ ht) _ s hb

theorem State.metered_refund (port txid : Nat) (s : State) : s.Metered (s.refund port txid none) := by
  obtain ⟨g, hg⟩ := s.refund_shape port txid none
  rw [hg]
  exact s.metered_reg g

theorem State.metered_emitOf (p : Option Nat) (f : Out) (s : State) : s.Metered (s.emitOf p f) := by
  unfold State.emitOf
  repeat' split
  all_goals exact ⟨⟨_, _, _, _, _, _, _, _, _, rfl⟩, fun _ => rfl, fun _ _ => rfl⟩

/-- R158: a completion of a request of the fabric writes the ports and the meters. -/
theorem State.metered_respond (port txid : Nat) (st : Status) {s : State} (hb : s.bad = []) :
    s.Metered (s.respond port txid none st) := by
  have hx := (State.metered_answered port txid (st == .timeout) hb).trans (State.metered_refund port txid _)
  unfold State.respond
  dsimp only
  rw [if_neg (by decide)]
  exact hx.trans (State.metered_emitOf _ _ _)

/-- The frame of a command that answers requests and closes provisional entries, and nothing else. -/
theorem State.Metered.frame {s t : State} {l : List ProvEnt} (h : State.Metered { s.fresh0 with prov := l } t) : s.Frame t.settle := by
  obtain ⟨⟨_, _, _, _, _, _, _, _, _, rfl⟩, hhist, hctr⟩ := h
  exact {
    cfg := rfl, cue := rfl, xlt := rfl, presc := rfl, mbs := rfl, pws := rfl, elog := rfl, meas := rfl, regs := .inl rfl,
    hot := fun _ => rfl, lanes := rfl, hist := hhist, ctr := hctr, fuses := rfl, res := rfl, hand := rfl, down := rfl, ranges := rfl,
    walks := rfl, span := rfl, test := rfl, folds := rfl, pending := rfl, mode := rfl, tint := ⟨rfl, rfl⟩ }

/-! ### Deadlines and the watchdog (R143, R455) -/

/-- R143: the only provisional entry is closed. -/
theorem State.closeProv_only {s : State} {e : ProvEnt} (hb : s.bad = []) (hp : s.prov = [e]) (ht : e.tag = none) :
    State.Metered { s with prov := [] } (s.closeProv e.port e.txid none) := by
  have hof : s.provOf e.port e.txid none = some e := by simp [State.provOf, hp, ht]
  have hm : s.Metered (s.measure 8 (some e.part)) := State.metered_measure 8 (some e.part) hb
  unfold State.closeProv
  rw [hof]
  dsimp only
  rw [hm.prov, hp, List.filter_cons_of_neg (by simp [ht]), List.filter_nil]
  exact hm.withProv []

/-- R143: the deadline of the only provisional entry closes it and answers its read. -/
theorem State.provExpire_only {s : State} {e : ProvEnt} (hb : s.bad = []) (hr : s.power.state ≠ .recovery) (hp : s.prov = [e])
    (ht : e.tag = none) :
    State.Metered { s with prov := [] } (s.provExpire e) ∧ (s.provExpire e).Sends (.rsp e.port e.txid .timeout 0 false false) := by
  let u : State := s.runAs (some e.grp) (some e.agent)
  have hread : u.provRead e.port e.txid = u := by simp [u, State.provRead, hb]
  have heq : s.provExpire e = ((u.count Ev.provTimeout (some e.part)).closeProv e.port e.txid none).respond e.port e.txid none .timeout := by
    unfold State.provExpire
    rw [hread, ht]
    exact if_neg (by simpa [u] using hr)
  have hu : s.Metered u := s.metered_reg _
  have hcount : u.Metered (u.count Ev.provTimeout (some e.part)) := State.metered_count _ _ hb
  have hclose := State.closeProv_only (s := u.count Ev.provTimeout (some e.part)) (hcount.bad.trans hb)
    (hcount.prov.trans hp) ht
  have hbefore := ((hu.trans hcount).withProv []).trans hclose
  rw [heq]
  exact ⟨hbefore.trans (State.metered_respond _ _ _ (hbefore.bad.trans hb)), State.sends_respond ..⟩

theorem exec_provDeadline {s : State} {e : ProvEnt} (h : s.AtRest) (hp : s.prov = [e]) (hst : e.st ≠ .pending) (ht : e.tag = none) :
    exec (.provDeadline e.port e.txid) s = .next (s.fresh0.provExpire e).settle := by
  have hdue : s.provDue e.port e.txid = some e := by simp [State.provDue, hp, hst]
  obtain ⟨hm, -⟩ := State.provExpire_only (s := s.fresh0) h.bad (by rw [State.fresh0_power, h.service]; decide) hp ht
  have hstill : (s.fresh0.provExpire e).Still := hm.still { h.toStill with }
  show (match s.provDue e.port e.txid with
    | some e => if s.gate == Gate.serve then finish (s.fresh0.provExpire e).tidy else s.notDue
    | none => s.notDue) = _
  rw [hdue]
  dsimp only
  rw [h.gate, if_pos (by decide), hstill.tidy hm.prov,
    finish_of_service ((congrArg Power.state hm.power).trans h.service)]

/-- A slice in which request `w` has left its port's buffer, and the relay entry that it held is free. -/
def State.withoutWait (w : WaitReq) (s : State) : State := { s with waiting := s.waiting.erase w, span := (s.notFar w).2.span }

theorem State.notFar_eq (w : WaitReq) (s : State) : (s.notFar w).2 = { s with span := (s.notFar w).2.span } := by
  unfold State.notFar
  cases w.rtag <;> rfl

theorem State.notFar_holders (w : WaitReq) (s : State) : (s.notFar w).2.span.holders = s.span.holders := by
  unfold State.notFar
  cases w.rtag <;> rfl

theorem State.notFar_waitTx (w : WaitReq) (s : State) : (s.notFar w).2.span.waitTx = s.span.waitTx := by
  unfold State.notFar
  cases w.rtag <;> rfl

/-- R455: the record of a request that the watchdog completes. -/
def WaitReq.timeoutRecord (w : WaitReq) (c : Nat × Nat) : LogIn :=
  { source := 0x017, part := w.q.part, agent := w.q.agent, port := w.q.port, addr := w.q.addr,
    detail := w.op.code % 256 + w.q.txid * 2 ^ 8 + c.1 * 2 ^ 20 + c.2 * 2 ^ 24 }

/-- R455: a slice in which the watchdog has taken request `w` from its buffer and placed its record, before it answers. -/
def State.waitExpired (w : WaitReq) (s : State) : State := (s.withoutWait w).log (w.timeoutRecord (s.waitCause w.cause w.q.line))

/-- R455: the watchdog takes a waiting request from its buffer, places its record and answers it. -/
theorem State.wdExpire_waits {s : State} {w : WaitReq} (hb : s.bad = []) (hr : s.power.state ≠ .recovery) (ht : w.tag = none) :
    (s.waitExpired w).Metered (s.wdExpire (.waits w)) ∧ (s.wdExpire (.waits w)).Sends (.rsp w.q.port w.q.txid .timeout 0 false false) := by
  have hread : s.waitRead w = s := by simp [State.waitRead, hb]
  obtain ⟨g, hg⟩ : ∃ g, (s.withoutWait w).asRequest w.q.port w.q.txid none = { s.withoutWait w with reg := g } := by
    unfold State.asRequest
    split <;> exact ⟨_, rfl⟩
  have heq : s.wdExpire (.waits w) = State.respond w.q.port w.q.txid none .timeout 0 false { s.waitExpired w with reg := g } := by
    have hlog : ({ s.waitExpired w with reg := g } : State) =
        State.log (w.timeoutRecord (s.waitCause w.cause w.q.line)) { s.withoutWait w with reg := g } := rfl
    rw [hlog, ← hg]
    unfold State.wdExpire
    dsimp only
    rw [hread, if_neg (by simpa using hr), ht, State.notFar_eq]
    rfl
  rw [heq]
  exact ⟨(State.metered_reg _ g).trans (State.metered_respond _ _ _ hb), State.sends_respond ..⟩

theorem exec_watchdogTimeout {s : State} {w : WaitReq} (h : State.AtRest { s with waiting := [] }) (hw : s.waiting = [w])
    (hop : watched w.op = true) (ht : w.tag = none) (hp : s.prov = []) (hage : s.regs.fwdWd ≤ w.age) :
    exec (.watchdogTimeout w.q.port w.q.txid) s = .next (s.fresh0.wdExpire (.waits w)).settle := by
  have hdue : s.overdue w.q.port w.q.txid = some (.waits w) := by simp [State.overdue, hw, hop, hage]
  have hserv : s.power.state = .service := h.service
  have hgate : s.gate = .serve := by simp [State.gate, hserv, show s.power.relock = false from h.clock]
  obtain ⟨hm, -⟩ := State.wdExpire_waits (s := s.fresh0) (w := w) h.bad (by rw [State.fresh0_power, hserv]; decide) ht
  have hstill : (s.fresh0.waitExpired w).Still := { h.toStill with
    waiting := by
      show s.waiting.erase w = []
      simp [hw]
    holders := (State.notFar_holders w s.fresh0).trans h.holders
    records := (State.notFar_waitTx w s.fresh0).trans h.records }
  show (match s.overdue w.q.port w.q.txid with
    | some o => if s.gate == Gate.serve then finish (s.fresh0.wdExpire o).tidy else s.notDue
    | none => s.notDue) = _
  rw [hdue]
  dsimp only
  rw [hgate, if_pos (by decide), (hm.still hstill).tidy (hm.prov.trans hp),
    finish_of_service ((congrArg Power.state hm.power).trans hserv)]

end Sys2Proof.Machine

open Sys2Proof Sys2Proof.Machine

/-- Settles O21: each of the two events answers one request, closes its entry, and writes ports and meters besides. -/
theorem deadlinesComplete : Obligations.DeadlinesComplete := by
  refine ⟨fun s e h hp hst ht => ?_, fun s w h hw hop ht hp hage => ?_⟩
  · have hr : s.fresh0.power.state ≠ .recovery := by rw [State.fresh0_power, h.service]; decide
    obtain ⟨hm, hsends⟩ := State.provExpire_only (s := s.fresh0) h.bad hr hp ht
    exact ⟨_, exec_provDeadline h hp hst ht, hsends, hm.prov, hm.arr, hm.dir, hm.wins, hm.frame⟩
  · have hr : s.fresh0.power.state ≠ .recovery := by rw [State.fresh0_power, show s.power.state = .service from h.service]; decide
    obtain ⟨hm, hsends⟩ := State.wdExpire_waits (s := s.fresh0) (w := w) h.bad hr ht
    have hnone : (s.fresh0.waitExpired w).waiting = [] := by
      show s.waiting.erase w = []
      simp [hw]
    exact ⟨_, exec_watchdogTimeout h hw hop ht hp hage, hsends, hm.waiting.trans hnone, hm.elog, hm.arr, hm.dir, hm.wins, hm.cfg⟩

end

section

/-! Proofs about the ends of walks and actions (sitting 5): the statement O30. -/

namespace Sys2Proof.Machine
open Sys2Proof

/-! ### The end of a walk of a mailbox (R152, R324) -/

/-- R152, R379: the status of a walk that ends without an overflow of the fault ring and without an error code. -/
def Walk.endStatus (w : Walk) : Status :=
  if w.faulted then .partialSt else if w.sawAppend then .aborted else if w.denied then .accessDenied
  else if w.sawPoison then .poison else .done

/-- R152, R324: the results of such a walk: its progress mark after a fault, and its fills. -/
def Walk.endWords (w : Walk) : List Word := [if w.faulted then BitVec.ofNat 64 w.mark else 0, BitVec.ofNat 64 w.fills]

/-- A slice without one of its walks. -/
def State.withoutWalk (w : Walk) (s : State) : State := { s with walks := s.walks.filter fun x => x.id != w.id }

/-- R152, R379: a walk that loads lines for a mailbox leaves, and its mailbox completes. -/
theorem State.walkEndRes_fills {s : State} {win : Option Nat} {w : Walk} (hsrc : w.src = .mailbox win) (hfills : w.fillsLines = true)
    (hover : w.overflow = false) (herr : w.endErr = none) :
    s.walkEndRes w = (s.withoutWalk w).mbDone win w.endStatus w.endWords := by
  have hact : (w.act == 2) = false := by
    have h : w.act = 0 ∨ w.act = 16 := by simpa [Walk.fillsLines] using hfills
    rcases h with h | h <;> rw [h] <;> rfl
  unfold State.walkEndRes Walk.endStatus Walk.endWords
  simp only [hact, hfills, hover, herr, hsrc, State.srcDone, if_true, Bool.false_eq_true, if_false]
  split_ifs <;> rfl

/-- The walk of a mailbox names it. -/
theorem State.mbWalk_src {s : State} {win : Option Nat} {w : Walk} (h : s.mbWalk win = some w) : w.src = .mailbox win := by
  simpa using List.find?_some h

/-- R152: a walk that can complete does, in a slice with nothing in progress but walks. -/
theorem exec_walkComplete {s : State} {win : Option Nat} {w : Walk} (h : State.AtRest { s with walks := [] }) (hp : s.prov = [])
    (hw : s.mbWalk win = some w) (hdue : s.walkDue w = true) (hfills : w.fillsLines = true) (hover : w.overflow = false)
    (herr : w.endErr = none) :
    ∃ x n, exec (.walkComplete win) s = .next (State.settle { s.fresh0.withoutWalk w with
      hist := x, fresh := n, mbs := s.mbs.modify (mbIdx win) (Mailbox.completed w.endStatus w.endWords) }) := by
  obtain ⟨x, n, hdone⟩ := State.mbDone_calm win w.endStatus w.endWords (s := s.fresh0.withoutWalk w) h.bad
  have hserv : s.power.state = .service := h.service
  have hclk : s.fclkRuns = true := by
    simp [State.fclkRuns, State.asleep, hserv, show s.power.relock = false from h.clock, show s.power.rstLow = false from h.reset]
  refine ⟨x, n, ?_⟩
  have hidle : State.Idle { s.fresh0.withoutWalk w with
      hist := x, fresh := n, mbs := s.mbs.modify (mbIdx win) (Mailbox.completed w.endStatus w.endWords) } :=
    ⟨h.txns, hp, h.holders, h.buckets, h.after, h.config, h.phase, h.resilver⟩
  show (match s.mbWalk win with
    | some w => if s.fclkRuns && s.walkDue w then finish (s.fresh0.walkEndRes w).tidy else s.notDue
    | none => s.notDue) = _
  rw [hw]
  dsimp only
  rw [hclk, hdue, if_pos (by decide), State.walkEndRes_fills (State.mbWalk_src hw) hfills hover herr, hdone]
  exact (congrArg finish hidle.tidy).trans (finish_of_service hserv)

/-! ### The end of an action (R274, R280) -/

/-- R280: the outcome is not `DONE`. -/
def SlotOut.failed (o : SlotOut) : Bool := o.isErr || o.code != 0

/-- R274, R280: an action whose outcome is ready frees its slot; one other than `DONE` is counted and shown. -/
theorem State.actionEnd_ready {s : State} {i : Nat} {o : SlotOut} (hb : s.bad = []) (hw : s.walks = []) (ho : (s.slot i).out = some o) :
    ∃ x n c g p, s.actionEnd i = { s with
        cue := (s.freeSlot i (some o)).cue, hist := x, fresh := n, ctr := c, sig := g, pws := p } ∧
      (o.failed = false → p = s.pws ∧ c = s.ctr) ∧ (o.failed = true → p = (s.pwStatus (s.slot i).part 2).pws) := by
  have hwalk : s.slotWalk i = none := by simp [State.slotWalk, hw]
  obtain ⟨x, n, hm⟩ := State.measure_calm 11 (some (s.slot i).part) (s.freeSlot i (some o)) hb
  generalize ht : (s.freeSlot i (some o)).measure 11 (some (s.slot i).part) = t at hm
  have heq : s.actionEnd i = if o.failed then (t.count Ev.actFail (some (s.slot i).part)).pwStatus (s.slot i).part 2 else t := by
    unfold State.actionEnd
    rw [hwalk]
    dsimp only
    rw [ho, ← ht]
    rfl
  have hcount := State.countN_calm Ev.actFail (some (s.slot i).part) 1 t (by rw [hm]; exact hb)
  rw [heq]
  cases o.failed
  · exact ⟨x, n, s.ctr, s.sig, s.pws, hm, fun _ => ⟨rfl, rfl⟩, Bool.noConfusion⟩
  · refine ⟨x, n, (t.countN Ev.actFail (some (s.slot i).part) 1).ctr, evSig Ev.actFail (some (s.slot i).part) ++ s.sig,
      (s.pwStatus (s.slot i).part 2).pws, ?_, Bool.noConfusion, fun _ => rfl⟩
    rw [if_pos rfl, State.count, hcount]
    generalize (t.countN Ev.actFail (some (s.slot i).part) 1).ctr = c
    rw [hm]
    rfl

/-- R280: bit 1 of `PW_STATUS` stands once it is set. -/
theorem State.pwStatus_bit {s : State} {p : Nat} (hp : p < s.pws.length) :
    ((s.pwStatus p 2).pws.getD p {}).status &&& 2 = 2 := by
  have hget : (s.pwStatus p 2).pws.getD p {} = { s.pws[p] with status := s.pws[p].status ||| 2 } := by
    simp [State.pwStatus, List.getD_eq_getElem?_getD, List.getElem?_eq_getElem hp]
  have hbit : ∀ b : BitVec 4, (b ||| 2) &&& 2 = 2 := by decide
  rw [hget]
  exact hbit _

/-- R280: a running action whose outcome is ready completes. -/
theorem State.AtRest.exec_actionComplete {s : State} (h : s.AtRest) (hp : s.prov = []) {i : Nat} {o : SlotOut}
    (hst : (s.slot i).st = .running) (ho : (s.slot i).out = some o) :
    exec (.actionComplete i) s = .next (s.fresh0.actionEnd i).settle := by
  have hdue : s.actionEndDue i = true := by simp [State.actionEndDue, State.slotWalk, h.fclkRuns, h.walks, hst, ho]
  have hread : s.fresh0.entryRead (.slot i) 6 i = s.fresh0 := by simp [State.entryRead, h.bad]
  obtain ⟨x, n, c, g, p, hend, -, -⟩ := State.actionEnd_ready (s := s.fresh0) h.bad h.walks ho
  have hstill : (s.fresh0.actionEnd i).Still := by rw [hend]; exact { h.toStill with }
  have hrest : (s.fresh0.actionEnd i).prov = [] ∧ (s.fresh0.actionEnd i).power.state = .service := by
    rw [hend]
    exact ⟨hp, h.service⟩
  show (if s.actionEndDue i then finish (if (s.fresh0.entryRead (.slot i) 6 i).power.state == SliceState.recovery
    then s.fresh0.entryRead (.slot i) 6 i else ((s.fresh0.entryRead (.slot i) 6 i).actionEnd i).walksGo.tidy) else s.notDue) = _
  rw [hdue, if_pos rfl, hread, State.fresh0_power, h.service, if_neg (by decide), State.walksGo_calm hstill.walks hstill.ranges,
    hstill.tidy hrest.1, finish_of_service hrest.2]

/-- The action slots lie in the cue unit. -/
theorem State.slot_of_cue {s t : State} (h : t.cue = s.cue) (k : Nat) : t.slot k = s.slot k :=
  congrArg (fun c : CueUnit => c.slots.getD k {}) h

/-- R274: a slot that is freed with the outcome that it holds. -/
theorem State.slot_freeSlot {s : State} {i : Nat} (hi : i < s.cue.slots.length) {o : Option SlotOut} (ho : (s.slot i).out = o) :
    (s.freeSlot i o).slot i = { s.slot i with st := .free, stalled := false } := by
  subst ho
  exact (State.slot_setSlot i i _ s hi).trans (if_pos rfl)

end Sys2Proof.Machine

open Sys2Proof Sys2Proof.Machine

/-- Settles O30: a walk's end writes its mailbox and the histograms, an action's end its slot and, after a failure, `PW_STATUS`. -/
theorem walksAndActionsEnd : Obligations.WalksAndActionsEnd := by
  refine ⟨fun s win w b h hp hw hdue hfills hover herr hb => ?_, fun s i o h hp hi hst ho => ?_⟩
  · obtain ⟨x, n, hx⟩ := exec_walkComplete h hp hw hdue hfills hover herr
    refine ⟨_, hx, rfl, ?_, fun k hk => ?_, rfl, rfl, rfl, rfl, rfl⟩
    · exact (List.getElem?_modify_eq _ _ _).trans (by rw [hb]; rfl)
    · exact List.getElem?_modify_ne _ _ (Ne.symm hk)
  · obtain ⟨x, n, c, g, p, hend, hdone, hfail⟩ := State.actionEnd_ready (s := s.fresh0) h.bad h.walks ho
    have hslot := State.slot_freeSlot (s := s.fresh0) hi ho
    have hcue : (s.fresh0.actionEnd i).settle.cue = (s.fresh0.freeSlot i (some o)).cue := by rw [hend]; rfl
    have hpws : (s.fresh0.actionEnd i).settle.pws = p := by rw [hend]; rfl
    have hctr : (s.fresh0.actionEnd i).settle.ctr = c := by rw [hend]; rfl
    refine ⟨_, h.exec_actionComplete hp hst ho, (State.slot_of_cue hcue i).trans hslot,
      fun k hk => (State.slot_of_cue hcue k).trans (State.slot_setSlot_ne hk _ s), fun he hc => ?_, fun he hlen => ?_, ?_⟩
    · obtain ⟨hp', hc'⟩ := hdone (by simp [SlotOut.failed, he, hc])
      exact ⟨hpws.trans hp', hctr.trans hc'⟩
    · rw [hpws, hfail (by simpa [SlotOut.failed] using he)]
      exact State.pwStatus_bit (s := s.fresh0) hlen
    · rw [hend]
      exact ⟨rfl, rfl, rfl, rfl, rfl⟩

end

section

/-! The refutation of O29 (sitting 5), by evaluation. -/

namespace Sys2Proof.Machine
open Sys2Proof

/-! ### An action while a kept `CONFIRM` becomes due (R143, R277) -/

/-- A provisional read of line 5 by agent 0 that is still `PENDING`: its data have left, and it holds its `CONFIRM`. -/
def confirmDue : ProvEnt :=
  { agent := 0, port := 0, txid := 1, line := 5, part := 0, lens := none, once := false, st := .pending, sent := true,
    confirmHeld := true }

/-- The record of a `FLUSH_RANGE` of the line at virtual address 0, in slot 0. -/
def flushRecord : ActSlot := { words := [0x2000], st := .due }

/-- A slice at rest that homes every bucket, with that action the only one due, nothing in the TDC, and that entry. -/
def flushWithConfirmDue : State :=
  { power := { state := .service, rstLow := false }, cfg := { inForce := true, map := List.replicate 1024 0 },
    cue := { slots := [flushRecord], due := [0] }, prov := [confirmDue] }

theorem flushWithConfirmDue_atRest : flushWithConfirmDue.AtRest :=
  ⟨⟨rfl, rfl, rfl, by decide, rfl, rfl, rfl, rfl, rfl, rfl, rfl, rfl, rfl, rfl, rfl, rfl, rfl, rfl, rfl, rfl, rfl, rfl, rfl, rfl⟩, rfl⟩

/-- R143: the end of the acceptance performs the `CONFIRM`, which enters line 5 in the directory. -/
theorem actionFlushRange_confirms :
    nextView (fun t => t.dir.map (·.line)) (exec .actionFlushRange flushWithConfirmDue) = some [5] := by
  decide +kernel

end Sys2Proof.Machine

open Sys2Proof Sys2Proof.Machine

/-- Refutes O29: its last clause says that the acceptance of a walking action leaves the directory as it was, and has no premise on
provisional entries. The end of the command settles them (R143): one whose data have left and that holds its `CONFIRM` is confirmed
there, and its line is entered in the directory (`flushWithConfirmDue`). -/
theorem not_walksBegin : ¬ Obligations.WalksBegin := by
  intro h
  obtain ⟨-, -, haction⟩ := h flushWithConfirmDue flushWithConfirmDue_atRest rfl rfl rfl rfl
  obtain ⟨t, w, he, -, -, -, -, -, -, -, -, -, -, -, -, -, hdir, -⟩ := haction 0 [] (.actionFlushRange, 1) (by simp) rfl (by decide)
    (by decide) (by decide) (by decide) (by decide)
  have hlines : t.dir.map (·.line) = [5] := view_of_next actionFlushRange_confirms he
  rw [hdir] at hlines
  exact absurd hlines (by decide)

end

section

/-! The refutations of O5, O6, O19, O25 and O26 (sitting 6), each by evaluation at a concrete state. -/

namespace Sys2Proof.Machine
open Sys2Proof

/-! ### A grant behind a notice of its line that has not left (R144, R171) -/

/-- `readLine5` is admitted as a read and as an `UPGRADE`. -/
theorem voidNoticeHeld_admits_grant : ∀ op ∈ [ReqOp.rdShared, .upgrade], voidNoticeHeld.Admits op readLine5 := by
  intro op hop
  have hop' : op = .rdShared ∨ op = .upgrade := by simpa using hop
  rcases hop' with rfl | rfl
  all_goals exact
    { voidNoticeHeld_atRest with
      whole := by decide +kernel, flips := rfl, clean := by decide
      header := by decide +kernel, home := by decide +kernel, scratch := by decide +kernel
      allowed := by decide +kernel
      prov := rfl, noHeader := by decide +kernel, noBell := by decide +kernel, noPlane := by decide +kernel }

/-- The checks of a request do not depend on the directory. -/
theorem State.Admits.withDir {s : State} {op : ReqOp} {q : Req} (h : s.Admits op q) (d : List DirEnt) :
    State.Admits { s with dir := d } op q := { h with }

/-- The `COMP_ACK`s that the transactions wait for. -/
def State.acksDue (s : State) : List (Option (Nat × Nat × Nat)) := s.txns.map (·.ack)

/-- R144: the `RD_SHARED` waits for the notice; it has been granted nothing. -/
theorem rdShared_waits : nextView State.acksDue (exec (.rdShared readLine5) voidNoticeHeld) = some [none] := by
  decide +kernel

/-- The entry of line 5, of which agent 0 is the only sharer. -/
def sharerOfLine5 : DirEnt := { set := setOf 5, way := 0, line := 5, part := 0, sharers := [0] }

/-- R144: so does its `UPGRADE`. -/
theorem upgrade_waits :
    nextView State.acksDue (exec (.upgrade readLine5) { voidNoticeHeld with dir := [sharerOfLine5] }) = some [none] := by
  decide +kernel

/-! ### A reserved opcode while a kept `CONFIRM` becomes due (R143, R156) -/

/-- A slice at rest that homes every bucket, with the entry `confirmDue`. -/
def abortWithConfirmDue : State :=
  { power := { state := .service, rstLow := false }, cfg := { inForce := true, map := List.replicate 1024 0 }, prov := [confirmDue] }

theorem abortWithConfirmDue_atRest : abortWithConfirmDue.AtRest :=
  ⟨⟨rfl, rfl, rfl, by decide, rfl, rfl, rfl, rfl, rfl, rfl, rfl, rfl, rfl, rfl, rfl, rfl, rfl, rfl, rfl, rfl, rfl, rfl, rfl, rfl⟩, rfl⟩

/-- R143: the end of the command performs the `CONFIRM`, which enters line 5 in the directory. -/
theorem reservedOpcode_confirms :
    nextView (fun t => t.dir.map (·.line)) (exec (.reservedOpcodeRequest 0xFF readLine5) abortWithConfirmDue) = some [5] := by
  decide +kernel

/-! ### The owner's data of a read leave at once (R82, R137, R164) -/

/-- The `SNP_SHARED` to agent 1, the owner of line 5, that it has answered with data that are to come. -/
def ownerSnoop : SnoopRec :=
  { agent := 1, port := 1, id := 0xF00, op := 1, sent := true, owner := true, ans := some { code := 1, data := true, pd := false } }

/-- The `RD_SHARED` of line 5 by agent 0 that waits for them. -/
def readFromOwner : Txn :=
  { id := 0, kind := .req .rdShared readLine5 none, line := 5, part := 0, lens := none, started := true, snoops := [ownerSnoop],
    busy := true, fromOwner := true, agent := some 0, grant := 1 }

/-- A slice in `SERVICE` with this transaction and nothing else in progress. -/
def awaitsOwnerData : State :=
  { power := { state := .service, rstLow := false },
    cfg := { inForce := true, map := List.replicate 1024 0, parts := [{ active := true }],
             route := [{ present := true }, { present := true, port := 1 }] },
    dir := [{ set := setOf 5, way := 0, line := 5, part := 0, owner := some 1, excl := true }], txns := [readFromOwner] }

theorem awaitsOwnerData_atRest : State.AtRest { awaitsOwnerData with txns := [] } :=
  ⟨⟨rfl, rfl, rfl, by decide, rfl, rfl, rfl, rfl, rfl, rfl, rfl, rfl, rfl, rfl, rfl, rfl, rfl, rfl, rfl, rfl, rfl, rfl, rfl, rfl⟩, rfl⟩

/-- R82, R137: the sector that arrives goes on to the reader in the same step. -/
theorem ownerData_forwarded :
    nextView (fun t => t.out.length) (exec (.snoopData 1 0xF00 [{ sector := 0, data := 7 }]) awaitsOwnerData) = some 1 := by
  decide +kernel

/-! ### A report whose `COMP_ACK` reaches a lane's retirement (R181, R402) -/

/-- The relay entry of a read that agent 2 has been granted and has not acknowledged. -/
def unackedRelay : Relay := { tag := 0, agent := 2, port := 0, txid := 7, op := .rdShared, line := 9, ackWait := true }

/-- A slice at rest with a full link, this relay entry, and lane 3 to be retired from frame 1 on; frame 0 has not been sent. -/
def retiresLaneSoon : State :=
  { power := { state := .service, rstLow := false }, cfg := { inForce := true, map := List.replicate 1024 0 },
    span := { st := .active, rx := .active, width := 16, rxWidth := 16, relays := [unackedRelay], remap := [(3, 1)] } }

theorem retiresLaneSoon_atRest : retiresLaneSoon.AtRest :=
  ⟨⟨rfl, rfl, rfl, by decide, rfl, rfl, rfl, rfl, rfl, rfl, rfl, rfl, rfl, rfl, rfl, rfl, rfl, rfl, rfl, rfl, rfl, rfl, rfl, rfl⟩, rfl⟩

/-- The sources of the valid entries of the error log. -/
def State.loggedSources (s : State) : List Nat := (s.elog.ents.filter (·.valid)).map (·.source)

/-- R181, R402: the report sends the `COMP_ACK` in frame 0, which lets the lane's retirement take place and be logged. -/
theorem agentDown_logs : nextView State.loggedSources (exec (.agentDown 2) retiresLaneSoon) = some [0x021] := by
  decide +kernel

end Sys2Proof.Machine

open Sys2Proof Sys2Proof.Machine

/-- Refutes O5: it does not say what waits in front of the ports. While a `PROV_VOID` of the line waits for a credit (R144), the model
serves no read of the line (`State.voidHeld`); a `RD_SHARED` then keeps its transaction without a grant (`voidNoticeHeld`). -/
theorem not_readGrantsExclusive : ¬ Obligations.ReadGrantsExclusive := by
  intro h
  obtain ⟨t, x, he, -, -, -, -, htxns, -, hack, -⟩ := h voidNoticeHeld readLine5 cachedLine5 0 (.rdShared readLine5, .rdShared) (by simp)
    (voidNoticeHeld_admits_grant .rdShared (by simp)) rfl (by decide +kernel) (by decide) (by decide +kernel) rfl rfl (by decide) (by decide)
    (by decide +kernel) (by decide +kernel) rfl (by decide +kernel)
  have hnone : t.acksDue = [none] := view_of_next rdShared_waits he
  rw [State.acksDue, htxns, List.map_singleton, hack] at hnone
  exact absurd hnone (by decide)

/-- Refutes O6: for the same reason an `UPGRADE` by the sole sharer of the line is not granted in the step in which it arrives. -/
theorem not_upgradesAndCompAcks : ¬ Obligations.UpgradesAndCompAcks := by
  intro h
  obtain ⟨t, x, he, -, -, htxns, -, hack, -⟩ := h.1 { voidNoticeHeld with dir := [sharerOfLine5] } readLine5 sharerOfLine5
    ((voidNoticeHeld_admits_grant .upgrade (by simp)).withDir _) rfl (by decide +kernel) (by decide +kernel) rfl (by decide) (by decide +kernel)
  have hnone : t.acksDue = [none] := view_of_next upgrade_waits he
  rw [State.acksDue, htxns, List.map_singleton, hack] at hnone
  exact absurd hnone (by decide)

/-- Refutes O19: it has no premise on provisional entries. The end of the command settles them (R143): one whose data have left and
that holds its `CONFIRM` is confirmed there, and its line is entered in the directory (`abortWithConfirmDue`). -/
theorem not_reservedOpcodeAborts : ¬ Obligations.ReservedOpcodeAborts := by
  intro h
  obtain ⟨t, he, -, -, -, hdir, -⟩ := h abortWithConfirmDue 0xFF readLine5 abortWithConfirmDue_atRest rfl (by decide) (by decide) (by decide)
  have hlines : t.dir.map (·.line) = [5] := view_of_next reservedOpcode_confirms he
  rw [hdir] at hlines
  exact absurd hlines (by decide)

/-- Refutes O25: its third clause says that nothing leaves when a flit of snoop data arrives. A read that takes its data from the owner
sends each sector on as soon as it is here (R82, R137), before the owner's other flit has come (`awaitsOwnerData`). -/
theorem not_snoopsAnswered : ¬ Obligations.SnoopsAnswered := by
  intro h
  obtain ⟨-, -, hdata⟩ := h.1 awaitsOwnerData readFromOwner ownerSnoop awaitsOwnerData_atRest rfl rfl rfl rfl rfl rfl rfl rfl rfl
  obtain ⟨t, he, -, -, -, hout, -⟩ := hdata { sector := 0, data := 7 } 1 false .rdShared readLine5 rfl rfl rfl rfl (by decide)
  have hone : t.out.length = 1 := view_of_next ownerData_forwarded he
  rw [hout] at hone
  exact absurd hone (by decide)

/-- Refutes O26: its first clause says that a report leaves the error log as it was. The report sends the `COMP_ACK` that the agent
owes to the far home (R181); where that frame is the last before a lane is retired, the retirement is logged in the same step (R402)
(`retiresLaneSoon`). -/
theorem not_agentDownAndReclaim : ¬ Obligations.AgentDownAndReclaim := by
  intro h
  obtain ⟨t, he, -, -, -, -, -, -, -, -, helog⟩ := h.1 retiresLaneSoon 2 retiresLaneSoon_atRest
  have hlogged : t.loggedSources = [0x021] := view_of_next agentDown_logs he
  rw [State.loggedSources, helog] at hlogged
  exact absurd hlogged (by decide +kernel)

end

section

/-! Proofs about notices (sitting 6): the way of a request to its home slice, the installation of a notice's data, and the statement
O17. -/

namespace Sys2Proof.Machine
open Sys2Proof

/-! ### From the port to the home slice (R60, R97, R170) -/

/-- The slice as a request of the fabric meets it: nothing has left yet, and it is not idle (R422). -/
def State.attends (s : State) : State := { s.fresh0 with power := { s.power with idle := 0, scrubWake := false } }

/-- What an admitted request rests on does not depend on ports and meters. -/
theorem State.Metered.admits {s t : State} {op : ReqOp} {q : Req} (h : s.Metered t) (hs : s.Admits op q) : t.Admits op q := by
  obtain ⟨⟨_, _, _, _, _, _, _, _, _, rfl⟩, -, -⟩ := h
  exact { hs with }

theorem State.Admits.attends {s : State} {op : ReqOp} {q : Req} (h : s.Admits op q) : s.attends.Admits op q := { h with }

/-- R60, R180: the lookup of a request that arrives whole at its home slice at rest. -/
theorem State.Arrives.lookup {s : State} {w : WaitReq} (h : s.Arrives w.op w.q) (htag : w.tag = none) (hrtag : w.rtag = none)
    (hfar : w.far = false) : s.lookup w false = (s.runAs (some w.grp) (some w.q.agent)).homeReq w := by
  have hcfg : (s.runAs (some w.grp) (some w.q.agent)).lookupCfg w = s.runAs (some w.grp) (some w.q.agent) :=
    State.lookupCfg_calm _ _ h.inject h.upsets h.bad
  have hfar' : ∀ t : State, t.notFar w = (w, t) := fun t => by
    unfold State.notFar
    cases w
    simp_all
  have hhome : (s.runAs (some w.grp) (some w.q.agent)).bucketSt (bucketOf w.q.line) = .home := State.homed_iff h.home
  have hdown : (s.runAs (some w.grp) (some w.q.agent)).isDown w.q.agent = false := by simp [State.isDown, h.down]
  have hhdr : (s.runAs (some w.grp) (some w.q.agent)).badHeader w.op w.q = false := h.header
  unfold State.lookup
  dsimp only
  rw [hcfg]
  simp [h.service, hhome, hfar', hdown, hhdr]

/-- R16, R60: a request that arrives whole at its home slice at rest meets it there, with only ports and meters changed before. -/
theorem State.Arrives.reqFlit {s : State} {op : ReqOp} {q : Req} (h : s.Arrives op q) (i : Instr) :
    ∃ u, s.attends.Metered u ∧ s.fresh0.reqFlit i op q = (u.homeReq (s.accepted op q none)).tidy := by
  obtain ⟨a, g, hseen⟩ : ∃ a g, s.fresh0.reqSeen op q = { s.fresh0 with acts := a, sig := g } := ⟨_, _, rfl⟩
  have hrest : State.AtRest { s.fresh0 with acts := a, sig := g } := { h.toAtRest with }
  have hwake : (State.notIdle (State.wakeUp { s.fresh0 with acts := a, sig := g })).keepCredit q.port =
      { s.attends with acts := a, sig := g } := by
    simp [State.wakeUp, State.asleep, State.notIdle, State.keepCredit, State.attends, h.service, h.phase, h.config]
  have hacc : State.accepted { s.fresh0 with acts := a, sig := g } op q none = s.accepted op q none := rfl
  obtain ⟨r, hcharge⟩ := State.charge_shape (s.accepted op q none) { s.attends with acts := a, sig := g }
  have hlook := State.Arrives.lookup (s := { s.attends with acts := a, sig := g, reg := r }) (w := s.accepted op q none)
    (by exact { h with }) rfl rfl rfl
  have hflip : State.flitCheck q.flips q.port 0 { s.fresh0 with acts := a, sig := g } = (true, { s.fresh0 with acts := a, sig := g }) := by
    rw [h.flips]
    rfl
  refine ⟨State.runAs (some (s.accepted op q none).grp) { s.attends with acts := a, sig := g, reg := r } (some q.agent),
    ⟨⟨_, _, _, _, _, _, _, _, _, rfl⟩, fun _ => rfl, fun _ _ => rfl⟩, ?_⟩
  unfold State.reqFlit
  rw [h.toAtRest.fresh0.gate]
  dsimp only
  rw [hseen, hflip]
  dsimp only
  rw [State.checkDat_clean _ _ _ h.clean]
  simp only [hrest.gate, Bool.not_true, Bool.false_eq_true, if_false]
  rw [hacc, hwake, hcharge, hlook]
  rfl

/-- R170: an admitted notice is ruled by its line; before, its lookup is counted and its set is read. -/
theorem State.Admits.homeReq_notice {s : State} {w : WaitReq} (h : s.Admits w.op w.q) (hn : w.op.isNotice = true)
    (hl : w.lens = s.lensAt w.q.addr) :
    ∃ u, s.Metered u ∧ s.homeReq w = u.notice { w with looked := true } := by
  have h12 : s.Metered (s.reaches12 w) := by
    unfold State.reaches12
    split
    · exact .refl s
    · exact (State.metered_count _ _ h.bad).trans ⟨⟨_, _, _, _, _, _, _, _, _, rfl⟩, fun _ => rfl, fun _ _ => rfl⟩
  generalize hx : s.reaches12 w = x at h12
  have hread : x.Metered ((x.act 17 1).act 18 1) := ⟨⟨_, _, _, _, _, _, _, _, _, rfl⟩, fun _ => rfl, fun _ _ => rfl⟩
  have hu := h12.trans hread
  have ha := h12.admits h
  generalize hy : (x.act 17 1).act 18 1 = y at hread hu
  have hy' := hu.admits h
  have hlens : w.lens = y.lensAt w.q.addr := by rw [hl]; subst hy; obtain ⟨⟨_, _, _, _, _, _, _, _, _, rfl⟩, -, -⟩ := h12; rfl
  have hlook : (x.readLookup w.q.line).reclaimLine w.q.line = y := by
    rw [State.readLookup_calm _ _ ha.inject ha.upsets, hy, State.reclaimLine_calm _ _ hy'.down]
  have hop : w.op ≠ .confirm ∧ w.op ≠ .cancel ∧ w.op ≠ .cueRing ∧ w.op.isCtl = false := by
    cases ho : w.op <;> rw [ho] at hn <;> simp_all [ReqOp.isNotice, ReqOp.isCtl]
  obtain ⟨h1, h2, h3, h4⟩ := hop
  have hdis : y.dispatch { w with looked := true } = y.notice { w with looked := true } := by
    unfold State.dispatch
    simp [hy'.noHeader, hy'.noBell, hn, h3, h4]
  refine ⟨y, hu, ?_⟩
  unfold State.homeReq
  rw [hx]
  simp only [hn, Bool.true_or, if_true, Bool.not_true, Bool.and_false, Bool.false_eq_true, if_false, ha.scratch, hlook,
    beq_false_of_ne h1, beq_false_of_ne h2, Bool.or_self, hy'.service, bne_self_eq_false, hlens ▸ hy'.allowed, hdis]

/-- R170: what the arrival of an admitted notice does. -/
theorem State.Admits.fabricRow_notice {s : State} {op : ReqOp} {q : Req} (h : s.Admits op q) (hn : op.isNotice = true) (i : Instr) :
    ∃ u, s.attends.Metered u ∧
      fabricRow i op q s = finish (u.notice { s.accepted op q none with looked := true }).tidy := by
  obtain ⟨v, hv, hflit⟩ := h.toArrives.reqFlit i
  have hlens : (s.accepted op q none).lens = v.lensAt q.addr := by
    obtain ⟨⟨_, _, _, _, _, _, _, _, _, rfl⟩, -, -⟩ := hv
    rfl
  obtain ⟨u, hu, hnotice⟩ := State.Admits.homeReq_notice (w := s.accepted op q none) (hv.admits h.attends) hn hlens
  exact ⟨u, hv.trans hu, by rw [fabricRow, hflit, hnotice]⟩

/-! ### What a notice leaves alone -/

/-- The directory, the array and the count of transactions are no meters: both sides may get others. -/
theorem State.Metered.withLines {s t : State} (h : s.Metered t) (d : List DirEnt) (a : List CLine) (n : Nat) :
    State.Metered { s with dir := d, arr := a, nextId := n } { t with dir := d, arr := a, nextId := n } := by
  obtain ⟨⟨_, _, _, _, _, _, _, _, _, rfl⟩, hhist, hctr⟩ := h
  exact ⟨⟨_, _, _, _, _, _, _, _, _, rfl⟩, hhist, hctr⟩

theorem State.Metered.mrs {s t : State} (h : s.Metered t) : t.mrs = s.mrs := by
  obtain ⟨⟨_, _, _, _, _, _, _, _, _, rfl⟩, -, -⟩ := h
  rfl

/-- The frame of a request that writes the directory, the array, the ports and the meters. -/
theorem State.Metered.frame_lines {s t : State} {d : List DirEnt} {a : List CLine} {n : Nat}
    (h : State.Metered { s.attends with dir := d, arr := a, nextId := n } t) : s.Frame t.settle := by
  obtain ⟨⟨_, _, _, _, _, _, _, _, _, rfl⟩, hhist, hctr⟩ := h
  exact {
    cfg := rfl, cue := rfl, xlt := rfl, presc := rfl, mbs := rfl, pws := rfl, elog := rfl, meas := rfl, regs := .inl rfl,
    hot := fun _ => rfl, lanes := rfl, hist := hhist, ctr := hctr, fuses := rfl, res := rfl, hand := rfl, down := rfl, ranges := rfl,
    walks := rfl, span := rfl, test := rfl, folds := rfl, pending := rfl, mode := rfl, tint := ⟨rfl, rfl⟩ }

/-- After such a request nothing is left in progress, and the meaning ends there. -/
theorem State.Admits.finish_lines {s t : State} {op : ReqOp} {q : Req} {d : List DirEnt} {a : List CLine} {n : Nat} (h : s.Admits op q)
    (ht : State.Metered { s.attends with dir := d, arr := a, nextId := n } t) : finish t.tidy = .next t.settle := by
  have hstill : t.Still := ht.still { h.toStill with }
  rw [hstill.tidy (ht.prov.trans h.prov), finish_of_service ((congrArg Power.state ht.power).trans h.service)]

/-! ### The entry after a notice (R167, R170, R171) -/

/-- R141: with no provisional entry there is none to void. -/
theorem State.voidProv_calm (line : Nat) {s : State} (h : s.prov = []) : s.voidProv line = s := by
  unfold State.voidProv State.voidEnts
  rw [h, List.foldl_nil, List.map_nil, ← h]

/-- R171: with no request in progress an entry that loses a holder is stored, or freed with its last one. -/
theorem State.putLess_calm (e : DirEnt) {s : State} (h : s.txns = []) : s.putLess e = s.putDir e := by
  unfold State.putLess
  rw [h]
  exact ite_self _

theorem State.putDir_dir_congr {s t : State} (h : t.dir = s.dir) (e : DirEnt) : (t.putDir e).dir = (s.putDir e).dir := by
  unfold State.putDir
  dsimp only
  rw [State.act_dir, State.act_dir, h]
  split <;> rfl

/-- R431: storing an entry counts as activity, and changes the directory only. -/
theorem State.metered_putDir (e : DirEnt) (s : State) : State.Metered { s with dir := (s.putDir e).dir } (s.putDir e) := by
  unfold State.putDir
  dsimp only
  split <;> exact ⟨⟨_, _, _, _, _, _, _, _, _, rfl⟩, fun _ => rfl, fun _ _ => rfl⟩

theorem State.putNorm_eq (e : DirEnt) (s : State) :
    s.putNorm e = if e.norm.2 then (s.putDir e.norm.1).count Ev.dirCoarse (some e.part) else s.putDir e.norm.1 := rfl

theorem State.putNorm_dir (e : DirEnt) {s : State} (hb : s.bad = []) : (s.putNorm e).dir = (s.putDir e.norm.1).dir := by
  rw [State.putNorm_eq, apply_ite State.dir, (State.metered_count _ _ ((s.metered_putDir e.norm.1).bad.trans hb)).dir, ite_self]

/-- R167: so does storing it in its format, which counts `DIR_COARSE` besides. -/
theorem State.metered_putNorm (e : DirEnt) {s : State} (hb : s.bad = []) :
    State.Metered { s with dir := (s.putNorm e).dir } (s.putNorm e) := by
  have hput := s.metered_putDir e.norm.1
  rw [State.putNorm_dir e hb, State.putNorm_eq]
  split
  · exact hput.trans (State.metered_count _ _ (hput.bad.trans hb))
  · exact hput

/-- R170: with no transaction a notice from an agent in the role it needs acts on the entry of its line. -/
theorem State.notice_acts {s : State} {w : WaitReq} {e : DirEnt} (ht : s.txns = []) (hlisted : s.hand.listed = [])
    (he : s.dirAt w.q.line = some e)
    (hrole : (if w.op == .evictClean then e.records w.q.agent else e.owner == some w.q.agent) = true) :
    s.notice w = s.applyNotice w e := by
  unfold State.notice
  simp only [hlisted, List.any_nil, Bool.false_eq_true, if_false, State.noticeTxn, State.noticeEvict, ht, List.findSome?_nil, he]
  exact if_pos hrole

/-! ### The installation of a notice's data (R86, R131, R173) -/

/-- Line `line` of the array now holds `c`, and besides only the activity counts differ. -/
structure State.Replaces (s t : State) (line : Nat) (c : CLine) : Prop where
  shape : ∃ g, t = { s with arr := t.arr, acts := g }
  form : arrWf t.arr = true
  here : t.lineOf line = some c
  others : ∀ n, n ≠ line → t.lineOf n = s.lineOf n

theorem State.Replaces.trans {s t u : State} {line : Nat} {c d : CLine} (h : s.Replaces t line c) (k : t.Replaces u line d) :
    s.Replaces u line d := by
  obtain ⟨g, hg⟩ := h.shape
  obtain ⟨g', hg'⟩ := k.shape
  exact ⟨⟨g', hg'.trans (by rw [hg])⟩, k.form, k.here, fun n hn => (k.others n hn).trans (h.others n hn)⟩

/-- The array lists no invalid line. -/
theorem valid_of_arrWf {l : List CLine} (h : arrWf l = true) {c : CLine} (hc : c ∈ l) : c.valid = true := by
  induction l with
  | nil => exact absurd hc List.not_mem_nil
  | cons y l ih =>
    obtain ⟨hy, -, hl⟩ := (arrWf_cons y l).1 h
    rcases List.mem_cons.1 hc with rfl | hc
    · exact hy
    · exact ih hl hc

theorem State.mem_of_lineOf {s : State} {line : Nat} {c : CLine} (hl : s.lineOf line = some c) : c ∈ s.arr ∧ c.line = line := by
  unfold State.lineOf at hl
  have hc := List.find?_some hl
  simp only [Bool.and_eq_true, beq_iff_eq] at hc
  exact ⟨List.mem_of_find?_eq_some hl, hc.1⟩

/-- A valid line put at the place of the line that it replaces. -/
theorem State.replaces_putLine {s : State} {line : Nat} {c d : CLine} (hw : arrWf s.arr = true) (hl : s.lineOf line = some c)
    (hv : d.valid = true) (hk : d.key = c.key) (hline : d.line = c.line) (hr : d.resid = c.resid) :
    s.Replaces (s.putLine d) line d := by
  obtain rfl := (State.mem_of_lineOf hl).2
  exact ⟨⟨s.acts, rfl⟩, State.putLine_wf _ _ hw, State.lineOf_putLine d c s hw hl hv hk hline hr,
    fun n hn => State.lineOf_putLine_ne d c s n hw hl hv hk hline hn⟩

/-- R86: a hit changes the re-reference value of its line at most. -/
theorem State.replaces_touch {s : State} {line : Nat} {c : CLine} (hw : arrWf s.arr = true) (hl : s.lineOf line = some c) :
    ∃ r, s.Replaces (s.touch c) line { c with rrv := r } := by
  unfold State.touch
  split
  · exact ⟨_, State.replaces_putLine hw hl (show c.valid = true from valid_of_arrWf hw (State.mem_of_lineOf hl).1) rfl rfl rfl⟩
  · exact ⟨c.rrv, ⟨s.acts, rfl⟩, hw, hl, fun _ _ => rfl⟩

/-- The line with these dirty data in both sectors. -/
def CLine.withDirty (c : CLine) (lo hi : Sector × Bool) : CLine := 
  { c with lo := Sec.dirty lo.1 lo.2, hi := Sec.dirty hi.1 hi.2, dead := false }

/-- R173: dirty data replace both sectors of a line that is present and not dead. -/
theorem State.replaces_installDirty {s : State} {line : Nat} {c : CLine} (part : Nat) (lens : Option Nat) (lo hi : Sector × Bool)
    (hw : arrWf s.arr = true) (hl : s.lineOf line = some c) (hd : c.dead = false) :
    s.Replaces (s.installDirty line part lens (some lo) (some hi)) line (c.withDirty lo hi) := by
  have heq : s.installDirty line part lens (some lo) (some hi) = (s.bankWrite c.way 2).putLine (c.withDirty lo hi) := by
    unfold State.installDirty
    simp only [Option.isNone_some, Bool.and_self, Bool.false_eq_true, if_false, hl, hd]
    rfl
  have hbank : s.Replaces (s.bankWrite c.way 2) line c := ⟨⟨_, rfl⟩, hw, hl, fun _ _ => rfl⟩
  rw [heq]
  exact hbank.trans (State.replaces_putLine hw hl rfl rfl rfl rfl)

/-! ### A line with one notice (R170, R179) -/

theorem State.sweepMr_rest (line : Nat) {s : State} (hm : s.mrs = []) : s.sweepMr line = s := by
  unfold State.sweepMr
  rw [hm, List.filter_nil, ← hm]
  exact ite_self _

/-- With no parity error and no miss register, no pump changes a line without a transaction. -/
theorem State.pump_rest (line : Nat) {s : State} (ht : s.txns = []) (hm : s.mrs = []) (hb : s.bad = []) (n : Nat) :
    s.pump line n = s := by
  have habsorb : s.absorbLine line = s := by simp [State.absorbLine, ht]
  have hone : s.pumpOne line = none := by simp [State.pumpOne, State.lineDamage, hb, State.readBuffered_calm line hb, ht]
  cases n with
  | zero => rfl
  | succ n =>
    unfold State.pump
    dsimp only
    rw [habsorb, hone]
    exact State.sweepMr_rest line hm

section

variable {s : State} {t : Txn} (hs : s.txns = [t]) (hstart : t.started = true) (hserved : t.served = false)

include hs hstart hserved

/-- R179: a notice or an installation takes no answers and needs no data. -/
theorem State.absorbLine_install (hi : t.isInstall = true) (hsnoops : t.snoops = []) :
    s.absorbLine t.line = s.runAs (some t.grp) t.agent := by
  have habsorb : (s.runAs (some t.grp) t.agent).absorbAll t.id = s.runAs (some t.grp) t.agent := by
    simp [State.absorbAll, State.settleTxn, hs, hsnoops]
  unfold State.absorbLine
  simp only [hs, hstart, hserved, List.filter_cons, beq_self_eq_true, Bool.not_false, Bool.and_self, if_true, List.filter_nil,
    List.foldl_cons, List.foldl_nil, habsorb, State.runAs_txns, List.find?_cons]
  cases hk : t.kind with
  | req op q tag =>
    have hneed : needs op q none = (false, false) := by
      cases op <;> simp_all [Txn.isInstall, needs, ReqOp.isAt]
    simp only [State.fallBack, hneed, Bool.false_and, Bool.or_self, Bool.not_false, Bool.or_true, Bool.true_or, if_true, ite_self]
  | install _ => rfl
  | evict _ | operand _ _ | fillOp _ | rangeOp _ _ | collectOp _ => simp [Txn.isInstall, hk] at hi

/-- The only transaction of a line acts when its turn has come. -/
theorem State.pump_turn {u : State} (hb : s.bad = []) (hi : t.isInstall = true) (hsnoops : t.snoops = [])
    (hu : s.turn t = some u) (n : Nat) : s.pump t.line (n + 1) = u.pump t.line n := by
  have hone : (s.runAs (some t.grp) t.agent).pumpOne t.line = some u := by
    have hdam : (s.runAs (some t.grp) t.agent).lineDamage t.line = none := by simp [State.lineDamage, hb]
    unfold State.pumpOne
    rw [hdam]
    dsimp only
    rw [State.readBuffered_calm t.line (by exact hb)]
    simp only [State.runAs_txns, hs, hserved, List.filter_cons, beq_self_eq_true, Bool.not_false, Bool.and_self, if_true,
      List.filter_nil, List.findSome?_cons]
    rw [show (s.runAs (some t.grp) t.agent).turn t = some u from hu]
  conv_lhs => unfold State.pump
  dsimp only
  rw [State.absorbLine_install hs hstart hserved hi hsnoops, hone]

end

/-- The transaction of a notice that brings data for its line. -/
def State.noticeTurn (w : WaitReq) (s : State) : Txn :=
  { id := s.nextId, kind := .req w.op w.q w.tag, line := w.q.line, part := w.q.part, lens := w.lens, started := true,
    hit := (s.lineOf w.q.line).isSome, grp := w.grp, agent := some w.q.agent }

/-- The same transaction once the notice has completed: its data install. -/
def Txn.installs (t : Txn) (q : Req) : Txn :=
  { t with kind := .install 0, ownLo := some (q.dataAt 0), ownHi := some (q.dataAt 1) }

theorem State.noticeTurn_isInstall (s : State) {w : WaitReq} (hn : w.op.isNotice = true) : (s.noticeTurn w).isInstall = true := by
  revert hn
  unfold Txn.isInstall State.noticeTurn
  cases w.op <;> simp [ReqOp.isNotice]

theorem State.noticeTurn_isCtl (s : State) {w : WaitReq} (hn : w.op.isNotice = true) : (s.noticeTurn w).isCtl = false := by
  revert hn
  unfold Txn.isCtl State.noticeTurn
  cases w.op <;> simp [ReqOp.isNotice, ReqOp.isCtl]

theorem State.noticeData_eq (w : WaitReq) {s : State} (ht : s.txns = []) :
    s.noticeData w = State.pumpLine w.q.line { s with txns := [s.noticeTurn w], nextId := s.nextId + 1 } := by
  unfold State.noticeData State.putFirst
  dsimp only
  rw [ht]
  rfl

/-- R170: the turn of a notice whose data are here completes it. -/
theorem State.turn_notice {s : State} {t : Txn} {op : ReqOp} {q : Req} (hs : s.txns = [t]) (hk : t.kind = .req op q none)
    (hn : op.isNotice = true) (hq : q.dataIn op = true) (hctl : t.isCtl = false) (hb : s.bad = []) :
    ∃ x, s.Metered x ∧ x.Sends (.rsp q.port q.txid .done 0 false false) ∧
      s.turn t = some { x with txns := [t.installs q] } := by
  have hx := (s.metered_reg { s.reg with cur := some t.grp, curAgent := t.agent }).trans
    (State.metered_respond q.port q.txid .done (s := s.runAs (some t.grp) t.agent) hb)
  refine ⟨_, hx, State.sends_respond _ _ _ _ _ _, ?_⟩
  have htx : ((s.runAs (some t.grp) t.agent).respond q.port q.txid none .done).txns = [t] := by
    obtain ⟨⟨_, _, _, _, _, _, _, _, _, h⟩, -, -⟩ := hx
    rw [h]
    exact hs
  unfold State.turn
  dsimp only
  rw [hk]
  simp only [hctl, State.reqTurn, hn, hq, if_true, Bool.false_eq_true, if_false, State.noticeDone, State.setTxn, htx, List.map_cons,
    List.map_nil, beq_self_eq_true]
  rfl

/-- R86, R173: the turn of an installation on a line that is present and not dead. -/
theorem State.turn_install {s : State} {t : Txn} {c : CLine} {lo hi : Sector × Bool} (hs : s.txns = [t]) (hk : t.kind = .install 0)
    (hw : arrWf s.arr = true) (hl : s.lineOf t.line = some c) (hd : c.dead = false) (hlo : t.ownLo = some lo) (hhi : t.ownHi = some hi) :
    ∃ y r, State.Replaces (s.runAs (some t.grp) t.agent) y t.line (CLine.withDirty { c with rrv := r } lo hi) ∧
      s.turn t = some { y with txns := [] } := by
  have htouch : ∃ r, State.Replaces (s.runAs (some t.grp) t.agent) ((s.runAs (some t.grp) t.agent).hitTouch t) t.line
      { c with rrv := r } := by
    unfold State.hitTouch
    rw [show (s.runAs (some t.grp) t.agent).lineOf t.line = some c from hl]
    split
    · exact State.replaces_touch (s := s.runAs (some t.grp) t.agent) hw hl
    · exact ⟨c.rrv, ⟨s.acts, rfl⟩, hw, hl, fun _ _ => rfl⟩
  obtain ⟨r, hr⟩ := htouch
  have hin := hr.trans (State.replaces_installDirty t.part t.lens lo hi hr.form hr.here hd)
  have hclear : (s.runAs (some t.grp) t.agent).clear t = true := by
    simp [State.clear, State.earlier, hs]
  have hroom : (s.runAs (some t.grp) t.agent).installStuck 0 t.line t.part t.lens = false := by
    simp [State.installStuck, State.installWaits, show (s.runAs (some t.grp) t.agent).lineOf t.line = some c from hl]
  refine ⟨_, r, hin, ?_⟩
  unfold State.turn
  dsimp only
  rw [hk]
  simp only [State.installTurn, hclear, hroom, Bool.not_true, Bool.or_self, Bool.false_eq_true, if_false, hlo, hhi]
  congr 1
  unfold State.dropTxn
  obtain ⟨g, hg⟩ := hin.shape
  have htx : (State.installNow 0 t.line t.part t.lens (some lo) (some hi) ((s.runAs (some t.grp) t.agent).hitTouch t)).txns = [t] := by
    rw [State.installNow, hg]
    exact hs
  rw [htx, List.filter_cons_of_neg (by simp), List.filter_nil]
  rfl

/-- R170, R173: a line whose only transaction is a notice that completes and then installs has nothing to go on with after that. -/
theorem State.pumpLine_notice {s x y : State} {t : Txn} {q : Req} (hs : s.txns = [t]) (hstart : t.started = true)
    (hserved : t.served = false) (hi : t.isInstall = true) (hsnoops : t.snoops = [])
    (hnotice : s.turn t = some { x with txns := [t.installs q] })
    (hinstall : State.turn (t.installs q) { x with txns := [t.installs q] } = some { y with txns := [] })
    (hbad : s.bad = []) (hxbad : x.bad = []) (hybad : y.bad = []) (hymrs : y.mrs = []) :
    s.pumpLine t.line = s.runLike { y with txns := [] } := by
  have hfirst := State.pump_turn hs hstart hserved hbad hi hsnoops hnotice 11
  have hsecond : State.pump t.line 11 { x with txns := [t.installs q] } = State.pump t.line 10 { y with txns := [] } :=
    State.pump_turn (s := { x with txns := [t.installs q] }) (t := t.installs q) rfl hstart hserved hxbad rfl hsnoops hinstall 10
  unfold State.pumpLine
  rw [hs]
  show State.runLike _ (State.sweepMr t.line (State.pump t.line (11 + 1) s)) = _
  rw [hfirst, hsecond, State.pump_rest (s := { y with txns := [] }) t.line rfl hymrs hybad,
    State.sweepMr_rest (s := { y with txns := [] }) t.line hymrs]

theorem State.noTxns_withArr {s : State} (h : s.txns = []) {a : List CLine} {n : Nat} :
    { s with arr := a, nextId := n } = { s with txns := [], arr := a, nextId := n } := by
  rw [← h]

/-- The transactions and the array are no meters: both sides may get others. -/
theorem State.Metered.withTxns {s t : State} (h : s.Metered t) (l : List Txn) (a : List CLine) :
    State.Metered { s with txns := l, arr := a } { t with txns := l, arr := a } := by
  obtain ⟨⟨_, _, _, _, _, _, _, _, _, rfl⟩, hhist, hctr⟩ := h
  exact ⟨⟨_, _, _, _, _, _, _, _, _, rfl⟩, hhist, hctr⟩

/-- R86, R170, R173: the data of an admitted notice for a line that is present and not dead: the notice completes with `DONE`, and its
data stand dirty in the line. -/
theorem State.noticeData_present {s : State} {w : WaitReq} {c : CLine} (hstill : s.Still) (hn : w.op.isNotice = true)
    (hq : w.q.dataIn w.op = true) (htag : w.tag = none) (hw : arrWf s.arr = true) (hl : s.lineOf w.q.line = some c)
    (hd : c.dead = false) :
    ∃ a n d, State.Metered { s with arr := a, nextId := n } (s.noticeData w) ∧
      (s.noticeData w).Sends (.rsp w.q.port w.q.txid .done 0 false false) ∧
      (s.noticeData w).lineOf w.q.line = some (CLine.withDirty d (w.q.dataAt 0) (w.q.dataAt 1)) ∧
      ∀ m, m ≠ w.q.line → (s.noticeData w).lineOf m = s.lineOf m := by
  generalize ht : s.noticeTurn w = t
  have hline : t.line = w.q.line := by rw [← ht]; rfl
  have hs0 : State.txns { s with txns := [t], nextId := s.nextId + 1 } = [t] := rfl
  obtain ⟨x, hx, hsend, hturn⟩ := State.turn_notice hs0 (by rw [← ht, ← htag]; rfl) hn hq (ht ▸ s.noticeTurn_isCtl hn) hstill.bad
  have hlx : State.lineOf { x with txns := [t.installs w.q] } (t.installs w.q).line = some c := by
    show List.find? _ x.arr = _
    rw [hx.arr, ← hl, ← hline]
    rfl
  obtain ⟨y, r, hy, hturn'⟩ := State.turn_install (s := { x with txns := [t.installs w.q] }) (t := t.installs w.q) rfl rfl
    (by rw [← hw]; exact congrArg arrWf hx.arr) hlx hd rfl rfl
  obtain ⟨g, hg⟩ := hy.shape
  have hend : s.noticeData w = State.runLike { s with txns := [t], nextId := s.nextId + 1 } { y with txns := [] } := by
    have hxbad : x.bad = [] := hx.bad.trans hstill.bad
    have hymrs : y.mrs = [] := by rw [hg]; exact hx.mrs.trans hstill.mrs
    have hybad : y.bad = [] := by rw [hg]; exact hxbad
    rw [State.noticeData_eq w hstill.txns, ht, ← hline]
    exact State.pumpLine_notice hs0 (by rw [← ht]; rfl) (by rw [← ht]; rfl) (ht ▸ s.noticeTurn_isInstall hn) (by rw [← ht]; rfl)
      hturn hturn' hstill.bad hxbad hybad hymrs
  have hshape : State.Metered { s with arr := y.arr, nextId := s.nextId + 1 } (s.noticeData w) := by
    rw [State.noTxns_withArr hstill.txns, hend, hg]
    exact (hx.withTxns [] y.arr).trans ⟨⟨_, _, _, _, _, _, _, _, _, rfl⟩, fun _ => rfl, fun _ _ => rfl⟩
  have hlines : ∀ m, (s.noticeData w).lineOf m = y.lineOf m := fun m => by rw [hend]; rfl
  refine ⟨y.arr, s.nextId + 1, { c with rrv := r }, hshape, ?_, ?_, fun m hm => ?_⟩
  · rw [hend, hg]
    exact hsend
  · rw [hlines, ← hline]
    exact hy.here
  · rw [hlines, hy.others m (by rw [← hline] at hm; exact hm)]
    show List.find? _ x.arr = _
    rw [hx.arr]
    rfl

/-! ### O17 -/

/-- A change of the directory that touches ports and meters besides, after changes of ports and meters. -/
theorem State.Metered.withDir {s t v : State} (h : s.Metered t) (hv : State.Metered { t with dir := v.dir } v) :
    State.Metered { s with dir := v.dir } v := by
  refine State.Metered.trans ?_ hv
  obtain ⟨⟨_, _, _, _, _, _, _, _, _, rfl⟩, hhist, hctr⟩ := h
  exact ⟨⟨_, _, _, _, _, _, _, _, _, rfl⟩, hhist, hctr⟩

/-- R170, R173: the notice `q` has completed in `t`, and its data stand dirty in its line. -/
structure State.Installed (s t : State) (q : Req) : Prop where
  sent : t.Sends (.rsp q.port q.txid .done 0 false false)
  data : ∀ i < 2, t.cached q.line i = some (q.dataAt i)
  dirty : ∃ x, t.lineOf q.line = some x ∧ x.lo.d = true ∧ x.hi.d = true
  txns : t.txns = []
  others : s.OtherLines t q.line
  wins : t.wins = s.wins
  frame : s.Frame t

@[simp] theorem Sec.poison_dirty (d : Sector) (p : Bool) : (Sec.dirty d p).poison = p := by
  cases p <;> simp [Sec.poison, Sec.dirty, poisonBits]

@[simp] theorem Sec.value_dirty (d : Sector) (p : Bool) : (Sec.dirty d p).value = d := rfl
@[simp] theorem Sec.v_dirty (d : Sector) (p : Bool) : (Sec.dirty d p).v = true := rfl

theorem State.cached_withDirty {s : State} {line : Nat} {c : CLine} {q : Req}
    (hl : s.lineOf line = some (c.withDirty (q.dataAt 0) (q.dataAt 1))) : ∀ i < 2, s.cached line i = some (q.dataAt i)
  | 0, _ | 1, _ => by
    unfold State.cached
    rw [hl]
    simp [CLine.withDirty, CLine.sec]

/-- R170, R173: an admitted notice with data for a line that is present and not dead, whose entry has been seen to. -/
theorem State.Admits.notice_installs {s v : State} {op : ReqOp} {q : Req} {w : WaitReq} {c : CLine} (h : s.Admits op q)
    (hn : op.isNotice = true) (hop : w.op = op) (hwq : w.q = q) (htag : w.tag = none) (hw : arrWf s.arr = true)
    (hl : s.lineOf q.line = some c) (hd : c.dead = false) (hv : State.Metered { s.attends with dir := v.dir } v) :
    ∃ t, finish (v.noticeData w).tidy = .next t ∧ s.Installed t q ∧ t.dir = v.dir := by
  subst hop hwq
  have hstill : v.Still := hv.still { h.toStill with }
  have harr : v.arr = s.arr := hv.arr
  have hlv : v.lineOf w.q.line = some c := by
    rw [← hl]
    exact congrArg (List.find? _) harr
  obtain ⟨a, n, d, hmet, hsent, hline, hothers⟩ := State.noticeData_present hstill hn h.whole htag (by rw [harr]; exact hw) hlv hd
  generalize v.noticeData w = u at hmet hsent hline hothers ⊢
  have ht : State.Metered { s.attends with dir := v.dir, arr := a, nextId := n } u :=
    (hv.withLines v.dir a n).trans hmet
  have hwbb : u.wbb = s.wbb := by
    obtain ⟨⟨_, _, _, _, _, _, _, _, _, hshape⟩, -, -⟩ := ht
    rw [hshape]
    rfl
  refine ⟨_, h.finish_lines ht, ?_, ht.dir⟩
  exact {
    sent := hsent
    data := State.cached_withDirty (s := u.settle) hline
    dirty := ⟨_, hline, rfl, rfl⟩
    txns := (ht.still { h.toStill with }).txns
    others := ⟨fun m hm => (hothers m hm).trans (congrArg (List.find? _) harr), hwbb⟩
    wins := ht.wins
    frame := ht.frame_lines }

theorem State.Metered.dirAt {s t : State} (h : s.Metered t) (line : Nat) : t.dirAt line = s.dirAt line :=
  congrArg (List.find? _) h.dir

/-- R170: what the arrival of a notice from an agent in the role it needs does to the entry `e` of its line. -/
theorem State.Admits.fabricRow_acts {s : State} {op : ReqOp} {q : Req} {e : DirEnt} (h : s.Admits op q) (hn : op.isNotice = true)
    (he : s.dirAt q.line = some e) (hrole : (if op == .evictClean then e.records q.agent else e.owner == some q.agent) = true)
    (i : Instr) :
    ∃ u, s.attends.Metered u ∧
      fabricRow i op q s = finish (u.applyNotice { s.accepted op q none with looked := true } e).tidy := by
  obtain ⟨u, hu, hrow⟩ := h.fabricRow_notice hn i
  have hstill : u.Still := hu.still { h.toStill with }
  have hdir : u.dirAt q.line = some e := by
    rw [hu.dirAt, ← he]
    rfl
  have hacts := State.notice_acts (w := { s.accepted op q none with looked := true }) hstill.txns hstill.listed hdir hrole
  exact ⟨u, hu, by rw [hrow, hacts]⟩

section

variable {s : State} {q : Req} {e : DirEnt} {c : CLine} (hw : arrWf s.arr = true) (he : s.dirAt q.line = some e)

include hw he

/-- R171: a `WRITEBACK` by the owner takes the owner out of the entry. -/
theorem State.Admits.writeback_installs (h : s.Admits .writeback q) (hl : s.lineOf q.line = some c) (hd : c.dead = false)
    (ho : e.owner = some q.agent) :
    ∃ t, exec (.writeback q) s = .next t ∧ s.Installed t q ∧ t.dir = (s.putDir (e.remove q.agent)).dir := by
  obtain ⟨u, hu, hrow⟩ := h.fabricRow_acts rfl he (by simp [ho]) (.writeback q)
  have hstill : u.Still := hu.still { h.toStill with }
  have hput : (u.voidProv q.line).putLess (e.remove q.agent) = u.putDir (e.remove q.agent) := by
    rw [State.voidProv_calm _ (hu.prov.trans h.prov), State.putLess_calm _ hstill.txns]
  obtain ⟨t, ht, hin, hdir⟩ := h.notice_installs (w := { s.accepted .writeback q none with looked := true }) rfl rfl rfl rfl hw hl hd
    (hu.withDir (u.metered_putDir (e.remove q.agent)))
  refine ⟨t, ?_, hin, hdir.trans (State.putDir_dir_congr (s := s) hu.dir _)⟩
  show fabricRow _ _ _ _ = _
  rw [hrow, ← ht, ← hput]
  rfl

/-- R171: a `WRITECLEAN` by the owner keeps an exclusive owner, and demotes any other to a sharer. -/
theorem State.Admits.writeclean_installs (h : s.Admits .writeclean q) (hl : s.lineOf q.line = some c) (hd : c.dead = false)
    (ho : e.owner = some q.agent) :
    ∃ t, exec (.writeclean q) s = .next t ∧ s.Installed t q ∧ t.dir = (s.putNorm (if e.excl then e else e.demote)).dir := by
  obtain ⟨u, hu, hrow⟩ := h.fabricRow_acts rfl he (by simp [ho]) (.writeclean q)
  have hstill : u.Still := hu.still { h.toStill with }
  obtain ⟨t, ht, hin, hdir⟩ := h.notice_installs (w := { s.accepted .writeclean q none with looked := true }) rfl rfl rfl rfl hw hl hd
    (hu.withDir (State.metered_putNorm (if e.excl then e else e.demote) hstill.bad))
  refine ⟨t, ?_, hin, ?_⟩
  · show fabricRow _ _ _ _ = _
    rw [hrow, ← ht]
    show finish (State.noticeData _ (State.putNorm _ (u.voidProv q.line))).tidy = _
    rw [State.voidProv_calm _ (hu.prov.trans h.prov)]
  · rw [hdir, State.putNorm_dir _ hstill.bad, State.putNorm_dir _ h.bad]
    exact State.putDir_dir_congr (s := s) hu.dir _

omit hw in
/-- R167, R171: an `EVICT_CLEAN` by a holder that is not an owner in O changes the entry at most. -/
theorem State.Admits.evictClean_removes (h : s.Admits .evictClean q) (hrec : e.records q.agent = true)
    (hex : e.owner = some q.agent → e.excl = true) :
    ∃ t, exec (.evictClean q) s = .next t ∧ t.Sends (.rsp q.port q.txid .done 0 false false) ∧
      t.dir = (s.putDir (if e.coarse && e.owner != some q.agent then e else e.remove q.agent)).dir ∧
      t.arr = s.arr ∧ t.wbb = s.wbb ∧ t.txns = [] ∧ t.wins = s.wins ∧ s.Frame t := by
  obtain ⟨u, hu, hrow⟩ := h.fabricRow_acts rfl he hrec (.evictClean q)
  have hstill : u.Still := hu.still { h.toStill with }
  generalize he' : (if e.coarse && e.owner != some q.agent then e else e.remove q.agent) = e'
  have hacts : u.applyNotice { s.accepted .evictClean q none with looked := true } e =
      (u.putDir e').respond q.port q.txid none .done := by
    have hkeeps : (e.owner == some q.agent && !e.excl) = false := by
      cases ho : e.owner == some q.agent
      · rfl
      · simp [hex (beq_iff_eq.1 ho)]
    show (if e.owner == some q.agent && !e.excl then _ else _) = _
    rw [hkeeps, ← he', ← State.putLess_calm _ hstill.txns]
    rfl
  have hdir := State.putDir_dir_congr (s := s) hu.dir e'
  have hput := hu.withDir (u.metered_putDir e')
  have hsent := State.sends_respond q.port q.txid .done 0 false (u.putDir e')
  have hmet := hput.trans (State.metered_respond q.port q.txid .done (hput.bad.trans h.bad))
  generalize (u.putDir e').respond q.port q.txid none .done = t at hacts hsent hmet
  have ht : State.Metered { s.attends with dir := (u.putDir e').dir, arr := s.arr, nextId := s.nextId } t := hmet
  refine ⟨t.settle, ?_, hsent, ht.dir.trans hdir, ht.arr, ?_, (ht.still { h.toStill with }).txns, ht.wins, ht.frame_lines⟩
  · show fabricRow _ _ _ _ = _
    rw [hrow, hacts, h.finish_lines ht]
  · obtain ⟨⟨_, _, _, _, _, _, _, _, _, rfl⟩, -, -⟩ := ht
    rfl

end

end Sys2Proof.Machine

open Sys2Proof Sys2Proof.Machine

/-- Settles O17: at rest a notice of a recorded holder meets its line's entry, and its data install in one turn of the line. -/
theorem noticesOfHolders : Obligations.NoticesOfHolders := by
  intro s q e _ hw he
  refine ⟨fun c hl hd ho h => ?_, fun c hl hd ho h => ?_, fun hrec hex h => h.evictClean_removes he hrec hex⟩
  · obtain ⟨t, ht, hin, hdir⟩ := h.writeback_installs hw he hl hd ho
    exact ⟨t, ht, hin.sent, hin.data, hin.dirty, hdir, hin.txns, hin.others, hin.wins, hin.frame⟩
  · obtain ⟨t, ht, hin, hdir⟩ := h.writeclean_installs hw he hl hd ho
    exact ⟨t, ht, hin.sent, hin.data, hin.dirty, hdir, hin.txns, hin.others, hin.wins, hin.frame⟩

end

section

/-! The refutations of O9, O10, O11, O13 and O15 (sitting 7), each by evaluation at a concrete state. -/

namespace Sys2Proof.Machine
open Sys2Proof

/-! ### The reduction engine behind a notice of its line that has not left (R144, R219, R222, R226) -/

/-- An `AT_ADD` of 3 to the first 32 bits of line 5. -/
def addToLine5 : Req := { readLine5 with size := 2, dat := [{ sector := 0, data := 3 }] }

theorem voidNoticeHeld_admits_atAdd : voidNoticeHeld.Admits .atAdd addToLine5 :=
  { voidNoticeHeld_atRest with
    whole := by decide +kernel, flips := rfl, clean := by decide
    header := by decide +kernel, home := by decide +kernel, scratch := by decide +kernel
    allowed := by decide +kernel
    prov := rfl, noHeader := by decide +kernel, noBell := by decide +kernel, noPlane := by decide +kernel }

/-- R144: the `AT_ADD` waits for the notice; its transaction stands. -/
theorem atAdd_waits : nextView (fun t => t.txns.length) (exec (.atAdd addToLine5) voidNoticeHeld) = some 1 := by
  decide +kernel

/-- An `ARMED` FP32C window over the first 2 MiB, line 5 among them, with its header behind them. -/
def sumWindow : Window := { st := .armed, gen := 7, size := 1, acc := 1, hdr := 0x400000 }

/-- The same slice with line 5 in the plane of a window. -/
def voidNoticeOnSumLine : State := { voidNoticeHeld with wins := [sumWindow] }

/-- An `AT_CADD` of 3.0 (`TYPE` 4) to the first element of line 5. -/
def caddToLine5 : Req := { readLine5 with size := 2, dat := [{ sector := 0, data := 0x40400000 + 4 * 2 ^ 256 }] }

/-- A `RD_FUSED` of line 5 without an operand. -/
def fusedOfLine5 : Req := { readLine5 with dat := [{ sector := 0, data := 0 }] }

theorem voidNoticeOnSumLine_atRest : voidNoticeOnSumLine.AtRest := { voidNoticeHeld_atRest with after := by decide }

theorem voidNoticeOnSumLine_admits :
    ∀ p ∈ [(ReqOp.atCadd, caddToLine5), (.rdFused, fusedOfLine5)], voidNoticeOnSumLine.AdmitsSum p.1 p.2 0 cachedLine5 := by
  intro p hp
  have hp' : p = (.atCadd, caddToLine5) ∨ p = (.rdFused, fusedOfLine5) := by simpa using hp
  rcases hp' with rfl | rfl
  all_goals exact
    { voidNoticeOnSumLine_atRest with
      whole := by decide +kernel, flips := rfl, clean := by decide
      header := by decide +kernel, home := by decide +kernel, scratch := by decide +kernel
      allowed := by decide +kernel
      prov := rfl, noHeader := by decide +kernel, noBell := by decide +kernel, plane := by decide +kernel
      line := by decide +kernel, valid := by decide, noHolder := by decide +kernel }

/-- R144: a contribution and an outflow wait for the notice as well. -/
theorem sumRequests_wait : ∀ i ∈ [Instr.atCadd caddToLine5, .rdFused fusedOfLine5],
    nextView (fun t => t.txns.length) (exec i voidNoticeOnSumLine) = some 1 := by
  decide +kernel

/-! ### A window command while a kept `CONFIRM` becomes due (R143, R251, R255) -/

/-- A slice at rest that homes every bucket, with these windows and the entry `confirmDue`. -/
def windowsWithConfirmDue (ws : List Window) : State :=
  { power := { state := .service, rstLow := false },
    cfg := { inForce := true, map := List.replicate 1024 0, parts := [{ active := true }], route := [{ present := true }] },
    prov := [confirmDue], wins := ws }

theorem windowsWithConfirmDue_atRest {ws : List Window} (h : ∀ w ∈ ws, w.after = []) : (windowsWithConfirmDue ws).AtRest :=
  ⟨⟨rfl, rfl, rfl, h, rfl, rfl, rfl, rfl, rfl, rfl, rfl, rfl, rfl, rfl, rfl, rfl, rfl, rfl, rfl, rfl, rfl, rfl, rfl, rfl⟩, rfl⟩

/-- A `FINAL` window with the fields of `sumWindow`, whose plane begins in the same bucket. -/
def foldSource : Window := { sumWindow with st := .final, gen := 9, base := (2 ^ 20 + 2 ^ 30) * 128, hdr := 0x400080 }

def foldWithConfirmDue : State := windowsWithConfirmDue [sumWindow, foldSource]

/-- A `WIN_FOLD` of `foldSource` into `sumWindow`, in their generations. -/
def foldIntoSumWindow : Req :=
  { readLine5 with addr := 0x400000, size := 6, dat := [{ sector := 0, data := 0x400080 + 7 * 2 ^ 64 + 9 * 2 ^ 96 }] }

theorem foldWithConfirmDue_admits : foldWithConfirmDue.AdmitsWin .winFold foldIntoSumWindow 0 :=
  { windowsWithConfirmDue_atRest (ws := [sumWindow, foldSource]) (by decide) with
    whole := by decide +kernel, flips := rfl, clean := by decide
    header := by decide +kernel, home := by decide +kernel, scratch := by decide +kernel
    allowed := by decide +kernel
    window := by decide +kernel, here := rfl, settled := rfl, used := by decide, fields := by decide +kernel }

theorem foldWithConfirmDue_check :
    foldWithConfirmDue.foldCheck 0 foldWithConfirmDue.foldSrcs foldIntoSumWindow.payload = .ok 1 := by
  decide +kernel

/-- R143: the end of the request performs the `CONFIRM`, which enters line 5 in the directory. -/
theorem winFold_confirms :
    nextView (fun t => t.dir.map (·.line)) (exec (.winFold foldIntoSumWindow) foldWithConfirmDue) = some [5] := by
  decide +kernel

/-- A `SEALED` window that has not drained. -/
def sealedWindow : Window := { sumWindow with st := .sealed, cause := 2 }

/-- R143: so does the end of the drain of a window. -/
theorem windowDrained_confirms :
    nextView (fun t => t.dir.map (·.line)) (exec (.windowDrained 0) (windowsWithConfirmDue [sealedWindow])) = some [5] := by
  decide +kernel

end Sys2Proof.Machine

open Sys2Proof Sys2Proof.Machine

/-- Refutes O9: it does not say what waits in front of the ports. While a `PROV_VOID` of the line waits for a credit (R144), the model
serves no request of the line (`State.voidHeld`); an `AT_ADD` then keeps its transaction (`voidNoticeHeld`). -/
theorem not_atomicHit : ¬ Obligations.AtomicHit := by
  intro h
  obtain ⟨t, he, -, -, -, -, -, -, htxns, -⟩ := h voidNoticeHeld addToLine5 cachedLine5 (.atAdd addToLine5, .atAdd) (by simp)
    voidNoticeHeld_admits_atAdd rfl (by decide +kernel) (by decide +kernel) (by decide +kernel) (by decide +kernel) (by decide +kernel)
    (by decide +kernel) (by decide +kernel)
  have hone : t.txns.length = 1 := view_of_next atAdd_waits he
  rw [htxns] at hone
  exact absurd hone (by decide)

/-- Refutes O10: for the same reason an `AT_CADD` on a line of a sum plane is not applied in the step in which it arrives
(`voidNoticeOnSumLine`). -/
theorem not_contributionsApply : ¬ Obligations.ContributionsApply := by
  intro h
  obtain ⟨t, he, -, -, -, -, -, -, -, -, -, -, -, -, htxns, -⟩ := h.1 voidNoticeOnSumLine caddToLine5 0 cachedLine5
    (voidNoticeOnSumLine_admits (.atCadd, caddToLine5) (by simp)) rfl (by decide +kernel) (by decide) rfl rfl (by decide +kernel)
    (by decide +kernel) (by decide +kernel)
  have hone : t.txns.length = 1 := view_of_next (sumRequests_wait (.atCadd caddToLine5) (by simp)) he
  rw [htxns] at hone
  exact absurd hone (by decide)

/-- Refutes O11: nor does a `RD_FUSED` of that line answer, although it changes no sum. -/
theorem not_fusedReadAnswers : ¬ Obligations.FusedReadAnswers := by
  intro h
  obtain ⟨t, he, -, -, -, -, -, htxns, -⟩ := h voidNoticeOnSumLine fusedOfLine5 0 cachedLine5
    (voidNoticeOnSumLine_admits (.rdFused, fusedOfLine5) (by simp)) rfl (by decide +kernel) (by decide +kernel) (by decide +kernel)
    (by decide +kernel) (by decide +kernel)
  have hone : t.txns.length = 1 := view_of_next (sumRequests_wait (.rdFused fusedOfLine5) (by simp)) he
  rw [htxns] at hone
  exact absurd hone (by decide)

/-- Refutes O13: its first clause says that a `WIN_FOLD` leaves the directory as it was, and has no premise on provisional entries.
The end of the request settles them (R143): one whose data have left and that holds its `CONFIRM` is confirmed there, and its line is
entered in the directory (`foldWithConfirmDue`). -/
theorem not_foldsRun : ¬ Obligations.FoldsRun := by
  intro h
  obtain ⟨t, he, -, -, -, -, -, hdir, -⟩ := h.1 foldWithConfirmDue foldIntoSumWindow 0 1 foldWithConfirmDue_admits rfl (by decide) rfl
    (by decide +kernel) foldWithConfirmDue_check
  have hlines : t.dir.map (·.line) = [5] := view_of_next winFold_confirms he
  rw [hdir] at hlines
  exact absurd hlines (by decide)

/-- Refutes O15: for the same reason the drain of a window does not always leave the directory as it was. -/
theorem not_windowsSealAndFinalise : ¬ Obligations.WindowsSealAndFinalise := by
  intro h
  obtain ⟨hdrain, -⟩ := h.2 (windowsWithConfirmDue [sealedWindow]) 0 (windowsWithConfirmDue_atRest (by decide)) (by decide)
  obtain ⟨t, he, -, -, -, hdir, -⟩ := hdrain rfl rfl (by decide)
  have hlines : t.dir.map (·.line) = [5] := view_of_next windowDrained_confirms he
  rw [hdir] at hlines
  exact absurd hlines (by decide)

end

section

/-! The refutations of O12, O14 and O16 (sitting 8), each by evaluation at a concrete state. -/

namespace Sys2Proof.Machine
open Sys2Proof

/-! ### The end of a window's command while a kept `CONFIRM` becomes due (R143, R246, R250, R253) -/

/-- `sumWindow` alone, `ARMED` without an `EXPECT`. -/
def arriveWithConfirmDue : State := windowsWithConfirmDue [sumWindow]

/-- A `WIN_ARRIVE` at `sumWindow` in its generation. -/
def arriveAtSumWindow : Req := { readLine5 with addr := 0x400000, size := 6, dat := [{ sector := 0, data := 7 }] }

theorem arriveWithConfirmDue_admits : arriveWithConfirmDue.AdmitsWin .winArrive arriveAtSumWindow 0 :=
  { windowsWithConfirmDue_atRest (ws := [sumWindow]) (by decide) with
    whole := by decide +kernel, flips := rfl, clean := by decide
    header := by decide +kernel, home := by decide +kernel, scratch := by decide +kernel
    allowed := by decide +kernel
    window := by decide +kernel, here := rfl, settled := rfl, used := by decide, fields := by decide +kernel }

/-- R143: the end of the arrival performs the `CONFIRM`, which enters line 5 in the directory. -/
theorem winArrive_confirms :
    nextView (fun t => t.dir.map (·.line)) (exec (.winArrive arriveAtSumWindow) arriveWithConfirmDue) = some [5] := by
  decide +kernel

/-- The collect of `sumWindow` without output writes that a request of port 0 asked for. -/
def collectOfSumWindow : ColArgs := { d0 := 0, d1 := 0, dst := 0, noOut := true, gen := 7, req := some (0, 2, none) }

/-- `sumWindow` while that collect has only its completion left. -/
def collectingWindow : Window := { sumWindow with st := .collected, col := some collectOfSumWindow }

/-- R143: so does the completion of a collect. -/
theorem collectComplete_confirms :
    nextView (fun t => t.dir.map (·.line)) (exec (.collectComplete 0) (windowsWithConfirmDue [collectingWindow])) = some [5] := by
  decide +kernel

/-- A window whose placing pass for the fields of `sumWindow` has placed its lines, as mailbox 0 asked. -/
def armingWindow : Window := { arming := some (sumWindow.args 0), armMb := some 0 }

/-- Mailbox 0 while its `ARM_WINDOW` runs. -/
def armingMailbox : Mailbox := { st := 1, opcode := 6 }

def armingWithConfirmDue : State := { windowsWithConfirmDue [armingWindow] with mbs := [armingMailbox] }

theorem armingWithConfirmDue_atRest : armingWithConfirmDue.AtRest :=
  { windowsWithConfirmDue_atRest (ws := [armingWindow]) (by decide) with }

/-- R143: and the end of a placing pass. -/
theorem armComplete_confirms :
    nextView (fun t => t.dir.map (·.line)) (exec (.armComplete 0) armingWithConfirmDue) = some [5] := by
  decide +kernel

end Sys2Proof.Machine

open Sys2Proof Sys2Proof.Machine

/-- Refutes O12: it says that a `WIN_ARRIVE` leaves the directory as it was, and has no premise on provisional entries. The end of the
request settles them (R143): one whose data have left and that holds its `CONFIRM` is confirmed there, and its line is entered in the
directory (`arriveWithConfirmDue`). -/
theorem not_winArriveCounts : ¬ Obligations.WinArriveCounts := by
  intro h
  obtain ⟨t, he, -, -, -, -, -, -, -, -, hdir, -⟩ := h arriveWithConfirmDue arriveAtSumWindow 0 arriveWithConfirmDue_admits rfl
    (by decide) rfl (by decide +kernel)
  have hlines : t.dir.map (·.line) = [5] := view_of_next winArrive_confirms he
  rw [hdir] at hlines
  exact absurd hlines (by decide)

/-- Refutes O14: for the same reason the completion of a collect does not always leave the directory as it was. -/
theorem not_collectsRun : ¬ Obligations.CollectsRun := by
  intro h
  obtain ⟨t, he, -, -, -, -, -, hdir⟩ := h.2.2 (windowsWithConfirmDue [collectingWindow]) 0 collectOfSumWindow
    (windowsWithConfirmDue_atRest (by decide)) (by decide) (by decide +kernel) rfl
  have hlines : t.dir.map (·.line) = [5] := view_of_next collectComplete_confirms he
  rw [hdir] at hlines
  exact absurd hlines (by decide)

/-- Refutes O16: its second clause says that the end of a placing pass leaves the directory as it was, without the premise of the first
that there is no provisional entry; a kept `CONFIRM` is performed there too (`armingWithConfirmDue`). -/
theorem not_windowsArmAndRelease : ¬ Obligations.WindowsArmAndRelease := by
  intro h
  obtain ⟨-, harmed⟩ := h.2 armingWithConfirmDue 0 armingWithConfirmDue_atRest (by decide)
  obtain ⟨t, he, -, -, -, -, -, -, -, -, -, -, -, -, hdir⟩ := harmed (sumWindow.args 0) armingMailbox rfl rfl
  have hlines : t.dir.map (·.line) = [5] := view_of_next armComplete_confirms he
  rw [hdir] at hlines
  exact absurd hlines (by decide)

end

section

/-! One `ACLK` on an empty queue, and the statement O2 (sitting 9). -/

namespace Sys2Proof.Machine
open Sys2Proof

/-! ### What counting changes (R431, R449, R476) -/

/-- Only the counters, the activity and the debug signals differ, and where a counter had a parity error (R449), the log. -/
structure State.Counted (s t : State) : Prop where
  shape : ∃ ctr acts sig elog bad, t = { s with ctr := ctr, acts := acts, sig := sig, elog := elog, bad := bad }
  calm : s.bad = [] → t.bad = [] ∧ t.elog = s.elog

theorem State.Counted.refl (s : State) : s.Counted s := ⟨⟨_, _, _, _, _, rfl⟩, fun hb => ⟨hb, rfl⟩⟩

theorem State.Counted.trans {s t u : State} (h : s.Counted t) (k : t.Counted u) : s.Counted u where
  shape := by
    obtain ⟨_, _, _, _, _, rfl⟩ := h.shape
    obtain ⟨_, _, _, _, _, rfl⟩ := k.shape
    exact ⟨_, _, _, _, _, rfl⟩
  calm := fun hb => ⟨(k.calm (h.calm hb).1).1, (k.calm (h.calm hb).1).2.trans (h.calm hb).2⟩

theorem foldl_counted {α} (f : State → α → State) (hf : ∀ (s : State) (a : α), s.Counted (f s a)) (l : List α) :
    ∀ s : State, s.Counted (l.foldl f s) := by
  induction l with
  | nil => exact fun s => .refl s
  | cons a l ih => exact fun s => (hf s a).trans (ih _)

theorem State.counted_act (i n : Nat) (s : State) : s.Counted (s.act i n) := ⟨⟨_, _, _, _, _, rfl⟩, fun hb => ⟨hb, rfl⟩⟩

theorem State.counted_ctr (s : State) (ctr : List (BitVec 48)) (sig : List Sig) : s.Counted { s with ctr := ctr, sig := sig } :=
  ⟨⟨_, _, _, _, _, rfl⟩, fun hb => ⟨hb, rfl⟩⟩

theorem State.counted_ctrParity (i : Nat) (s : State) : s.Counted (s.ctrParity i) := by
  unfold State.ctrParity
  split
  · next hmem => exact ⟨⟨_, _, _, _, _, rfl⟩, fun hb => by simp [hb] at hmem⟩
  · exact .refl s

theorem State.counted_countN (e : Nat) (p : Option Nat) (n : Nat) (s : State) : s.Counted (s.countN e p n) := by
  unfold State.countN
  dsimp only
  refine State.Counted.trans (t := if s.bad.isEmpty then s else _) ?_ (State.counted_ctr _ _ _)
  split
  · exact .refl s
  · refine foldl_counted _ (fun t i => ?_) _ s
    split
    · exact t.counted_ctrParity i
    · exact .refl t

/-- A count that a condition decides. -/
theorem State.Counted.countIf {s t : State} (h : s.Counted t) (c : Prop) [Decidable c] (e : Nat) (p : Option Nat) (n : Nat) :
    s.Counted (if c then t.countN e p n else t) := by
  split
  · exact h.trans (t.counted_countN e p n)
  · exact h

theorem State.counted_countModes (n : Nat) (s : State) : s.Counted (s.countModes n) := by
  refine foldl_counted _ (fun t x => ?_) _ s
  split
  · exact .refl t
  · exact (t.counted_ctrParity x.2).trans (State.counted_ctr _ _ _)

theorem State.counted_countLag (s : State) : s.Counted s.countLag :=
  foldl_counted _ (fun t _ => (State.Counted.refl t).countIf _ _ _ 1) _ s

/-! ### The parts of an `ACLK` (R281, R415, R419, R422, R435) -/

/-- R281: `SINCE` of every channel of the cue unit advances and saturates. -/
def CueUnit.advance (u : CueUnit) : CueUnit :=
  { u with chans := u.chans.map fun x => { x with since := min (x.since + 1) (2 ^ 28 - 1) } }

/-- R281, R282: `SINCE` advances in `SERVICE` and `SLEEP`, and `CUE_LAG` is counted there. -/
theorem State.lagTick_counted (s : State) :
    State.Counted { s with cue := if s.power.state = .service ∨ s.power.state = .sleep then s.cue.advance else s.cue } s.lagTick := by
  unfold State.lagTick State.lagRuns
  by_cases hrun : s.power.state = .service ∨ s.power.state = .sleep
  · rw [if_pos hrun, if_pos (by simpa using hrun)]
    exact State.counted_countLag _
  · rw [if_neg hrun, if_neg (by simpa using hrun)]
    exact .refl s

/-- R422: the idle count advances in `SERVICE`. -/
theorem State.idleTick_eq (s : State) :
    s.idleTick = { s with power := { s.power with idle := if s.power.state = .service then s.power.idle + 1 else s.power.idle } } := by
  unfold State.idleTick
  by_cases hserv : s.power.state = .service
  · rw [if_pos hserv, if_pos (by simpa using hserv)]
  · rw [if_neg hserv, if_neg (by simpa using hserv)]

/-- R435: the place in the group of 8 FCLK after one `ACLK`. -/
def State.fclkSlotNext (s : State) : Nat :=
  if s.fclkRuns then (s.power.fclkSlot + (s.power.fclkPart + opMHz s.power.op) / 50) % 8 else s.power.fclkSlot

theorem State.counted_fclk (n skips : Nat) (s : State) :
    s.Counted ((((s.act 23 skips).act 22 (n - skips)).countN Ev.fclkCycle none n).countN Ev.issueSkip none skips) :=
  ((s.counted_act 23 skips).trans (State.counted_act 22 _ _)).trans
    ((State.counted_countN Ev.fclkCycle none n _).trans (State.counted_countN Ev.issueSkip none skips _))

/-- R434, R435: the FCLK of one `ACLK` move the place in the group of 8, may bring a new duty into effect, and are counted. -/
theorem State.fclkTick_counted (s : State) :
    ∃ part duty, State.Counted
      { s with power := { s.power with fclkPart := part, fclkSlot := s.fclkSlotNext, dutyNow := duty } } s.fclkTick := by
  unfold State.fclkTick State.fclkSlotNext
  by_cases hrun : s.fclkRuns = true
  · rw [if_pos hrun, if_neg (by simp [hrun])]
    refine ⟨(s.power.fclkPart + opMHz s.power.op) % 50, if (8 - s.power.fclkSlot) % 8 < (s.power.fclkPart + opMHz s.power.op) / 50
      then s.power.duty else s.power.dutyNow, .trans ?_ (State.counted_countModes _ _)⟩
    exact (State.counted_fclk _ _ _).countIf _ _ _ _
  · rw [if_neg hrun, if_pos (by simpa using hrun)]
    exact ⟨_, _, .refl s⟩

/-- R415: with no record waiting for the span the twin's sleep is sampled and no frame leaves. -/
theorem State.twinTick_calm {s : State} (hw : s.span.waitTx = []) : ∃ span n, s.twinTick = { s with span := span, fresh := n } := by
  unfold State.twinTick
  split
  · dsimp only
    rw [State.spanFlush_calm (by exact hw), ite_self]
    exact ⟨_, _, rfl⟩
  · exact ⟨_, _, rfl⟩

/-- R417, R419: an `ACLK` may begin the change of operating point that has waited, which leaves the rest of the power unit as it was. -/
theorem State.opTick_power (s : State) :
    ∃ relock next age late, s.opTick =
      { s with power := { s.power with relock := relock, nextOp := next, opAge := age, opLate := late } } := by
  unfold State.opTick
  dsimp only
  split
  · unfold State.opDue
    dsimp only
    split <;> exact ⟨_, _, _, _, rfl⟩
  · exact ⟨_, _, _, _, rfl⟩

/-- One `ACLK` with no record waiting for the span: what it does to the cue unit, the power unit and the log, and what it only ages. -/
theorem State.tick_eq {s : State} (hw : s.span.waitTx = []) :
    ∃ ctr acts sig elog bad span n p, s.tick = { s.ageAll with
        cue := if s.power.state = .service ∨ s.power.state = .sleep then s.cue.advance else s.cue
        power := p, span := span, fresh := n, ctr := ctr, acts := acts, sig := sig, elog := elog, bad := bad } ∧
      (s.bad = [] → bad = [] ∧ elog = s.elog) ∧
      p.idle = (if s.power.state = .service then s.power.idle + 1 else s.power.idle) ∧ p.fclkSlot = s.fclkSlotNext ∧
      p.state = s.power.state ∧ p.duty = s.power.duty ∧ p.op = s.power.op := by
  obtain ⟨⟨ctr, acts, sig, elog, bad, hlag⟩, hcalm⟩ := s.lagTick_counted
  unfold State.tick
  rw [hlag] at hcalm ⊢
  rw [State.idleTick_eq]
  generalize hx : State.mk .. = x
  obtain ⟨part, duty, ⟨ctr', acts', sig', elog', bad', hfclk⟩, hcalm'⟩ := x.fclkTick_counted
  rw [hfclk] at hcalm' ⊢
  subst hx
  generalize hy : State.mk .. = y
  obtain ⟨span, n, htwin⟩ := State.twinTick_calm (s := y) (by rw [← hy]; exact hw)
  rw [htwin]
  obtain ⟨relock, next, age, late, hop⟩ := State.opTick_power { y with span := span, fresh := n }
  rw [hop, ← hy]
  exact ⟨ctr', acts', sig', elog', bad', span, n, _, rfl,
    fun hb => ⟨(hcalm' (hcalm hb).1).1, (hcalm' (hcalm hb).1).2.trans (hcalm hb).2⟩, rfl, rfl, rfl, rfl, rfl⟩

/-- A window for which no command waits ages in its collect alone. -/
theorem agedWins_of_noneAfter {l : List Window} (h : ∀ w ∈ l, w.after = []) :
    (l.map fun (w : Window) =>
      { w with after := w.after.map WinOp.older, col := w.col.map fun (c : ColArgs) => { c with age := c.age + 1 } }) =
      l.map fun (w : Window) => { w with col := w.col.map fun (c : ColArgs) => { c with age := c.age + 1 } } :=
  List.map_congr_left fun w hw => by rw [h w hw]; rfl

end Sys2Proof.Machine

open Sys2Proof Sys2Proof.Machine

/-- Settles O2: `State.tick_eq` says what the `ACLK` changes, and the end of the step counts edges only. -/
theorem emptyQueueIsOneTick : Obligations.EmptyQueueIsOneTick := by
  intro s hq hspan hafter
  obtain ⟨ctr, acts, sig, elog, bad, span, n, p, htick, hcalm, hidle, hslot, hstate, hduty, hop⟩ := State.tick_eq (s := s.fresh0) hspan
  have hstep : step s = .next s.fresh0.tick.settle.edges := by unfold step; rw [hq]; rfl
  rw [htick] at hstep
  refine ⟨_, hstep, ?_⟩
  simp only [State.edges_pending, State.edges_out, State.edges_acks, State.edges_cue, State.edges_power, State.edges_waiting,
    State.edges_txns, State.edges_prov, State.edges_arr, State.edges_dir, State.edges_wbb, State.edges_wins, State.edges_cfg,
    State.edges_regs, State.edges_pws, State.edges_hist, State.edges_memOut, State.edges_fab]
  exact ⟨hq, rfl, rfl, rfl, hidle, hslot, hstate, hduty, hop, rfl, rfl, rfl, rfl, rfl, rfl, agedWins_of_noneAfter hafter, rfl, rfl, rfl,
    rfl, rfl, rfl, fun hb => (State.edges_elog_calm _ (hcalm hb).1).trans (hcalm hb).2⟩

end

section

/-! Cue channels, action slots and beats: the statements O22, O23 and O24 (sitting 9). -/

namespace Sys2Proof.Machine
open Sys2Proof

/-! ### What a cue operation leaves alone -/

/-- Only the cue unit, the power unit within its state, the meters, and what the end of a meaning settles differ. -/
structure State.CueOnly (s t : State) : Prop where
  shape : ∃ cue power lens hist fresh ctr acts sig,
    t = { s with cue := cue, power := power, lens := lens, hist := hist, fresh := fresh, ctr := ctr, acts := acts, sig := sig }
  state : t.power.state = s.power.state

theorem State.CueOnly.refl (s : State) : s.CueOnly s := ⟨⟨_, _, _, _, _, _, _, _, rfl⟩, rfl⟩

theorem State.CueOnly.trans {s t u : State} (h : s.CueOnly t) (k : t.CueOnly u) : s.CueOnly u where
  shape := by
    obtain ⟨_, _, _, _, _, _, _, _, rfl⟩ := h.shape
    obtain ⟨_, _, _, _, _, _, _, _, rfl⟩ := k.shape
    exact ⟨_, _, _, _, _, _, _, _, rfl⟩
  state := k.state.trans h.state

section

variable {s t : State} (h : s.CueOnly t)

include h

theorem State.CueOnly.bad : t.bad = s.bad := by obtain ⟨_, _, _, _, _, _, _, _, rfl⟩ := h.shape; rfl
theorem State.CueOnly.arr : t.arr = s.arr := by obtain ⟨_, _, _, _, _, _, _, _, rfl⟩ := h.shape; rfl
theorem State.CueOnly.dir : t.dir = s.dir := by obtain ⟨_, _, _, _, _, _, _, _, rfl⟩ := h.shape; rfl
theorem State.CueOnly.wins : t.wins = s.wins := by obtain ⟨_, _, _, _, _, _, _, _, rfl⟩ := h.shape; rfl
theorem State.CueOnly.cfg : t.cfg = s.cfg := by obtain ⟨_, _, _, _, _, _, _, _, rfl⟩ := h.shape; rfl
theorem State.CueOnly.regs : t.regs = s.regs := by obtain ⟨_, _, _, _, _, _, _, _, rfl⟩ := h.shape; rfl
theorem State.CueOnly.elog : t.elog = s.elog := by obtain ⟨_, _, _, _, _, _, _, _, rfl⟩ := h.shape; rfl

end

theorem State.cueOnly_cue (s : State) (u : CueUnit) : s.CueOnly { s with cue := u } := ⟨⟨_, _, _, _, _, _, _, _, rfl⟩, rfl⟩

theorem State.cueOnly_settle (s : State) : s.CueOnly s.settle := ⟨⟨_, _, _, _, _, _, _, _, rfl⟩, rfl⟩

theorem State.Counted.cue {s t : State} (h : s.Counted t) : t.cue = s.cue := by obtain ⟨_, _, _, _, _, rfl⟩ := h.shape; rfl

theorem State.Counted.cueOnly {s t : State} (h : s.Counted t) (hb : s.bad = []) : s.CueOnly t := by
  obtain ⟨⟨_, _, _, elog, bad, rfl⟩, hcalm⟩ := h
  obtain ⟨hbad, helog⟩ : bad = [] ∧ elog = s.elog := hcalm hb
  rw [← hb] at hbad
  subst hbad helog
  exact ⟨⟨_, _, _, _, _, _, _, _, rfl⟩, rfl⟩

theorem State.cueOnly_measure (src : Nat) (p : Option Nat) {s : State} (hb : s.bad = []) :
    s.CueOnly (s.measure src p) ∧ (s.measure src p).cue = s.cue := by
  obtain ⟨_, _, hm⟩ := s.measure_calm src p hb
  rw [hm]
  exact ⟨⟨⟨_, _, _, _, _, _, _, _, rfl⟩, rfl⟩, rfl⟩

theorem State.cueOnly_sign (src mask val : Nat) (p : Option Nat) (s : State) : s.CueOnly (s.sign src mask val p) :=
  ⟨⟨_, _, _, _, _, _, _, _, rfl⟩, rfl⟩

theorem State.cueOnly_notIdle (s : State) : s.CueOnly s.notIdle := ⟨⟨_, _, _, _, _, _, _, _, rfl⟩, rfl⟩

/-- R427: a wake event writes the power unit. -/
theorem State.cueOnly_wakeUp (s : State) : s.CueOnly s.wakeUp ∧ s.wakeUp.cue = s.cue := by
  unfold State.wakeUp
  dsimp only
  repeat' split
  all_goals exact ⟨⟨⟨_, _, _, _, _, _, _, _, rfl⟩, rfl⟩, rfl⟩

/-! ### One channel (R261, R281) -/

theorem State.chan_setChan_same {s : State} {c : Nat} (hc : c < s.cue.chans.length) (f : Chan → Chan) :
    (s.setChan c f).chan c = f (s.chan c) := by
  simp [State.chan, State.setChan, List.getD_eq_getElem?_getD, List.getElem?_modify_eq, List.getElem?_eq_getElem hc]

theorem State.chan_setChan_ne {c k : Nat} (h : k ≠ c) (f : Chan → Chan) (s : State) : (s.setChan c f).chan k = s.chan k := by
  simp only [State.chan, State.setChan, List.getD_eq_getElem?_getD, List.getElem?_modify_ne _ _ h.symm]

/-- The channels lie in the cue unit. -/
theorem State.chan_of_chans {s t : State} (h : t.cue.chans = s.cue.chans) (k : Nat) : t.chan k = s.chan k :=
  congrArg (fun l : List Chan => l.getD k {}) h

/-- What an update of a channel keeps in it, it keeps in all channels. -/
theorem State.chan_setChan_keeps {α : Type} (g : Chan → α) {f : Chan → Chan} (hg : ∀ x, g (f x) = g x) (c k : Nat) (s : State) :
    g ((s.setChan c f).chan k) = g (s.chan k) := by
  by_cases hk : k = c
  · subst hk
    by_cases hc : k < s.cue.chans.length
    · rw [State.chan_setChan_same hc, hg]
    · rw [State.chan_of_chans (s := s) (List.modify_eq_self (Nat.le_of_not_lt hc))]
  · rw [State.chan_setChan_ne hk]

/-- Of the cue unit only channel `c` differs, which `f` has updated, and the counts that came back (R483). -/
structure State.ChanOnly (s : State) (c : Nat) (f : Chan → Chan) (t : State) : Prop where
  only : s.CueOnly t
  chans : t.cue.chans = s.cue.chans.modify c f
  slots : t.cue.slots = s.cue.slots
  due : t.cue.due = s.cue.due

theorem State.chanOnly_setChan (c : Nat) (f : Chan → Chan) (s : State) : s.ChanOnly c f (s.setChan c f) :=
  ⟨s.cueOnly_cue _, rfl, rfl, rfl⟩

theorem State.ChanOnly.of_cue {s t u : State} {c : Nat} {f : Chan → Chan} (h : s.ChanOnly c f t) (k : t.CueOnly u) (hc : u.cue = t.cue) :
    s.ChanOnly c f u where
  only := h.only.trans k
  chans := (congrArg CueUnit.chans hc).trans h.chans
  slots := (congrArg CueUnit.slots hc).trans h.slots
  due := (congrArg CueUnit.due hc).trans h.due

theorem State.chanOnly_refl (c : Nat) (s : State) : s.ChanOnly c id s := ⟨.refl s, (List.modify_id ..).symm, rfl, rfl⟩

theorem State.ChanOnly.trans {s t u : State} {c : Nat} {f g : Chan → Chan} (h : s.ChanOnly c f t) (k : t.ChanOnly c g u) :
    s.ChanOnly c (g ∘ f) u where
  only := h.only.trans k.only
  chans := by rw [k.chans, h.chans, List.modify_modify_eq]
  slots := k.slots.trans h.slots
  due := k.due.trans h.due

section

variable {s t : State} {c : Nat} {f : Chan → Chan} (h : s.ChanOnly c f t)

include h

theorem State.ChanOnly.chan (hc : c < s.cue.chans.length) : t.chan c = f (s.chan c) :=
  (State.chan_of_chans (s := s.setChan c f) h.chans c).trans (State.chan_setChan_same hc f)

theorem State.ChanOnly.others {k : Nat} (hk : k ≠ c) : t.chan k = s.chan k :=
  (State.chan_of_chans (s := s.setChan c f) h.chans k).trans (State.chan_setChan_ne hk f s)

theorem State.ChanOnly.slot (k : Nat) : t.slot k = s.slot k := congrArg (fun l : List ActSlot => l.getD k {}) h.slots

end

/-! ### Slots that become `DUE` (R274, R275) -/

/-- R274: an armed slot that becomes `DUE`. -/
def ActSlot.fired (count : BitVec 32) (stalled : Bool) (a : ActSlot) : ActSlot := { a with st := .due, fire := count, stalled := stalled }

theorem State.armedSlots_congr {s t : State} (h : t.cue.slots = s.cue.slots) (c : Nat) (p : ActSlot → Bool) :
    t.armedSlots c p = s.armedSlots c p := by
  simp only [State.armedSlots, State.slot, h]

theorem State.armedSlots_fresh0 (s : State) (c : Nat) (p : ActSlot → Bool) : s.fresh0.armedSlots c p = s.armedSlots c p :=
  State.armedSlots_congr rfl c p

/-- R272: there are 512 slots. -/
theorem State.lt_of_mem_armedSlots {s : State} {c i : Nat} {p : ActSlot → Bool} (h : i ∈ s.armedSlots c p) : i < 512 :=
  List.mem_range.1 (List.mem_filter.1 h).1

/-- Updates of slots write the slots. -/
theorem State.setSlots_shape (f : ActSlot → ActSlot) (is : List Nat) :
    ∀ s : State, ∃ l, is.foldl (fun t i => t.setSlot i f) s = { s with cue := { s.cue with slots := l } } := by
  induction is with
  | nil => exact fun s => ⟨s.cue.slots, rfl⟩
  | cons i is ih => exact fun s => (ih (s.setSlot i f)).imp fun _ hl => hl

/-- An update that gives the same when it is made twice, made to some slots. -/
theorem State.slot_setSlots {f : ActSlot → ActSlot} (hf : ∀ a, f (f a) = f a) (k : Nat) (is : List Nat) :
    ∀ s : State, (∀ i ∈ is, i < s.cue.slots.length) →
      (is.foldl (fun t i => t.setSlot i f) s).slot k = if k ∈ is then f (s.slot k) else s.slot k := by
  induction is with
  | nil => exact fun s _ => by simp
  | cons i is ih =>
    intro s hlen
    rw [List.foldl_cons, ih (s.setSlot i f) fun j hj => by
      rw [State.setSlot_slots_length]
      exact hlen j (List.mem_cons_of_mem _ hj)]
    by_cases hk : k = i
    · subst hk
      simp [State.slot_setSlot k k f s (hlen k List.mem_cons_self), hf]
    · simp [State.slot_setSlot_ne hk, hk]

/-- The slots `is` have become `DUE` with a count, and go behind the `DUE` queue. -/
structure State.Fires (s : State) (is : List Nat) (count : BitVec 32) (stalled : Bool) (t : State) : Prop where
  only : s.CueOnly t
  slot : ∀ k, t.slot k = if k ∈ is then (s.slot k).fired count stalled else s.slot k
  due : t.cue.due = s.cue.due ++ is
  chans : t.cue.chans = s.cue.chans

theorem State.fires_none (count : BitVec 32) (stalled : Bool) (s : State) : s.Fires [] count stalled s where
  only := .refl s
  slot := fun k => by simp
  due := by simp
  chans := rfl

theorem State.Fires.of_cue {s t u : State} {is : List Nat} {count : BitVec 32} {stalled : Bool} (h : s.Fires is count stalled t)
    (k : t.CueOnly u) (hc : u.cue = t.cue) : s.Fires is count stalled u where
  only := h.only.trans k
  slot := fun i => (State.slot_of_cue hc i).trans (h.slot i)
  due := (congrArg CueUnit.due hc).trans h.due
  chans := (congrArg CueUnit.chans hc).trans h.chans

/-- R274, R275, R448: with no parity error slots of the slice become `DUE`. -/
theorem State.fires_makeDue {s : State} (hb : s.bad = []) {is : List Nat} (hlen : ∀ i ∈ is, i < s.cue.slots.length)
    (count : BitVec 32) (stalled : Bool) : s.Fires is count stalled (s.makeDue is count stalled) := by
  have hread : is.foldl (fun (t : State) i => t.entryRead (.slot i) 6 i) s = s :=
    foldl_id _ _ s fun i _ => by simp [State.entryRead, hb]
  obtain ⟨l, hl⟩ := State.setSlots_shape (ActSlot.fired count stalled) is s
  have hslot := fun k => State.slot_setSlots (f := ActSlot.fired count stalled) (fun _ => rfl) k is s hlen
  have heq : s.makeDue is count stalled = { s with cue := { s.cue with slots := l, due := s.cue.due ++ is } } := by
    unfold State.makeDue
    rw [hread]
    exact congrArg (fun t : State => { t with cue := { t.cue with due := t.cue.due ++ is } }) hl
  rw [hl] at hslot
  rw [heq]
  exact ⟨s.cueOnly_cue _, hslot, rfl, rfl⟩

section

variable {s x t : State} {c : Nat} {f : Chan → Chan} {is : List Nat} {count : BitVec 32} {stalled : Bool} (h : s.ChanOnly c f x)
  (k : x.Fires is count stalled t)

include h k

theorem State.Fires.chan_after (hc : c < s.cue.chans.length) : t.chan c = f (s.chan c) :=
  (State.chan_of_chans k.chans c).trans (h.chan hc)

theorem State.Fires.others_after {j : Nat} (hj : j ≠ c) : t.chan j = s.chan j := (State.chan_of_chans k.chans j).trans (h.others hj)

theorem State.Fires.slot_after (j : Nat) : t.slot j = if j ∈ is then (s.slot j).fired count stalled else s.slot j := by
  rw [k.slot j, h.slot j]

end

/-! ### An applied beat (R260, R261, R274, R281) -/

/-- R261, R267: the channel takes a count. -/
def Chan.takes (v : BitVec 32) : Chan → Chan := fun x => { x with applied := v, issued := if isAfter v x.issued then v else x.issued }

/-- R281: a slot of the channel has fired; `SINCE` restarts, and what it reached is the pace. -/
def Chan.fires (x : Chan) : Chan := { x.restart with pace := x.since, stall := false }

/-- R274, R281: the armed slots of a channel that a count reaches fire. -/
def State.fireReached (c : Nat) (v : BitVec 32) (s : State) : State :=
  if s.armedSlots c (fun a => atOrAfter v a.target) = [] then s
  else ((s.setChan c Chan.fires).makeDue (s.armedSlots c fun a => atOrAfter v a.target) v false).notIdle

/-- R483: the beats of the channel that a count overtakes are measured no more. -/
def State.overtake (c : Nat) (v : BitVec 32) (s : State) : State :=
  { s with cue := { s.cue with sent := s.cue.sent.filter fun (x : Nat × BitVec 32) => x.1 != c || isAfter x.2 v } }

/-- R261, R483: a count becomes `APPLIED`, and is measured where its beat left this slice. -/
def State.takeCount (c : Nat) (v : BitVec 32) (s : State) : State :=
  State.sign 0x40 (2 ^ c) (2 ^ c) none (State.setChan c (Chan.takes v)
    (if s.cue.sent.contains (c, v) then (s.overtake c v).measure 10 (some (s.chan c).cfg.owner) else s.overtake c v))

/-- R261: a count that is after `APPLIED` becomes it, and the armed slots that it reaches fire. -/
theorem State.applyCount_after {s : State} {c : Nat} {v : BitVec 32} (hafter : isAfter v (s.chan c).applied = true) :
    s.applyCount c v = (s.takeCount c v).fireReached c v := by
  have hafter' : isAfter v ((s.overtake c v).chan c).applied = true := hafter
  unfold State.applyCount
  dsimp only
  change (if !isAfter v ((s.overtake c v).chan c).applied then _ else _) = _
  rw [hafter', if_neg (by decide)]
  split
  · next hnone => exact (if_pos (c := (s.takeCount c v).armedSlots c _ = []) hnone).symm
  · next hsome => exact (if_neg (c := (s.takeCount c v).armedSlots c _ = []) hsome).symm

theorem State.ChanOnly.after_overtake {s t : State} {c : Nat} {v : BitVec 32} {f : Chan → Chan} (h : (s.overtake c v).ChanOnly c f t) :
    s.ChanOnly c f t := ⟨.trans (s.cueOnly_cue _) h.only, h.chans, h.slots, h.due⟩

theorem State.chanOnly_takeCount {s : State} (hb : s.bad = []) (c : Nat) (v : BitVec 32) :
    s.ChanOnly c (Chan.takes v) (s.takeCount c v) := by
  have hx : ∀ x, x = (if s.cue.sent.contains (c, v) then (s.overtake c v).measure 10 (some (s.chan c).cfg.owner)
      else s.overtake c v) → (s.overtake c v).CueOnly x ∧ x.cue = (s.overtake c v).cue := by
    rintro x rfl
    split
    · exact State.cueOnly_measure 10 _ hb
    · exact ⟨.refl _, rfl⟩
  unfold State.takeCount
  generalize (if s.cue.sent.contains (c, v) then _ else s.overtake c v) = x at hx ⊢
  obtain ⟨honly, hcue⟩ := hx x rfl
  have htakes : (s.overtake c v).ChanOnly c (Chan.takes v) (x.setChan c (Chan.takes v)) :=
    ((State.chanOnly_refl c _).of_cue honly hcue).trans (State.chanOnly_setChan c (Chan.takes v) x)
  exact (htakes.of_cue (State.cueOnly_sign _ _ _ _ _) rfl).after_overtake

/-- R274, R281: the slots that fire restart `SINCE` of their channel. -/
theorem State.fireReached_fires {s : State} (c : Nat) (v : BitVec 32) (hb : s.bad = []) (hlen : s.cue.slots.length = 512) :
    ∃ x f, s.ChanOnly c f x ∧ (∀ y, (f y).applied = y.applied) ∧
      (s.armedSlots c (fun a => atOrAfter v a.target) ≠ [] → ∀ y, (f y).since = 0 ∧ (f y).pace = y.since) ∧
      x.Fires (s.armedSlots c fun a => atOrAfter v a.target) v false (s.fireReached c v) := by
  unfold State.fireReached
  split
  · next hnone =>
    rw [hnone]
    exact ⟨s, id, s.chanOnly_refl c, fun _ => rfl, fun h => absurd rfl h, s.fires_none v false⟩
  · refine ⟨_, _, s.chanOnly_setChan c Chan.fires, fun _ => rfl, fun _ _ => ⟨rfl, rfl⟩, ?_⟩
    exact (State.fires_makeDue (s := s.setChan c Chan.fires) hb (fun i hi => hlen.symm ▸ State.lt_of_mem_armedSlots hi) v false).of_cue
      (State.cueOnly_notIdle _) rfl

/-- R36, R260: at rest a beat for an enabled channel of its owner is applied; slots that fire may wake the slice. -/
theorem State.AtRest.exec_cueBeat {s : State} (h : s.AtRest) {part c : Nat} (hok : s.beatOk part c = true) (v : BitVec 32)
    (honly : s.fresh0.CueOnly (s.fresh0.applyCount c v)) :
    ∃ t, exec (.cueBeat part c v 0) s = .next t ∧ (s.fresh0.applyCount c v).CueOnly t ∧ t.cue = (s.fresh0.applyCount c v).cue := by
  have hgate : (s.fresh0.gate == .drop) = false := by rw [h.fresh0.gate]; rfl
  have hasleep : s.fresh0.asleep = false := by simp [State.asleep, h.service]
  have hbeat : s.fresh0.beat part c v = if (s.fresh0.applyCount c v).cue.due.length == s.fresh0.cue.due.length
      then s.fresh0.applyCount c v else (s.fresh0.applyCount c v).wakeUp := by
    unfold State.beat
    dsimp only
    rw [State.cfgRead_calm _ s.fresh0 h.inject h.upsets h.bad, ite_self, hasleep]
    simp [h.service, h.clock, show s.fresh0.beatOk part c = true from hok]
  have hexec : exec (.cueBeat part c v 0) s = finish (s.fresh0.beat part c v) := by
    show (if s.fresh0.gate == .drop then _ else _) = _
    rw [hgate]
    rfl
  obtain ⟨hwake, hcue⟩ : (s.fresh0.applyCount c v).CueOnly (s.fresh0.beat part c v) ∧
      (s.fresh0.beat part c v).cue = (s.fresh0.applyCount c v).cue := by
    rw [hbeat]
    split
    · exact ⟨.refl _, rfl⟩
    · exact State.cueOnly_wakeUp _
  rw [hexec, finish_of_service ((hwake.state.trans honly.state).trans h.service)]
  exact ⟨_, rfl, hwake.trans (State.cueOnly_settle _), hcue⟩

/-- R260, R261, R274, R281: a beat that is after `APPLIED` updates its channel, and then fires the slots that it reaches. -/
theorem State.AtRest.cueBeat_fires {s : State} (h : s.AtRest) {part c : Nat} {v : BitVec 32} (hlen : s.cue.slots.length = 512)
    (hok : s.beatOk part c = true) (hafter : isAfter v (s.chan c).applied = true) :
    ∃ t x f, exec (.cueBeat part c v 0) s = .next t ∧ s.fresh0.ChanOnly c f x ∧
      x.Fires (s.armedSlots c fun a => atOrAfter v a.target) v false t ∧ (∀ y, (f y).applied = v) ∧
      (s.armedSlots c (fun a => atOrAfter v a.target) ≠ [] → ∀ y, (f y).since = 0 ∧ (f y).pace = y.since) := by
  have htake := State.chanOnly_takeCount (s := s.fresh0) h.bad c v
  obtain ⟨x, f, hone, happlied, hsince, hfires⟩ := State.fireReached_fires c v (htake.only.bad.trans h.bad)
    ((congrArg List.length htake.slots).trans hlen)
  rw [State.armedSlots_congr htake.slots, State.armedSlots_fresh0] at hsince hfires
  rw [← State.applyCount_after (s := s.fresh0) hafter] at hfires
  have hchan := htake.trans hone
  obtain ⟨t, he, honly, hcue⟩ := h.exec_cueBeat hok v (hchan.only.trans hfires.only)
  exact ⟨t, x, f ∘ Chan.takes v, he, hchan, hfires.of_cue honly hcue, fun y => happlied _, fun hdue y => hsince hdue _⟩

/-! ### Lag and the watchdog (R281 to R283, R285) -/

/-- R281: `SINCE` stands one past `LAG_LIMIT`. -/
def Chan.pastLimit (x : Chan) : Chan := { x with since := x.cfg.lagLimit + 1 }

/-- R281: a limit that can be passed is passed. -/
theorem State.AtRest.exec_cueLagLimit {s : State} (h : s.AtRest) {c : Nat} (hdue : s.lagDue c = true) :
    ∃ t, exec (.cueLagLimit c) s = .next t ∧ s.fresh0.ChanOnly c Chan.pastLimit t := by
  have hcount := State.counted_countLag (s.fresh0.setChan c Chan.pastLimit)
  have honly := hcount.cueOnly h.bad
  refine ⟨(s.fresh0.setChan c Chan.pastLimit).countLag.settle, ?_,
    (State.chanOnly_setChan c _ _).of_cue (honly.trans (State.cueOnly_settle _)) ((State.settle_cue _).trans hcount.cue)⟩
  show (if s.lagDue c then finish (s.fresh0.setChan c Chan.pastLimit).countLag else s.notDue) = _
  rw [if_pos hdue, finish_of_service (honly.state.trans h.service)]

/-- R281: a channel with a limit and an armed slot is `LAGGING` once its limit is passed. -/
theorem State.lagging_pastLimit {s t : State} {c : Nat} (hdue : s.lagDue c = true) (hc : t.chan c = (s.chan c).pastLimit)
    (hslots : t.cue.slots = s.cue.slots) : t.lagging c = true := by
  simp only [State.lagDue, State.anySlot, Bool.and_eq_true] at hdue
  obtain ⟨⟨⟨⟨-, hen⟩, hlimit⟩, -⟩, harmed⟩ := hdue
  have hen' : (t.chan c).cfg.en = true := by rw [hc]; exact hen
  have hlimit' : ((t.chan c).cfg.lagLimit != 0) = true := by rw [hc]; exact hlimit
  have hpast : (t.chan c).cfg.lagLimit < (t.chan c).since := by rw [hc]; exact Nat.lt_succ_self _
  unfold State.lagging
  rw [hslots]
  simp only [Bool.and_eq_true, decide_eq_true_eq]
  exact ⟨⟨⟨hen', hlimit'⟩, hpast⟩, harmed⟩

/-- R283: the watchdog has fired. -/
def Chan.stalls : Chan → Chan := fun x => { x with since := max x.since x.cfg.wdLimit, wdFired := true, stall := true }

/-- R283, R384: the watchdog's record. -/
def State.stallRecord (c : Nat) (s : State) : LogIn :=
  { source := 0x014, part := (s.chan c).cfg.owner, addr := max (s.chan c).since (s.chan c).cfg.wdLimit,
    detail := c + (s.chan c).applied.toNat * 16 }

/-- The slice with `CUE_STALL` and the watchdog's record. -/
def State.stallShown (c : Nat) (s : State) : State := (s.setStatus 8).log (s.stallRecord c)

/-- R285: the slots that a stalled channel fires. -/
def State.stallSlots (c : Nat) (s : State) : List Nat :=
  if (s.chan c).cfg.wdMode = 2 then s.armedSlots c fun a => a.act == 3 else []

/-- R283: what the watchdog of a channel does before slots fire. -/
def State.stalled (c : Nat) (s : State) : State :=
  (((s.setChan c Chan.stalls).count Ev.cueStall (some (s.chan c).cfg.owner)).setStatus 8).log (s.stallRecord c)

theorem State.chanOnly_stalled {s : State} (hb : s.bad = []) (c : Nat) : (s.stallShown c).ChanOnly c Chan.stalls (s.stalled c) := by
  unfold State.stalled State.count
  rw [State.countN_calm _ _ _ (s.setChan c Chan.stalls) hb]
  exact ⟨⟨⟨_, _, _, _, _, _, _, _, rfl⟩, rfl⟩, rfl, rfl, rfl⟩

theorem State.mem_stallSlots {s : State} {c i : Nat} :
    i ∈ s.stallSlots c ↔ (s.chan c).cfg.wdMode = 2 ∧ i ∈ s.armedSlots c fun a => a.act == 3 := by
  unfold State.stallSlots
  split
  · next hmode => exact (and_iff_right hmode).symm
  · next hmode => exact iff_of_false List.not_mem_nil fun h => hmode h.1

theorem State.stallSlots_fresh0 (s : State) (c : Nat) : s.fresh0.stallSlots c = s.stallSlots c := by
  unfold State.stallSlots
  rw [State.armedSlots_fresh0]
  rfl

/-- R370: bit 3 of `STATUS` stands once it is set. -/
theorem cueStall_stands (b : BitVec 4) : (b ||| 8) &&& 8 = 8 := by
  revert b
  decide

/-- R283, R285: in mode 2 the armed `SEAL` slots of a stalled channel fire. -/
theorem State.wdFire_fires {s : State} {c : Nat} (hb : s.bad = []) (hc : c < s.cue.chans.length) (hlen : s.cue.slots.length = 512) :
    (s.stalled c).Fires (s.stallSlots c) (s.chan c).applied true (s.wdFire c) := by
  have hchan := State.chan_setChan_same hc Chan.stalls
  have honly := State.chanOnly_stalled hb c
  have hlen' : (s.stalled c).cue.slots.length = 512 := (congrArg List.length honly.slots).trans hlen
  have hslots : (s.stalled c).armedSlots c (fun a => a.act == 3) = s.armedSlots c fun a => a.act == 3 :=
    State.armedSlots_congr honly.slots c _
  unfold State.wdFire State.stallSlots
  unfold Chan.stalls at hchan
  dsimp only
  rw [hchan]
  change (s.stalled c).Fires _ _ _ (if (s.chan c).cfg.wdMode == 2 then _ else s.stalled c)
  by_cases hmode : (s.chan c).cfg.wdMode = 2
  · rw [if_pos hmode, if_pos (by rw [hmode]; rfl)]
    split
    · next hnone =>
      rw [← hslots, show (s.stalled c).armedSlots c (fun a => a.act == 3) = [] from hnone]
      split
      · exact (State.fires_none _ _ _).of_cue (State.cueOnly_wakeUp _).1 (State.cueOnly_wakeUp _).2
      · exact State.fires_none _ _ _
    · next hsome =>
      refine State.Fires.of_cue ?_ (State.cueOnly_wakeUp _).1 (State.cueOnly_wakeUp _).2
      rw [← hslots]
      exact State.fires_makeDue (honly.only.bad.trans hb)
        (fun i hi => hlen'.symm ▸ State.lt_of_mem_armedSlots hi) _ true
  · rw [if_neg hmode, if_neg (by simpa using hmode)]
    exact State.fires_none _ _ _

/-- R283: a watchdog that can fire fires. -/
theorem State.AtRest.exec_cueWatchdog {s : State} (h : s.AtRest) {c : Nat} (hdue : s.wdDue c = true) (hc : c < s.cue.chans.length)
    (hlen : s.cue.slots.length = 512) :
    ∃ t x, exec (.cueWatchdog c) s = .next t ∧ (s.fresh0.stallShown c).ChanOnly c Chan.stalls x ∧
      x.Fires (s.stallSlots c) (s.chan c).applied true t := by
  have hone := State.chanOnly_stalled (s := s.fresh0) h.bad c
  have hfires := State.wdFire_fires (s := s.fresh0) h.bad hc hlen
  rw [State.stallSlots_fresh0] at hfires
  refine ⟨_, _, ?_, hone, hfires.of_cue (State.cueOnly_settle _) rfl⟩
  show (if s.wdDue c then finish (s.fresh0.wdFire c) else s.notDue) = _
  rw [if_pos hdue, finish_of_service ((hfires.only.state.trans hone.only.state).trans h.service)]

/-! ### Arming and disarming (R273, R274) -/

/-- R272: the slot that a record names. -/
def recSlot (words : List Word) : Nat := bits (words.getD 0 0).toNat 8 0

/-- R274: what that slot holds once the record is armed. -/
def armedRec (words : List Word) : ActSlot := { words := (words ++ List.replicate 8 0).take 8, st := .armed }

theorem getD_recWords (words : List Word) : ((words ++ List.replicate 8 0).take 8).getD 0 0 = words.getD 0 0 := by
  cases words <;> rfl

/-- R274: a record that is armed fires at once when `APPLIED` has reached its target. -/
def ActSlot.orFired (applied : BitVec 32) (a : ActSlot) : ActSlot := if atOrAfter applied a.target then a.fired applied false else a

/-- R274, R281: the record is in its slot, and `SINCE` of a channel without pending slots has restarted. -/
def State.placeRec (words : List Word) (s : State) : State :=
  if !s.anySlot (armedRec words).chan (fun st => st == .armed || st == .due) then
    (s.setSlot (recSlot words) fun _ => armedRec words).setChan (armedRec words).chan Chan.restart
  else s.setSlot (recSlot words) fun _ => armedRec words

theorem State.armRec_eq (words : List Word) (s : State) :
    s.armRec words =
      if atOrAfter ((s.placeRec words).chan (armedRec words).chan).applied (armedRec words).target then
        ((s.placeRec words).makeDue [recSlot words] ((s.placeRec words).chan (armedRec words).chan).applied false).count Ev.armPast
          (some (armedRec words).part)
      else s.placeRec words := by
  unfold State.armRec State.placeRec recSlot armedRec
  dsimp only
  rw [getD_recWords]

/-- Slot `i` holds `a`, and no other slot and no `APPLIED` differs. -/
structure State.Arms (s : State) (i : Nat) (a : ActSlot) (t : State) : Prop where
  only : s.CueOnly t
  slot : t.slot i = a
  others : ∀ k, k ≠ i → t.slot k = s.slot k
  applied : ∀ c, (t.chan c).applied = (s.chan c).applied

theorem State.placeRec_length (words : List Word) (s : State) : (s.placeRec words).cue.slots.length = s.cue.slots.length := by
  unfold State.placeRec
  split <;> exact State.setSlot_slots_length _ _ s

theorem State.arms_placeRec {s : State} {words : List Word} (hi : recSlot words < s.cue.slots.length) :
    s.Arms (recSlot words) (armedRec words) (s.placeRec words) := by
  have hset : s.Arms (recSlot words) (armedRec words) (s.setSlot (recSlot words) fun _ => armedRec words) := {
    only := s.cueOnly_cue _
    slot := (State.slot_setSlot _ _ _ s hi).trans (if_pos rfl)
    others := fun _ hk => State.slot_setSlot_ne hk _ s
    applied := fun _ => rfl }
  unfold State.placeRec
  split
  · exact {
      only := hset.only.trans (State.cueOnly_cue _ _)
      slot := hset.slot
      others := hset.others
      applied := fun c => (State.chan_setChan_keeps Chan.applied (f := Chan.restart) (fun _ => rfl) _ c _).trans (hset.applied c) }
  · exact hset

/-- R274, R280, R281: what arming a checked record does. -/
theorem State.arms_armRec {s : State} {words : List Word} (hb : s.bad = []) (hi : recSlot words < s.cue.slots.length) :
    ∃ t, s.armRec words = t ∧ s.Arms (recSlot words) ((armedRec words).orFired (s.chan (armedRec words).chan).applied) t := by
  have hplace := State.arms_placeRec hi
  have hlen : recSlot words < (s.placeRec words).cue.slots.length := by rwa [State.placeRec_length]
  rw [State.armRec_eq, hplace.applied, ActSlot.orFired]
  generalize s.placeRec words = x at hplace hlen ⊢
  generalize (s.chan (armedRec words).chan).applied = v
  by_cases hpast : atOrAfter v (armedRec words).target = true
  · rw [if_pos hpast, if_pos hpast]
    have hbx : x.bad = [] := hplace.only.bad.trans hb
    have hfires := State.fires_makeDue hbx (is := [recSlot words])
      (fun i h => by rwa [List.mem_singleton.1 h]) v false
    have hcount := State.counted_countN Ev.armPast (some (armedRec words).part) 1 (x.makeDue [recSlot words] v false)
    replace hfires := hfires.of_cue (hcount.cueOnly (hfires.only.bad.trans hbx)) hcount.cue
    refine ⟨_, rfl, hplace.only.trans hfires.only, ?_, fun k hk => ?_, fun c => ?_⟩
    · exact (hfires.slot _).trans ((if_pos (List.mem_singleton.2 rfl)).trans (by rw [hplace.slot]))
    · exact (hfires.slot k).trans ((if_neg (mt List.mem_singleton.1 hk)).trans (hplace.others k hk))
    · exact (congrArg Chan.applied (State.chan_of_chans hfires.chans c)).trans (hplace.applied c)
  · rw [if_neg hpast, if_neg hpast]
    exact ⟨x, rfl, hplace⟩

/-- R388, R391: the arming registers are all that latching a record changes. -/
theorem State.latchArm_shape (win : Option Nat) (words : List Word) (s : State) :
    ∃ regs pws, s.latchArm win words = { s with regs := regs, pws := pws } := by
  cases win <;> exact ⟨_, _, rfl⟩

/-- R387, R388, R391: and all that recording an outcome changes. -/
theorem State.armStat_shape (win : Option Nat) (e : Err) (i : Nat) (disarm : Bool) (s : State) :
    ∃ regs pws, s.armStat win e i disarm = { s with regs := regs, pws := pws } := by
  cases win <;> exact ⟨_, _, rfl⟩

/-- R273, R388: a record that passes its checks on a free slot is armed. -/
theorem State.armSlot_ok {s : State} {src : Csrp} {win : Option Nat} {words : List Word} (hr : s.reaches src win = true)
    (hck : s.cueView.check win words = .ok) (hfree : (s.slot (recSlot words)).st = .free) :
    s.armSlot src win words = (((s.latchArm win words).armRec words).armStat win .ok (recSlot words) false).csrp .ok 0 := by
  obtain ⟨regs, pws, hlatch⟩ := s.latchArm_shape win words
  have hck' : (s.latchArm win words).cueView.check win words = .ok := by rw [hlatch]; exact hck
  have hfree' : ((s.latchArm win words).slot (recSlot words)).st = .free := by rw [hlatch]; exact hfree
  unfold State.armSlot
  rw [hr]
  dsimp only
  rw [hck']
  unfold recSlot at hfree' ⊢
  rw [hfree']
  rfl

/-- R274: a slot that is armed or due is disarmed. -/
theorem State.disarmSlot_ok {s : State} {src : Csrp} {win : Option Nat} {i : Nat} (hb : s.bad = []) (hr : s.reaches src win = true)
    (hin : ∀ p, win = some p → inRange s.cue.ranges p i = true) (hst : (s.slot i).st = .armed ∨ (s.slot i).st = .due) :
    s.disarmSlot src win i = ((s.freeSlot i (some ((s.slot i).outcome 4 false 0))).armStat win .ok i true).csrp .ok 0 := by
  have hread : s.entryRead (.slot i) 6 i = s := by simp [State.entryRead, hb]
  have hfree : ((s.slot i).st == .free) = false := by rcases hst with h | h <;> rw [h] <;> rfl
  have hrun : ((s.slot i).st == .running) = false := by rcases hst with h | h <;> rw [h] <;> rfl
  unfold State.disarmSlot
  rw [hr, hread, ite_self]
  dsimp only
  cases win with
  | none =>
    rw [hfree, hrun]
    rfl
  | some p =>
    simp only [hin p rfl, hfree, hrun, Bool.not_true, Bool.false_eq_true, if_false]
    rfl

theorem State.slot_freed {s : State} {i : Nat} (hi : i < s.cue.slots.length) (o : Option SlotOut) :
    (s.freeSlot i o).slot i = { s.slot i with st := .free, out := o, stalled := false } :=
  (State.slot_setSlot i i _ s hi).trans (if_pos rfl)

theorem State.slot_freed_ne {i k : Nat} (h : k ≠ i) (o : Option SlotOut) (s : State) : (s.freeSlot i o).slot k = s.slot k :=
  State.slot_setSlot_ne h _ s

/-- R274: freeing a slot writes the cue unit, from the cue unit. -/
theorem State.freeSlot_of_cue {s t : State} (h : t.cue = s.cue) (i : Nat) (o : Option SlotOut) :
    t.freeSlot i o = { t with cue := (s.freeSlot i o).cue } := by
  simp only [State.freeSlot, State.setSlot, h]

/-- R422: a slice at rest as a register access that it serves meets it. -/
def State.accessed (s : State) : State := { s.fresh0 with power := { s.power with scrubWake := false, idle := 0 } }

theorem State.AtRest.csrGate_accessed {s : State} (h : s.AtRest) (i : Instr) (act : State → State) :
    s.fresh0.csrGate i act = act s.accessed := h.csrGate i act

/-- R273, R388: at rest a record that passes its checks is armed, and the write is answered with `OK`. -/
theorem State.AtRest.exec_armSlot {s : State} (h : s.AtRest) {src : Csrp} {win : Option Nat} {words : List Word}
    (hr : s.reaches src win = true) (hck : s.cueView.check win words = .ok) (hi : recSlot words < s.cue.slots.length)
    (hfree : (s.slot (recSlot words)).st = .free) :
    ∃ regs pws regs' pws' t, exec (.armSlot src win words) s =
        .next (State.settle { t with regs := regs', pws := pws', out := t.out ++ [.csrp .ok 0] }) ∧
      State.Arms { s.accessed with regs := regs, pws := pws } (recSlot words)
        ((armedRec words).orFired (s.chan (armedRec words).chan).applied) t := by
  obtain ⟨regs, pws, hlatch⟩ := s.accessed.latchArm_shape win words
  obtain ⟨t, ht, harms⟩ := State.arms_armRec (s := { s.accessed with regs := regs, pws := pws }) (words := words) h.bad hi
  obtain ⟨regs', pws', hstat⟩ := t.armStat_shape win .ok (recSlot words) false
  refine ⟨regs, pws, regs', pws', t, ?_, harms⟩
  show finish (s.fresh0.csrGate _ _) = _
  rw [h.csrGate_accessed, State.armSlot_ok (s := s.accessed) hr hck hfree, hlatch, ht, hstat, State.csrp_eq]
  exact finish_of_service (harms.only.state.trans h.service)

/-- R274, R388: at rest a slot that is armed or due is freed with `ABORTED`, and the write is answered with `OK`. -/
theorem State.AtRest.exec_disarmSlot {s : State} (h : s.AtRest) {src : Csrp} {win : Option Nat} {i : Nat}
    (hr : s.reaches src win = true) (hin : ∀ p, win = some p → inRange s.cue.ranges p i = true)
    (hst : (s.slot i).st = .armed ∨ (s.slot i).st = .due) :
    ∃ t, exec (.disarmSlot src win i) s = .next t ∧ t.cue = (s.freeSlot i (some ((s.slot i).outcome 4 false 0))).cue ∧
      t.out = [.csrp .ok 0] ∧ t.arr = s.arr ∧ t.dir = s.dir ∧ t.wins = s.wins ∧ t.elog = s.elog := by
  have he : exec (.disarmSlot src win i) s =
      finish (((s.accessed.freeSlot i (some ((s.slot i).outcome 4 false 0))).armStat win .ok i true).csrp .ok 0) := by
    show finish (s.fresh0.csrGate _ _) = _
    rw [h.csrGate_accessed, State.disarmSlot_ok (s := s.accessed) h.bad hr hin hst]
    rfl
  rw [State.freeSlot_of_cue (s := s) (t := s.accessed) rfl] at he
  generalize (s.freeSlot i (some ((s.slot i).outcome 4 false 0))).cue = u at he ⊢
  obtain ⟨regs, pws, hstat⟩ := State.armStat_shape win .ok i true { s.accessed with cue := u }
  rw [he, hstat, State.csrp_eq]
  exact ⟨_, finish_of_service (by exact h.service), rfl, rfl, rfl, rfl, rfl, rfl⟩

/-! ### A ring while a kept `CONFIRM` becomes due (R143, R267) -/

/-- The bell line 6 of channel 0, which partition 0 owns. -/
def bellOnLine6 : ChanCfg := { en := true, bell := 6 }

/-- A slice at rest with that channel and the entry `confirmDue`. -/
def bellWithConfirmDue : State := { windowsWithConfirmDue [] with cue := { chans := [{ cfg := bellOnLine6 }] } }

/-- A ring that sets the count of that channel to 3. -/
def ringOnLine6 : Req := { readLine5 with txid := 2, addr := 6 * 128, size := 6, dat := [{ sector := 0, data := 3 }] }

theorem bellWithConfirmDue_allowed : bellWithConfirmDue.Allowed .cueRing ringOnLine6 :=
  { windowsWithConfirmDue_atRest (ws := []) (by decide) with
    whole := by decide +kernel, flips := rfl, clean := by decide
    header := by decide +kernel, home := by decide +kernel, scratch := by decide +kernel
    allowed := by decide +kernel }

/-- R143: the end of the ring performs the `CONFIRM`, which enters line 5 in the directory. -/
theorem cueRing_confirms :
    nextView (fun t => t.dir.map (·.line)) (exec (.cueRing ringOnLine6) bellWithConfirmDue) = some [5] := by
  decide +kernel

end Sys2Proof.Machine

open Sys2Proof Sys2Proof.Machine

/-- Settles O24: `State.Arms` says what an armed record changes, and a disarmed slot is freed. -/
theorem armAndDisarmSlot : Obligations.ArmAndDisarmSlot := by
  intro s src win h hr
  refine ⟨?_, fun i hi hin hst => ?_⟩
  · intro words hck i a past hi hfree
    obtain ⟨regs, pws, regs', pws', t, he, harms⟩ := h.exec_armSlot hr hck hi hfree
    exact ⟨_, he, .inl (List.mem_append_right _ (List.mem_singleton.2 rfl)), harms.slot, harms.others, harms.applied, harms.only.arr,
      harms.only.dir, harms.only.wins, harms.only.elog⟩
  · obtain ⟨t, he, hcue, hout, hrest⟩ := h.exec_disarmSlot hr hin hst
    have hslot := (State.slot_of_cue hcue i).trans (State.slot_freed hi _)
    exact ⟨t, he, .inl (by rw [hout]; exact List.mem_singleton.2 rfl), by rw [hslot], by rw [hslot],
      fun k hk => (State.slot_of_cue hcue k).trans (State.slot_freed_ne hk _ s), by rw [hcue]; rfl, by rw [hcue]; rfl, hrest⟩

/-- Settles O23: a beat and the watchdog change one channel (`State.ChanOnly`) and then fire slots (`State.Fires`); the lag limit changes
one channel. -/
theorem cueBeatsAndLag : Obligations.CueBeatsAndLag := by
  refine ⟨fun s part c v h hc hlen hok hafter => ?_, fun s c h hc hlen => ⟨fun hdue => ?_, fun hdue => ?_⟩⟩
  · obtain ⟨t, x, f, he, hone, hfires, happlied, hsince⟩ := h.cueBeat_fires hlen hok hafter
    have hall := hone.only.trans hfires.only
    have hchan : t.chan c = f (s.chan c) := (hfires.chan_after hone hc).trans rfl
    refine ⟨t, he, by rw [hchan, happlied], fun i => hfires.slot_after hone i, by rw [hfires.due, hone.due]; rfl, fun hdue => ?_,
      fun k hk => hfires.others_after hone hk, hall.arr, hall.dir, hall.wins, hall.cfg, hall.elog⟩
    rw [hchan]
    exact hsince hdue _
  · obtain ⟨t, he, hone⟩ := h.exec_cueLagLimit hdue
    have hchan : t.chan c = (s.chan c).pastLimit := hone.chan hc
    exact ⟨t, he, by rw [hchan]; rfl, State.lagging_pastLimit hdue hchan hone.slots, fun k hk => hone.others hk, hone.slots,
      hone.only.arr, hone.only.wins, hone.only.elog⟩
  · obtain ⟨t, x, he, hone, hfires⟩ := h.exec_cueWatchdog hdue hc hlen
    have hall := hone.only.trans hfires.only
    have hchan : t.chan c = (s.chan c).stalls := (hfires.chan_after hone hc).trans rfl
    refine ⟨t, he, by rw [hchan]; rfl, by rw [hchan]; rfl, by rw [hall.regs]; exact cueStall_stands _, hall.elog, fun i => ?_, hall.arr,
      hall.wins⟩
    exact (hfires.slot_after hone i).trans (if_congr State.mem_stallSlots rfl rfl)

/-- Refutes O22: its first clause says that a ring leaves the directory as it was, and has no premise on provisional entries. The end of
the request settles them (R143): one whose data have left and that holds its `CONFIRM` is confirmed there, and its line is entered in the
directory (`bellWithConfirmDue`). -/
theorem not_beatsAreSent : ¬ Obligations.BeatsAreSent := by
  intro h
  obtain ⟨t, he, -, -, -, -, -, hdir, -⟩ := h.1 bellWithConfirmDue ringOnLine6 0 bellWithConfirmDue_allowed rfl (by decide +kernel)
    (by decide +kernel) (by decide) rfl (by decide) (by decide +kernel) (by decide +kernel)
  have hlines : t.dir.map (·.line) = [5] := view_of_next cueRing_confirms he
  rw [hdir] at hlines
  exact absurd hlines (by decide)

end

section

/-! Proofs about the fault ring, and what an operation of the translation unit leaves alone: the statement O39 (sitting 10). -/

namespace Sys2Proof.Machine
open Sys2Proof

/-! ### Requests to memory (R31, R32) -/

/-- R32: the request stands at its memory port, outstanding or waiting for a credit, whatever the group it is charged to and the tag
that the port gives it. -/
def State.Asks (t : State) (r : MemReq) : Prop :=
  ∃ g a m l, { r with grp := g, agent := a, mtag := m, left := l } ∈ t.memOut ++ t.memWait

/-- With no damage in the buffers a write leaves with the data it was given (R445). -/
theorem State.readStaged_calm (r : MemReq) {s : State} (hb : s.bad = []) : s.readStaged r = (r, s) := by
  unfold State.readStaged
  rw [hb, List.find?_nil]
  cases r.data <;> rfl

theorem State.asks_memOutput {r : MemReq} (hr : ∀ l i, r.use ≠ .wback l i) {s : State} (hb : s.bad = []) : (s.memOutput r).Asks r := by
  unfold State.memOutput
  rw [State.readStaged_calm r hb]
  dsimp only
  split
  · next l i h => exact absurd h (hr l i)
  · exact ⟨_, _, _, _, List.mem_append_left _ (List.mem_append_right _ (List.mem_singleton.2 rfl))⟩

/-- R31, R32: an uncached write stands at its port, and only meters and ports have changed. -/
theorem State.writeUc_asks (addr size part : Nat) (d : Sector) (poison : Bool) {use : MemUse} (hu : ∀ l i, use ≠ .wback l i)
    {s : State} (hb : s.bad = []) :
    s.Outer (s.writeUc addr size part d poison use) ∧
      (s.writeUc addr size part d poison use).Asks
        { port := s.memPort addr, mopc := 4, addr := addr, size := size, part := part, use := use, data := some (d, poison) } := by
  refine ⟨s.outer_memSend _ hu, ?_⟩
  unfold State.writeUc State.memSend State.memPut
  split
  · exact State.asks_memOutput (by exact hu) hb
  · exact ⟨_, _, _, _, List.mem_append_right _ (List.mem_append_right _ (List.mem_singleton.2 rfl))⟩

/-! ### What an operation of the translation unit leaves alone -/

/-- Only the translation unit, the partition windows, the meters and the memory ports differ, and no flit is lost. -/
structure State.XltOnly (s t : State) : Prop where
  shape : ∃ xlt pws fab held mem memOut memWait reg ctr hist fresh hot regs acts sig out,
    t = { s with xlt := xlt, pws := pws, fab := fab, heldOut := held, mem := mem, memOut := memOut, memWait := memWait, reg := reg,
                 ctr := ctr, hist := hist, fresh := fresh, hot := hot, regs := regs, acts := acts, sig := sig, out := out }
  sends : ∀ f, s.Sends f → t.Sends f

theorem State.XltOnly.trans {s t u : State} (h : s.XltOnly t) (k : t.XltOnly u) : s.XltOnly u where
  shape := by
    obtain ⟨_, _, _, _, _, _, _, _, _, _, _, _, _, _, _, _, rfl⟩ := h.shape
    obtain ⟨_, _, _, _, _, _, _, _, _, _, _, _, _, _, _, _, rfl⟩ := k.shape
    exact ⟨_, _, _, _, _, _, _, _, _, _, _, _, _, _, _, _, rfl⟩
  sends f hf := k.sends f (h.sends f hf)

section

variable {s t : State} (h : s.XltOnly t)

include h

theorem State.XltOnly.bad : t.bad = s.bad := by obtain ⟨_, _, _, _, _, _, _, _, _, _, _, _, _, _, _, _, rfl⟩ := h.shape; rfl
theorem State.XltOnly.arr : t.arr = s.arr := by obtain ⟨_, _, _, _, _, _, _, _, _, _, _, _, _, _, _, _, rfl⟩ := h.shape; rfl
theorem State.XltOnly.dir : t.dir = s.dir := by obtain ⟨_, _, _, _, _, _, _, _, _, _, _, _, _, _, _, _, rfl⟩ := h.shape; rfl
theorem State.XltOnly.wins : t.wins = s.wins := by obtain ⟨_, _, _, _, _, _, _, _, _, _, _, _, _, _, _, _, rfl⟩ := h.shape; rfl
theorem State.XltOnly.cfg : t.cfg = s.cfg := by obtain ⟨_, _, _, _, _, _, _, _, _, _, _, _, _, _, _, _, rfl⟩ := h.shape; rfl
theorem State.XltOnly.power : t.power = s.power := by obtain ⟨_, _, _, _, _, _, _, _, _, _, _, _, _, _, _, _, rfl⟩ := h.shape; rfl
theorem State.XltOnly.walks : t.walks = s.walks := by obtain ⟨_, _, _, _, _, _, _, _, _, _, _, _, _, _, _, _, rfl⟩ := h.shape; rfl
theorem State.XltOnly.ranges : t.ranges = s.ranges := by obtain ⟨_, _, _, _, _, _, _, _, _, _, _, _, _, _, _, _, rfl⟩ := h.shape; rfl

end

theorem State.Outer.xltOnly {s t : State} (h : s.Outer t) (hb : s.bad = []) : s.XltOnly t where
  shape := by
    obtain ⟨_, _, _, _, _, _, _, _, _, _, _, _, _, _, rfl⟩ := h.shape hb
    exact ⟨_, _, _, _, _, _, _, _, _, _, _, _, _, _, _, _, rfl⟩
  sends := h.2

theorem State.Outer.xlt {s t : State} (h : s.Outer t) (hb : s.bad = []) : t.xlt = s.xlt := by
  obtain ⟨_, _, _, _, _, _, _, _, _, _, _, _, _, _, rfl⟩ := h.shape hb
  rfl

theorem State.Outer.pws {s t : State} (h : s.Outer t) (hb : s.bad = []) : t.pws = s.pws := by
  obtain ⟨_, _, _, _, _, _, _, _, _, _, _, _, _, _, rfl⟩ := h.shape hb
  rfl

theorem State.xltOnly_setXlt (f : XltUnit → XltUnit) (s : State) : s.XltOnly (s.setXlt f) :=
  ⟨⟨_, _, _, _, _, _, _, _, _, _, _, _, _, _, _, _, rfl⟩, fun _ hf => hf⟩

theorem State.setXlt_xlt (f : XltUnit → XltUnit) (s : State) : (s.setXlt f).xlt = f s.xlt := rfl

theorem State.asks_setXlt {s : State} {r : MemReq} (h : s.Asks r) (f : XltUnit → XltUnit) : (s.setXlt f).Asks r := h

/-- The end of a meaning that such an operation took from `s` to `x`. -/
structure State.XltEnds (s x t : State) : Prop where
  arr : t.arr = s.arr
  dir : t.dir = s.dir
  wins : t.wins = s.wins
  cfg : t.cfg = s.cfg
  xlt : t.xlt = x.xlt
  pws : t.pws = x.pws
  memOut : t.memOut = x.memOut
  sends : ∀ f, x.Sends f → t.Sends f
  asks : ∀ r, x.Asks r → t.Asks r

theorem State.XltOnly.finish {s x : State} (h : s.XltOnly x) (hserv : s.power.state = .service) :
    ∃ t, finish x = .next t ∧ s.XltEnds x t :=
  ⟨x.settle, finish_of_service ((congrArg Power.state h.power).trans hserv), h.arr, h.dir, h.wins, h.cfg, rfl, rfl, rfl,
    fun _ hf => hf, fun _ hr => hr⟩

/-! ### The fault ring (R326 to R328, R381) -/

/-- R326: a write of `FQ_CONS`. -/
theorem State.writeFqCons_eq (v : Word) (s : State) :
    s.writeFqCons v = { s with
      out := s.out ++ [.csrp .ok 0],
      xlt := { s.xlt with fqCons :=
        if (s.xlt.fqProd + 65536 - bits v.toNat 15 0) % 65536 ≤ 2 ^ s.xlt.fqLog then bits v.toNat 15 0 else s.xlt.fqCons } } := by
  unfold State.writeFqCons
  rw [State.csrp_eq]
  dsimp only
  split <;> rfl

/-- R381: a write of `FQ_BASE`. -/
theorem State.writeFqRing_base (v : Word) (s : State) :
    s.writeFqRing false v = { s with
      out := s.out ++ [.csrp (if s.xlt.fqEn then .busy else .ok) 0],
      xlt := if s.xlt.fqEn then s.xlt else { s.xlt with fqBase := bits v.toNat 51 0 } } := by
  unfold State.writeFqRing
  cases hen : s.xlt.fqEn <;> simp [State.csrp_eq, hen, State.setXlt]

/-- R381: a write of `FQ_CTL` (log entry 142). -/
theorem State.writeFqRing_ctl (v : Word) (s : State) :
    s.writeFqRing true v = { s with
      out := s.out ++ [.csrp (if s.xlt.fqEn then .busy else .ok) 0],
      xlt := { s.xlt with fqLog := if s.xlt.fqEn then s.xlt.fqLog else bits v.toNat 3 0, fqEn := bit v.toNat 4 } } := by
  unfold State.writeFqRing
  rw [if_neg (by decide), State.csrp_eq]
  rfl

/-- R326, R327: the head of the staging entries has been taken for the ring. -/
def XltUnit.unstaged (rest : List FaultRec) (x : XltUnit) : XltUnit := { x with staged := rest, fqProd := (x.fqProd + 1) % 65536 }

/-- R327: the oldest staged record goes to its place in the ring. -/
theorem State.fqWrite_oldest {s : State} {f : FaultRec} {rest : List FaultRec} (hb : s.bad = []) (hs : s.xlt.staged = f :: rest) :
    s.XltOnly s.fqWrite ∧ s.fqWrite.xlt = s.xlt.unstaged rest ∧
      ∃ r, s.fqWrite.Asks r ∧ r.mopc = 4 ∧ r.size = 5 ∧ r.addr = s.xlt.fqBase + 32 * (s.xlt.fqProd % 2 ^ s.xlt.fqLog) := by
  have hu := State.xltOnly_setXlt (XltUnit.unstaged rest) s
  have hub := hu.bad.trans hb
  obtain ⟨d, heq⟩ : ∃ d, s.fqWrite = (s.setXlt (XltUnit.unstaged rest)).writeUc
      (s.xlt.fqBase + 32 * (s.xlt.fqProd % 2 ^ s.xlt.fqLog)) 5 0 d false .plain := by
    unfold State.fqWrite
    rw [hs]
    exact ⟨_, rfl⟩
  obtain ⟨houter, hasks⟩ := State.writeUc_asks (s.xlt.fqBase + 32 * (s.xlt.fqProd % 2 ^ s.xlt.fqLog)) 5 0 d false
    (use := .plain) (by simp) hub
  rw [heq]
  exact ⟨hu.trans (houter.xltOnly hub), houter.xlt hub, _, hasks, rfl, rfl, rfl⟩

/-- R328: with no walk none is stalled. -/
theorem State.unstall_calm {s : State} (hw : s.walks = []) (hr : s.ranges = []) : s.unstall = s := by
  unfold State.unstall
  rw [hw, List.foldl_nil, State.walksGo_calm hw hr]

/-- R327: at rest a staged record that has room is written. -/
theorem State.AtRest.exec_faultRingWrite {s : State} (h : s.AtRest) {f : FaultRec} {rest : List FaultRec}
    (hs : s.xlt.staged = f :: rest) (hroom : s.fqRoom = true) :
    ∃ t, exec .faultRingWrite s = .next t ∧ s.fresh0.XltEnds s.fresh0.fqWrite t := by
  obtain ⟨honly, -⟩ := State.fqWrite_oldest (s := s.fresh0) h.bad hs
  obtain ⟨t, ht, hends⟩ := honly.finish h.service
  have hcalm : s.fresh0.fqWrite.unstall = s.fresh0.fqWrite :=
    State.unstall_calm (honly.walks.trans h.walks) (honly.ranges.trans h.ranges)
  refine ⟨t, ?_, hends⟩
  show (if s.fclkRuns && s.fqRoom then finish s.fresh0.fqWrite.unstall else s.notDue) = _
  rw [h.fclkRuns, hroom, if_pos (by decide), hcalm, ht]

/-- Where every walk has ended and no range command waits, none goes on. -/
theorem State.walksGo_ended {s : State} (hw : ∀ w ∈ s.walks, w.stop = .ended) (hr : s.ranges = []) : s.walksGo = s := by
  have hwake : s.wakeStopped = s := by
    have hmap : s.walks.map (fun (w : Walk) =>
        if w.stop == .mrWait || w.stop == .portWait || w.stop == .orderWait || w.stop == .grantWait
        then { w with stop := WalkStop.running } else w) = s.walks :=
      (List.map_congr_left fun w hx => if_neg (by simp [hw w hx])).trans (List.map_id _)
    unfold State.wakeStopped
    rw [hmap]
  have hrounds : ∀ n, s.walkRounds n = s := fun n => by
    have hnone : s.walks.any s.canWalk = false := List.any_eq_false.2 fun w hx => by simp [State.canWalk, hw w hx]
    cases n with
    | zero => rfl
    | succ n => exact if_neg (by simp [hnone])
  have hranges : s.rangesGo = s := by simp [State.rangesGo, hr]
  have hwork : ∀ n, s.workRounds n = s := fun n => by
    induction n with
    | zero => rfl
    | succ n ih =>
      show ((s.wakeStopped.walkRounds _).rangesGo).workRounds n = s
      rw [hwake, hrounds, hranges, ih]
  unfold State.walksGo
  rw [hwork, ite_self]

/-- R328: what a stalled walk is once `FQ_HOLD` has passed. -/
def Walk.overflowed (w : Walk) : Walk := { w with stop := .ended, overflow := true, flt := none }

/-- The walk of a slice that has no other. -/
def State.withWalk (w : Walk) (s : State) : State := { s with walks := [w] }

/-- R328: the only walk is stalled, and `FQ_HOLD` passes for it. -/
theorem exec_fqOvf {s : State} {w : Walk} (h : State.AtRest { s with walks := [] }) (hw : s.walks = [w]) (hst : w.stop = .stalled) :
    ∃ ctr sig, exec (.fqOvf w.cls) s = .next (State.settle { s.fresh0.withWalk w.overflowed with
      ctr := ctr, sig := sig, elog := s.elog.place { source := 0x013, part := w.part, detail := w.mark } }) := by
  have hset : s.fresh0.setWalk w.id Walk.overflowed = s.fresh0.withWalk w.overflowed := by simp [State.setWalk, State.withWalk, hw]
  obtain ⟨ctr, sig, hcount⟩ : ∃ ctr sig, (s.fresh0.withWalk w.overflowed).count Ev.fqOvf (some w.part) =
      { s.fresh0.withWalk w.overflowed with ctr := ctr, sig := sig } := ⟨_, _, State.countN_calm _ _ _ _ h.bad⟩
  refine ⟨ctr, sig, ?_⟩
  show (match s.walks.find? (fun x => x.stop == .stalled && x.cls == w.cls) with
    | some w => if !s.fclkRuns then s.notDue else
        finish ((((s.fresh0.setWalk w.id Walk.overflowed).count Ev.fqOvf (some w.part)).log
          { source := 0x013, part := w.part, detail := w.mark }).walksGo)
    | none => s.notDue) = _
  rw [hw, List.find?_cons_of_pos (by simp [hst])]
  dsimp only
  rw [show s.fclkRuns = true from h.fclkRuns, if_neg (by decide), hset, hcount,
    State.walksGo_ended (by simp [State.withWalk, Walk.overflowed]) (by exact h.ranges)]
  exact finish_of_service h.service

end Sys2Proof.Machine

open Sys2Proof Sys2Proof.Machine

/-- Settles O39: the registers are management writes; `fqWrite_oldest` says where a record goes, and an overflow ends its walk alone. -/
theorem faultRing : Obligations.FaultRing := by
  refine ⟨fun s src v h hm => ⟨?_, ?_, ?_⟩, fun s f rest h _ hs hroom => ?_, fun s w h _ hw hst => ?_⟩
  · rw [show exec (.fqConsWrite src v) s = _ from h.mgmtWrite _ hm _, State.writeFqCons_eq, finish_of_service (by exact h.service)]
    exact ⟨_, rfl, .inl (List.mem_singleton.2 rfl), rfl, rfl, rfl, rfl⟩
  · rw [show exec (.fqRingConfigWrite src false v) s = _ from h.mgmtWrite _ hm _, State.writeFqRing_base,
      finish_of_service (by exact h.service)]
    exact ⟨_, rfl, .inl (List.mem_singleton.2 rfl), rfl, rfl, rfl⟩
  · rw [show exec (.fqRingConfigWrite src true v) s = _ from h.mgmtWrite _ hm _, State.writeFqRing_ctl,
      finish_of_service (by exact h.service)]
    exact ⟨_, rfl, .inl (List.mem_singleton.2 rfl), rfl, rfl, rfl⟩
  · obtain ⟨-, hxlt, r, hasks, hmopc, hsize, haddr⟩ := State.fqWrite_oldest (s := s.fresh0) h.bad hs
    obtain ⟨t, he, hends⟩ := h.exec_faultRingWrite hs hroom
    obtain ⟨_, _, _, _, hr⟩ := hends.asks r hasks
    have hx := hends.xlt.trans hxlt
    exact ⟨t, _, he, congrArg XltUnit.staged hx, congrArg XltUnit.fqProd hx, hr, hmopc, hsize, haddr, hends.arr, hends.dir, hends.wins,
      hends.cfg⟩
  · obtain ⟨_, _, he⟩ := exec_fqOvf h hw hst
    exact ⟨_, he, rfl, rfl, rfl, rfl, rfl, rfl⟩

end

section

/-! Proofs about hot-page counting: the statement O40 (sitting 10). -/

namespace Sys2Proof.Machine
open Sys2Proof

/-! ### Hot-page registers and epochs (R330, R333) -/

/-- R330: a write of `HOT_CTL`. -/
theorem State.writeHot_ctl (v : Word) (s : State) :
    let h := { s.hot with
      en := bit v.toNat 0, mode := bits v.toNat 1 1
      thresh := if bits v.toNat 17 2 = 0 then s.hot.thresh else bits v.toNat 17 2 }
    s.writeHot true v = { s with
      out := s.out ++ [.csrp .ok 0], hot := if bits v.toNat 1 1 = s.hot.mode then h else { h with ctrs := [] } } := by
  unfold State.writeHot
  rw [State.csrp_eq]
  by_cases hm : bits v.toNat 1 1 = s.hot.mode <;> simp [hm, State.hotClear]

/-- R330: a write of `HOT_BASE`. -/
theorem State.writeHot_base (v : Word) (s : State) :
    s.writeHot false v = { s with
      out := s.out ++ [.csrp .ok 0],
      hot := { s.hot with base := bits v.toNat 15 0, ctrs := if bits v.toNat 15 0 = s.hot.base then s.hot.ctrs else [] } } := by
  unfold State.writeHot
  rw [State.csrp_eq]
  by_cases hb : bits v.toNat 15 0 = s.hot.base <;> simp [hb, State.hotClear]

/-- R333: the counters that an epoch leaves. -/
theorem State.mem_hotEpochStep (s : State) (j n : Nat) (b : Bool) :
    (j, n, b) ∈ s.hotEpochStep.hot.ctrs ↔
      ∃ m c, (j, m, c) ∈ s.hot.ctrs ∧ n = m / 2 ∧ b = (c && s.hot.thresh ≤ m / 2) ∧ (n ≠ 0 ∨ b = true) := by
  simp only [State.hotEpochStep, List.mem_filter, List.mem_map, Prod.mk.injEq, Bool.or_eq_true, bne_iff_ne]
  constructor
  · rintro ⟨⟨⟨_, m, c⟩, hmem, rfl, rfl, rfl⟩, hkeep⟩
    exact ⟨m, c, hmem, rfl, rfl, hkeep⟩
  · rintro ⟨m, c, hmem, rfl, rfl, hkeep⟩
    exact ⟨⟨⟨j, m, c⟩, hmem, rfl, rfl, rfl⟩, hkeep⟩

/-- R333, R417: at rest an epoch that is counted passes. -/
theorem State.AtRest.exec_hotEpoch {s : State} (h : s.AtRest) (he : s.hot.epoch ≠ 0) :
    exec .hotEpoch s = .next s.fresh0.hotEpochStep.settle := by
  have hdue : (s.hot.epoch == 0 || !s.fclkRuns || s.power.state == .init) = false := by simp [he, h.fclkRuns, h.service]
  show (if s.hot.epoch == 0 || !s.fclkRuns || s.power.state == .init then _ else finish s.fresh0.hotEpochStep) = _
  rw [hdue, if_neg (by decide)]
  exact finish_of_service h.service

end Sys2Proof.Machine

open Sys2Proof Sys2Proof.Machine

/-- Settles O40: both registers are management writes; `mem_hotEpochStep` says which counters an epoch leaves. -/
theorem hotPageCounting : Obligations.HotPageCounting := by
  refine ⟨fun s src v h hm => ⟨?_, ?_⟩, fun s h he => ?_⟩
  · rw [show exec (.hotConfigWrite src true v) s = _ from h.mgmtWrite _ hm _, State.writeHot_ctl, finish_of_service (by exact h.service)]
    exact ⟨_, rfl, .inl (List.mem_singleton.2 rfl), rfl, rfl, rfl, rfl⟩
  · rw [show exec (.hotConfigWrite src false v) s = _ from h.mgmtWrite _ hm _, State.writeHot_base, finish_of_service (by exact h.service)]
    exact ⟨_, rfl, .inl (List.mem_singleton.2 rfl), rfl, rfl, rfl, rfl⟩
  · exact ⟨_, h.exec_hotEpoch he, rfl, s.fresh0.mem_hotEpochStep, rfl, rfl, rfl, rfl, rfl, rfl⟩

end

section

/-! Proofs about the entries and the changes of the TDC: the statement O38 (sitting 10). -/

namespace Sys2Proof.Machine
open Sys2Proof

/-! ### The entries of the TDC (R315, R316) -/

/-- What the lookup of a tag makes of one place of the TDC. -/
def TdcEnt.found (k : XKey) : Option TdcEnt × Nat → Option (Nat × TdcEnt)
  | (some e, i) => if e.key == k then some (i, e) else none
  | (none, _) => none

theorem XltUnit.at_eq (x : XltUnit) (k : XKey) : x.at k = (x.tdc.zipIdx).findSome? (TdcEnt.found k) := by
  unfold XltUnit.at
  congr 1
  funext ⟨e, i⟩
  cases e <;> rfl

theorem TdcEnt.found_eq_some {k : XKey} {p : Option TdcEnt × Nat} {i : Nat} {e : TdcEnt} :
    TdcEnt.found k p = some (i, e) ↔ p = (some e, i) ∧ e.key = k := by
  obtain ⟨_ | e', j⟩ := p
  · simp [TdcEnt.found]
  · simp only [TdcEnt.found, Option.ite_none_right_eq_some, beq_iff_eq, Option.some.injEq, Prod.mk.injEq]
    constructor
    · rintro ⟨hk, rfl, rfl⟩
      exact ⟨⟨rfl, rfl⟩, hk⟩
    · rintro ⟨⟨rfl, rfl⟩, hk⟩
      exact ⟨hk, rfl, rfl⟩

/-- An entry that a lookup finds stands in the TDC under its tag. -/
theorem XltUnit.at_some {x : XltUnit} {k : XKey} {i : Nat} {e : TdcEnt} (h : x.at k = some (i, e)) :
    x.tdc[i]? = some (some e) ∧ e.key = k := by
  rw [XltUnit.at_eq] at h
  obtain ⟨p, hp, hm⟩ := List.exists_of_findSome?_eq_some h
  obtain ⟨rfl, hk⟩ := TdcEnt.found_eq_some.1 hm
  exact ⟨List.mem_zipIdx_iff_getElem?.1 hp, hk⟩

/-- An entry of the tag at place `i`, where a lookup found nothing before or found that place, is what it finds. -/
theorem findSome?_found_set {k : XKey} {e : TdcEnt} (hk : e.key = k) (l : List (Option TdcEnt)) :
    ∀ i n, i < l.length → (∀ r, (l.zipIdx n).findSome? (TdcEnt.found k) = some r → r.1 = n + i) →
      ((l.set i (some e)).zipIdx n).findSome? (TdcEnt.found k) = some (n + i, e) := by
  induction l with
  | nil => exact fun i n hi => absurd hi (Nat.not_lt_zero i)
  | cons o l ih =>
    intro i n hi hbefore
    rw [List.zipIdx_cons, List.findSome?_cons] at hbefore
    cases i with
    | zero => simp [TdcEnt.found, hk]
    | succ i =>
      have hmiss : TdcEnt.found k (o, n) = none := by
        cases hm : TdcEnt.found k (o, n) with
        | none => rfl
        | some r =>
          obtain ⟨j, e'⟩ := r
          obtain ⟨⟨-, rfl⟩, -⟩ := (TdcEnt.found_eq_some.1 hm).imp_left Prod.mk.inj
          have hj : n = n + (i + 1) := hbefore (n, e') (by rw [hm])
          omega
      rw [hmiss] at hbefore
      rw [List.set_cons_succ, List.zipIdx_cons, List.findSome?_cons, hmiss,
        ih i (n + 1) (Nat.lt_of_succ_lt_succ hi) fun r hr => by rw [hbefore r hr]; omega]
      rw [Nat.add_right_comm, Nat.add_assoc]

/-- An entry of another tag in a free place changes no lookup. -/
theorem findSome?_found_set_ne {k : XKey} {e : TdcEnt} (hk : e.key ≠ k) (l : List (Option TdcEnt)) :
    ∀ i n, l[i]? = some none →
      ((l.set i (some e)).zipIdx n).findSome? (TdcEnt.found k) = (l.zipIdx n).findSome? (TdcEnt.found k) := by
  induction l with
  | nil => exact fun _ _ _ => rfl
  | cons o l ih =>
    intro i n hfree
    cases i with
    | zero =>
      obtain rfl : o = none := by simpa using hfree
      have hother : TdcEnt.found k (some e, n) = none := if_neg (by simpa using hk)
      rw [List.set_cons_zero, List.zipIdx_cons, List.zipIdx_cons, List.findSome?_cons, List.findSome?_cons, hother]
      rfl
    | succ i => rw [List.set_cons_succ, List.zipIdx_cons, List.zipIdx_cons, List.findSome?_cons, List.findSome?_cons,
        ih i (n + 1) (by simpa using hfree)]

/-- R323: a value whose tag has an entry goes there. -/
theorem XltUnit.at_install_held {x : XltUnit} {k : XKey} {i : Nat} {e : TdcEnt} (h : x.at k = some (i, e)) (v : Word) (lock : Bool) :
    (x.install k v lock).at k = some (i, { e with value := v, lock := e.lock || lock, perr := false }) := by
  obtain ⟨hget, hk⟩ := XltUnit.at_some h
  obtain ⟨hi, -⟩ := List.getElem?_eq_some_iff.1 hget
  rw [XltUnit.at_eq] at h
  have hin : x.install k v lock =
      { x with tdc := x.tdc.set i (some { e with value := v, lock := e.lock || lock, perr := false }) } := by
    simp [XltUnit.install, XltUnit.at_eq, h]
  rw [hin, XltUnit.at_eq]
  have hset := findSome?_found_set (e := { e with value := v, lock := e.lock || lock, perr := false }) hk x.tdc i 0 hi
    fun r hr => by rw [h] at hr; simp [← Option.some.inj hr]
  rw [hset, Nat.zero_add]

/-- R316: a value whose tag has no entry takes a free place, where there is one. -/
theorem XltUnit.install_free {x : XltUnit} {k : XKey} (h : x.at k = none) (hfree : x.tdc.any (·.isNone) = true) (v : Word)
    (lock : Bool) :
    ∃ i, x.tdc[i]? = some none ∧ x.install k v lock =
      { x with tdc := x.tdc.set i (some { part := k.1, desc := k.2.1, addr := k.2.2, value := v, lock := lock }) } := by
  cases hidx : x.tdc.findIdx? (·.isNone) with
  | none =>
    have hall := List.findIdx?_eq_none_iff.1 hidx
    rw [List.any_eq_true] at hfree
    obtain ⟨o, ho, hnone⟩ := hfree
    rw [hall o ho] at hnone
    cases hnone
  | some i =>
    obtain ⟨hi, hnone, -⟩ := List.findIdx?_eq_some_iff_getElem.1 hidx
    refine ⟨i, ?_, ?_⟩
    · rw [List.getElem?_eq_getElem hi, Option.isNone_iff_eq_none.1 hnone]
    · simp [XltUnit.install, h, XltUnit.victim, hidx]

/-- R316: such a value is found under its tag, and every other lookup finds what it found. -/
theorem XltUnit.at_install_free {x : XltUnit} {k : XKey} (h : x.at k = none) (hfree : x.tdc.any (·.isNone) = true) (v : Word)
    (lock : Bool) :
    ((x.install k v lock).at k).map (·.2.value) = some v ∧ ∀ k', k' ≠ k → (x.install k v lock).at k' = x.at k' := by
  obtain ⟨i, hi, hin⟩ := XltUnit.install_free h hfree v lock
  obtain ⟨hlt, -⟩ := List.getElem?_eq_some_iff.1 hi
  rw [XltUnit.at_eq] at h
  rw [hin]
  constructor
  · rw [XltUnit.at_eq, findSome?_found_set (k := k) rfl x.tdc i 0 hlt fun r hr => by rw [h] at hr; cases hr]
    rfl
  · intro k' hk'
    rw [XltUnit.at_eq, XltUnit.at_eq, findSome?_found_set_ne (Ne.symm hk') x.tdc i 0 hi]

/-- R316, R323: a value that is put in the TDC ends no fetch. -/
theorem XltUnit.install_fetches (k : XKey) (v : Word) (lock : Bool) (x : XltUnit) : (x.install k v lock).fetches = x.fetches := by
  unfold XltUnit.install
  split <;> rfl

/-- R316, R323: a value that is put in the TDC brings no other entry. -/
theorem XltUnit.mem_install {x : XltUnit} {k : XKey} {v : Word} {lock : Bool} {e : TdcEnt} (h : some e ∈ (x.install k v lock).tdc) :
    some e ∈ x.tdc ∨ e.value = v := by
  unfold XltUnit.install at h
  split at h
  all_goals
    rcases List.mem_or_eq_of_mem_set h with hold | hnew
    · exact .inl hold
    · exact .inr (by rw [Option.some.inj hnew])

/-! ### Changes of the TDC (R321) -/

/-- R321 step 1: the values that `hit` names leave the TDC and the side buffer, and the fetches that `stale` names are marked. -/
def XltUnit.invalidated (hit : XKey → Bool) (stale : TdcFetch → Bool) (x : XltUnit) : XltUnit :=
  { x with
    tdc := x.tdc.map fun (e : Option TdcEnt) => match e with
      | some e => if hit e.key then none else some e
      | none => none,
    side := x.side.filter fun (e : TdcEnt) => !hit e.key,
    fetches := x.fetches.map fun (f : TdcFetch) => if stale f then { f with stale := true } else f }

/-- R321: a change of window `p` is in progress. -/
def XltUnit.changing (p : Nat) (x : XltUnit) : XltUnit := { x with change := x.change.set p true }

@[simp] theorem XltUnit.changing_tdc (p : Nat) (x : XltUnit) : (x.changing p).tdc = x.tdc := rfl
@[simp] theorem XltUnit.changing_side (p : Nat) (x : XltUnit) : (x.changing p).side = x.side := rfl

theorem XltUnit.changing_at {p : Nat} {x : XltUnit} (hp : p < x.change.length) : (x.changing p).change.getD p false = true := by
  simp [XltUnit.changing, List.getD_eq_getElem?_getD, hp]

/-- R321: with no walk and no transaction a change waits for no access. -/
theorem State.changeOpen_calm {s : State} (ht : s.txns = []) (hw : s.walks = []) (p : Nat) (hit : XKey → Bool) :
    s.changeOpen p hit = s.setXlt (XltUnit.changing p) := by
  simp [State.changeOpen, State.dropXlat, ht, hw, State.setXlt, XltUnit.changing]

/-- R321 steps 1 to 3 in such a slice. -/
theorem State.tdcChange_calm {s : State} (ht : s.txns = []) (hw : s.walks = [])
    (p : Nat) (hit : XKey → Bool) (stale : TdcFetch → Bool) :
    s.tdcChange p hit stale = s.setXlt fun x => (x.invalidated hit stale).changing p :=
  State.changeOpen_calm (s := s.setXlt (XltUnit.invalidated hit stale)) ht hw p hit

/-- R321 step 1: no entry that `hit` names is left. -/
theorem XltUnit.tdc_invalidated {hit : XKey → Bool} {stale : TdcFetch → Bool} {x : XltUnit} {e : TdcEnt}
    (h : some e ∈ (x.invalidated hit stale).tdc) : hit e.key = false := by
  obtain ⟨o, -, ho⟩ := List.mem_map.1 h
  cases o with
  | none => cases ho
  | some e' =>
    have he : (if hit e'.key then none else some e') = some e := ho
    split at he
    · cases he
    · next hkeep => rw [← Option.some.inj he]; exact Bool.eq_false_iff.2 hkeep

theorem XltUnit.side_invalidated {hit : XKey → Bool} {stale : TdcFetch → Bool} {x : XltUnit} {e : TdcEnt}
    (h : e ∈ (x.invalidated hit stale).side) : hit e.key = false := by
  simpa using (List.mem_filter.1 h).2

/-! ### The descriptor register (R307) -/

/-- R307: the descriptor register of a window takes bits [51:3] of the value. -/
def State.withDesc (p : Nat) (v : Word) (s : State) : State :=
  { s with pws := s.pws.modify p fun w => { w with xltDesc := bits v.toNat 51 3 * 8 } }

/-- R307: every value of the partition has been invalidated, and the change is in progress. -/
def State.descWritten (p : Nat) (v : Word) (s : State) : State :=
  (s.withDesc p v).setXlt fun x => (x.invalidated (fun k => k.1 == p) (fun f => f.part == p)).changing p

theorem State.descWritten_shows {p : Nat} {s : State} (hp : p < s.pws.length) (v : Word) :
    ((s.descWritten p v).pws.getD p {}).xltDesc = bits v.toNat 51 3 * 8 := by
  simp [State.descWritten, State.setXlt, State.withDesc, List.getD_eq_getElem?_getD, List.getElem?_eq_getElem hp]

theorem State.descWritten_shows_ne {p k : Nat} (hk : k ≠ p) (v : Word) (s : State) : (s.descWritten p v).pws[k]? = s.pws[k]? :=
  List.getElem?_modify_ne _ _ hk.symm

/-- R307: a write of `XLT_DESC` of an active partition, in a slice without walks and transactions. -/
theorem State.writeXltDesc_calm {p : Nat} {s : State} (ha : (s.part p).active = true) (ht : s.txns = []) (hw : s.walks = []) (v : Word) :
    s.writeXltDesc p v = (s.descWritten p v).csrp .ok 0 := by
  unfold State.writeXltDesc
  rw [ha, if_neg (by decide)]
  exact congrArg (State.csrp .ok 0) (State.tdcChange_calm (s := s.withDesc p v) ht hw p _ _)

theorem State.xltOnly_descWritten (p : Nat) (v : Word) (s : State) : s.XltOnly (s.descWritten p v) :=
  ⟨⟨_, _, _, _, _, _, _, _, _, _, _, _, _, _, _, _, rfl⟩, fun _ hf => hf⟩

theorem State.descWritten_xlt (p : Nat) (v : Word) (s : State) :
    (s.descWritten p v).xlt = (s.xlt.invalidated (fun k => k.1 == p) (fun f => f.part == p)).changing p := rfl

/-- R307: at rest a management write of `XLT_DESC` acts. -/
theorem State.AtRest.exec_xltDescWrite {s : State} (h : s.AtRest) {src : Csrp} (hm : src.mgmt = true) {p : Nat}
    (ha : (s.part p).active = true) (v : Word) :
    ∃ t, exec (.xltDescWrite src p v) s = .next t ∧ s.accessed.XltEnds ((s.accessed.descWritten p v).csrp .ok 0) t := by
  have hdesc := s.accessed.xltOnly_descWritten p v
  have hanswer := State.outer_emit (.csrp .ok 0) (s.accessed.descWritten p v)
  obtain ⟨t, ht, hends⟩ := (hdesc.trans (hanswer.xltOnly (hdesc.bad.trans h.bad))).finish h.service
  have hwrite : s.accessed.writeXltDesc p v = (s.accessed.descWritten p v).csrp .ok 0 :=
    State.writeXltDesc_calm (s := s.accessed) ha h.txns h.walks v
  exact ⟨t, ((h.mgmtWrite _ hm _).trans (congrArg finish hwrite)).trans ht, hends⟩

end Sys2Proof.Machine

open Sys2Proof Sys2Proof.Machine

/-- Settles O38: a write of the descriptor register begins a TDC change that names every entry of the partition. -/
theorem xltDescriptorWrites : Obligations.XltDescriptorWrites := by
  refine fun s src p v h => ⟨fun hm hp ha => ?_, fun hm => ?_⟩
  · obtain ⟨t, he, hends⟩ := h.exec_xltDescWrite hm ha v
    have hxlt := hends.xlt.trans ((State.emit_xlt _ _).trans (State.descWritten_xlt p v s.accessed))
    have hpws := hends.pws.trans (State.emit_pws (.csrp .ok 0) (s.accessed.descWritten p v))
    refine ⟨t, he, hends.sends _ (State.sends_emit _ _), ?_, fun e hmem => ?_, fun e hmem => ?_, fun k hk => ?_, hends.arr, hends.dir,
      hends.wins, hends.cfg⟩
    · rw [hpws]
      exact State.descWritten_shows hp v
    · rw [hxlt, XltUnit.changing_tdc] at hmem
      exact beq_eq_false_iff_ne.1 (XltUnit.tdc_invalidated hmem)
    · rw [hxlt, XltUnit.changing_side] at hmem
      exact beq_eq_false_iff_ne.1 (XltUnit.side_invalidated hmem)
    · rw [hpws]
      exact State.descWritten_shows_ne hk v s.accessed
  · obtain ⟨t, he, hd⟩ := h.mgmtWrite_denied (.xltDescWrite src p v) hm (State.writeXltDesc p v)
    exact ⟨t, he, hd.out, hd.pws, hd.xlt, hd.arr, hd.dir, hd.wins, hd.cfg⟩

end

section

/-! Proofs about the operations and the fetches of the TDC: the statement O37 (sitting 10). -/

namespace Sys2Proof.Machine
open Sys2Proof

theorem State.xltOnly_tdcStat (p : Nat) (busy done : Bool) (e : Err) (s : State) : s.XltOnly (s.tdcStat p busy done e) :=
  ⟨⟨_, _, _, _, _, _, _, _, _, _, _, _, _, _, _, _, rfl⟩, fun _ hf => hf⟩

/-- R391: what `TDC_STAT` of a window shows once it has been set. -/
theorem State.tdcStat_shows {p : Nat} {s : State} (hp : p < s.pws.length) (busy done : Bool) (e : Err) :
    (s.tdcStat p busy done e).pws.getD p {} = { s.pws.getD p {} with tdcBusy := busy, tdcDone := done, tdcCode := e } := by
  simp [State.tdcStat, List.getD_eq_getElem?_getD, List.getElem?_eq_getElem hp]

/-! ### A TDC operation that passes its checks (R319, R320) -/

/-- A TDC operation that arrives at a slice at rest and passes the checks of R319 and R320, in a window that runs no other. -/
structure State.TakesTdc (s : State) (x : TdcCmd) : Prop extends s.AtRest where
  reach : x.mgmt = true ∨ x.srcPart = x.part
  lens : x.mgmt = true ∨ s.lensOfPart x.part x.addr = true
  active : (s.part x.part).active = true
  aligned : x.addr % 8 = 0
  windows : s.pws.length = 16
  window : x.part < 16
  ops : s.xlt.opBusy = List.replicate 16 none
  changes : s.xlt.change.length = 16
  side : s.xlt.side = []
  idle : (s.pws.getD x.part {}).tdcBusy = false
  locks : s.xlt.locked < 32

/-- The tag that the operation names. -/
def tdcKey (x : TdcCmd) : XKey := (x.part, x.kind == 1, x.addr)

/-- R319: the window's registers hold the operands. -/
def State.tdcLatched (x : TdcCmd) (s : State) : State :=
  { s with pws := s.pws.modify x.part fun w => { w with tdcAddr := x.addr, tdcData := x.data } }

theorem State.tdcLatched_busy (x : TdcCmd) (s : State) :
    ((s.tdcLatched x).pws.getD x.part {}).tdcBusy = (s.pws.getD x.part {}).tdcBusy := by
  simp only [State.tdcLatched, List.getD_eq_getElem?_getD, List.getElem?_modify_eq]
  cases s.pws[x.part]? <;> rfl

/-- The operation is accepted. -/
def State.tdcTaken (x : TdcCmd) (s : State) : State := (s.accessed.tdcLatched x).csrp .ok 0

theorem State.tdcTaken_xlt (x : TdcCmd) (s : State) : (s.tdcTaken x).xlt = s.xlt := State.emit_xlt _ _

theorem State.tdcTaken_windows (x : TdcCmd) (s : State) : (s.tdcTaken x).pws.length = s.pws.length :=
  (congrArg List.length (State.emit_pws _ _)).trans (List.length_modify ..)

theorem State.TakesTdc.taken_window {s : State} {x : TdcCmd} (h : s.TakesTdc x) : x.part < (s.tdcTaken x).pws.length := by
  rw [State.tdcTaken_windows, h.windows]
  exact h.window

theorem State.xltOnly_tdcTaken (x : TdcCmd) (s : State) (hb : s.bad = []) : s.accessed.XltOnly (s.tdcTaken x) := by
  have hlatch : s.accessed.XltOnly (s.accessed.tdcLatched x) :=
    ⟨⟨_, _, _, _, _, _, _, _, _, _, _, _, _, _, _, _, rfl⟩, fun _ hf => hf⟩
  exact hlatch.trans ((State.outer_emit (.csrp .ok 0) _).xltOnly (hlatch.bad.trans hb))

/-- Nothing is in progress when an operation is accepted. -/
theorem State.TakesTdc.taken_calm {s : State} {x : TdcCmd} (h : s.TakesTdc x) :
    (s.tdcTaken x).bad = [] ∧ (s.tdcTaken x).txns = [] ∧ (s.tdcTaken x).walks = [] :=
  ⟨(State.emit_bad _ _).trans h.bad, (State.emit_txns _ _).trans h.txns, (State.emit_walks _ _).trans h.walks⟩

/-- R319, R320: the operation is performed. -/
theorem State.TakesTdc.tdcOp {s : State} {x : TdcCmd} (h : s.TakesTdc x) {code : Nat} (hc : 1 ≤ code ∧ code ≤ 7) :
    s.accessed.tdcOp code x = (s.tdcTaken x).tdcRun x.part code (x.kind == 1) x.addr x.data := by
  have hreach : (!Csrp.reaches { mgmt := x.mgmt, part := x.srcPart } (some x.part) || !(s.part x.part).active) = false := by
    rcases h.reach with hm | hm <;> simp [Csrp.reaches, hm, h.active]
  have hcode : (code == 0 || decide (8 ≤ code)) = false := by
    obtain ⟨h1, h7⟩ := hc
    simp only [Bool.or_eq_false_iff, beq_eq_false_iff_ne, decide_eq_false_iff_not]
    omega
  have halign : (x.addr % 8 != 0) = false := by simp [h.aligned]
  have hidle : ((s.accessed.tdcLatched x).pws.getD x.part {}).tdcBusy = false := (s.accessed.tdcLatched_busy x).trans h.idle
  have hlocks : ¬ 32 ≤ s.xlt.locked + (s.xlt.opBusy.filter fun o => (o.map (·.1)) == some 2).length := by
    have hnone : (s.xlt.opBusy.filter fun o => (o.map (·.1)) == some 2) = [] := by simp [h.ops]
    rw [hnone]
    exact Nat.not_le.2 h.locks
  have hlens : (!x.mgmt && code != 7 && !s.lensOfPart x.part x.addr) = false := by
    rcases h.lens with hm | hm <;> simp [hm]
  show (if (!Csrp.reaches { mgmt := x.mgmt, part := x.srcPart } (some x.part) || !(s.part x.part).active) = true then _ else
    if (code == 0 || decide (8 ≤ code)) = true then _
    else if (x.addr % 8 != 0) = true then _
    else if (((s.accessed.tdcLatched x).pws.getD x.part {}).tdcBusy || (s.res.active && s.res.part == x.part) ||
        (code == 2 && !(((s.xlt.at (tdcKey x)).map (·.2.lock)).getD false) &&
          decide (32 ≤ s.xlt.locked + (s.xlt.opBusy.filter fun o => (o.map (·.1)) == some 2).length))) = true then _
    else if (!x.mgmt && code != 7 && !s.lensOfPart x.part x.addr) = true then _
    else (s.tdcTaken x).tdcRun x.part code (x.kind == 1) x.addr x.data) = _
  rw [hreach, hcode, halign, hidle, h.resilver, hlens, decide_eq_false hlocks]
  simp

/-- What an accepted operation leaves: its answer, and the lines, windows of reduction and configuration as they were. -/
def State.TdcAnswers (s t : State) : Prop :=
  t.Sends (.csrp .ok 0) ∧ t.arr = s.arr ∧ t.dir = s.dir ∧ t.wins = s.wins ∧ t.cfg = s.cfg

/-- R391: the window shows its operation complete. -/
def State.TdcDone (t : State) (p : Nat) : Prop :=
  (t.pws.getD p {}).tdcBusy = false ∧ (t.pws.getD p {}).tdcDone = true ∧ (t.pws.getD p {}).tdcCode = .ok

/-- R391: the window shows its operation in progress. -/
def State.TdcWaits (t : State) (x : TdcCmd) (code : Nat) : Prop :=
  (t.pws.getD x.part {}).tdcBusy = true ∧ (t.pws.getD x.part {}).tdcDone = false ∧
    t.xlt.opBusy.getD x.part none = some (code, x.kind == 1, x.addr)

/-- The end of an accepted operation that `tdcRun` has taken to `y`. -/
theorem State.TakesTdc.run {s : State} {x : TdcCmd} (h : s.TakesTdc x) {i : Instr} {code : Nat} (hi : exec i s = tdcRow i code x s)
    (hc : 1 ≤ code ∧ code ≤ 7) {y : State} (hrun : (s.tdcTaken x).tdcRun x.part code (x.kind == 1) x.addr x.data = y)
    (hy : (s.tdcTaken x).XltOnly y) :
    ∃ t, exec i s = .next t ∧ s.TdcAnswers t ∧ s.accessed.XltEnds y t := by
  obtain ⟨t, ht, hends⟩ := ((s.xltOnly_tdcTaken x h.bad).trans hy).finish h.service
  refine ⟨t, hi.trans ?_, ⟨hends.sends _ (hy.sends _ (State.sends_emit _ _)), hends.arr, hends.dir, hends.wins, hends.cfg⟩, hends⟩
  unfold tdcRow
  rw [h.csrGate_accessed, h.tdcOp hc, hrun, ht]

/-! ### Values brought into the TDC and unlocked (R319) -/

/-- R391: what a completed operation shows. -/
theorem State.tdcStat_done {p : Nat} {s t : State} (hp : p < s.pws.length) (ht : t.pws = (s.tdcStat p false true .ok).pws) :
    t.TdcDone p := by
  unfold State.TdcDone
  rw [ht, State.tdcStat_shows hp]
  exact ⟨rfl, rfl, rfl⟩

/-- R319: a value that the TDC holds is there at once. -/
theorem State.tdcPreload_held {s : State} {p : Nat} {k : XKey} {i : Nat} {e : TdcEnt} (hat : s.xlt.at k = some (i, e))
    (hperr : e.perr = false) (lock : Bool) :
    s.tdcPreload p lock k = ((s.tdcStat p true false .ok).setXlt (XltUnit.install k e.value lock)).tdcStat p false true .ok := by
  have hget : (s.tdcStat p true false .ok).tdcGet (8 + p) none k false false = (.val e.value, s.tdcStat p true false .ok) := by
    have hat' : (s.tdcStat p true false .ok).xlt.at k = some (i, e) := hat
    simp [State.tdcGet, hat', hperr]
  unfold State.tdcPreload
  dsimp only
  rw [hget]

/-- R319: the operation of window `p` is recorded. -/
def XltUnit.withOp (p : Nat) (o : Option (Nat × Bool × Nat)) (x : XltUnit) : XltUnit := { x with opBusy := x.opBusy.set p o }

@[simp] theorem XltUnit.withOp_tdc (p : Nat) (o : Option (Nat × Bool × Nat)) (x : XltUnit) : (x.withOp p o).tdc = x.tdc := rfl
@[simp] theorem XltUnit.withOp_change (p : Nat) (o : Option (Nat × Bool × Nat)) (x : XltUnit) : (x.withOp p o).change = x.change := rfl
@[simp] theorem XltUnit.withOp_opBusy (p : Nat) (o : Option (Nat × Bool × Nat)) (x : XltUnit) :
    (x.withOp p o).opBusy = x.opBusy.set p o := rfl

theorem XltUnit.withOp_getD {p : Nat} {x : XltUnit} (hp : p < x.opBusy.length) (o : Option (Nat × Bool × Nat)) :
    (x.withOp p o).opBusy.getD p none = o := by
  simp [List.getD_eq_getElem?_getD, hp]

/-- R318, R319: a value that nothing holds is fetched. -/
theorem State.tdcPreload_absent {s : State} {p : Nat} {k : XKey} (hat : s.xlt.at k = none) (hside : s.xlt.side = [])
    (hfetch : s.xlt.fetches = []) (lock : Bool) :
    s.tdcPreload p lock k =
      ((s.tdcStat p true false .ok).tdcFetch { cls := 8 + p, part := k.1, desc := k.2.1, addr := k.2.2 }).setXlt
        (XltUnit.withOp p (some (if lock then 2 else 1, k.2.1, k.2.2))) := by
  have hget : (s.tdcStat p true false .ok).tdcGet (8 + p) none k false false =
      (.wait k, (s.tdcStat p true false .ok).tdcFetch { cls := 8 + p, part := k.1, desc := k.2.1, addr := k.2.2 }) := by
    have hat' : (s.tdcStat p true false .ok).xlt.at k = none := hat
    have hside' : (s.tdcStat p true false .ok).xlt.side = [] := hside
    have hfetch' : (s.tdcStat p true false .ok).xlt.fetches = [] := hfetch
    simp [State.tdcGet, hat', State.sideParity, hside', State.tdcMiss, hfetch', XltUnit.fetchOf]
  unfold State.tdcPreload
  dsimp only
  rw [hget]
  rfl

/-- R318: a fetch is under way. -/
def XltUnit.fetching (f : TdcFetch) (x : XltUnit) : XltUnit := { x with fetches := x.fetches ++ [f] }

/-- R318: a fetch that is started, and what else changes with it. -/
theorem State.tdcFetch_only (f : TdcFetch) {s : State} (hb : s.bad = []) :
    s.XltOnly (s.tdcFetch f) ∧ (s.tdcFetch f).xlt = s.xlt.fetching f ∧ (s.tdcFetch f).pws = s.pws := by
  let u : State := (s.setXlt (XltUnit.fetching f)).act 21 1
  have hu : s.XltOnly u := ⟨⟨_, _, _, _, _, _, _, _, _, _, _, _, _, _, _, _, rfl⟩, fun _ hf => hf⟩
  have hread : u.Outer (s.tdcFetch f) := (u.outer_count Ev.tdcMiss (some f.part)).trans (State.outer_memSend _ (by simp) _)
  have hub : u.bad = [] := hb
  exact ⟨hu.trans (hread.xltOnly hub), hread.xlt hub, hread.pws hub⟩

/-- R319: a preload of a value that the TDC holds completes, and may lock it. -/
theorem State.TakesTdc.preload_held {s : State} {x : TdcCmd} (h : s.TakesTdc x) {i : Instr} (lock : Bool)
    (hi : exec i s = tdcRow i (if lock then 2 else 1) x s) {n : Nat} {e : TdcEnt} (hat : s.xlt.at (tdcKey x) = some (n, e))
    (hperr : e.perr = false) :
    ∃ t, exec i s = .next t ∧ s.TdcAnswers t ∧ t.TdcDone x.part ∧
      (t.xlt.at (tdcKey x)).map (·.2) = some { e with lock := e.lock || lock } := by
  obtain ⟨t, he, hans, hends⟩ := h.run hi (by cases lock <;> decide) (y := _)
    ((by cases lock <;> rfl : _ = (s.tdcTaken x).tdcPreload x.part lock (tdcKey x)).trans
      (State.tdcPreload_held (by rw [State.tdcTaken_xlt]; exact hat) hperr lock))
    ((State.xltOnly_tdcStat ..).trans ((State.xltOnly_setXlt ..).trans (State.xltOnly_tdcStat ..)))
  have hxlt : t.xlt = s.xlt.install (tdcKey x) e.value lock := by
    rw [← s.tdcTaken_xlt x]
    exact hends.xlt
  refine ⟨t, he, hans, State.tdcStat_done ?_ hends.pws, ?_⟩
  · exact h.taken_window.trans_eq (List.length_modify ..).symm
  · rw [hxlt, XltUnit.at_install_held hat]
    simp [← hperr]

/-- R319: an operation of window `p` that waits for a fetch or for the end of its change. -/
def State.tdcBusy (p code : Nat) (desc : Bool) (addr : Nat) (s : State) : State :=
  (s.tdcStat p true false .ok).setXlt (XltUnit.withOp p (some (code, desc, addr)))

theorem State.xltOnly_tdcBusy (p code : Nat) (desc : Bool) (addr : Nat) (s : State) : s.XltOnly (s.tdcBusy p code desc addr) :=
  (State.xltOnly_tdcStat ..).trans (State.xltOnly_setXlt ..)

theorem State.tdcBusy_xlt (p code : Nat) (desc : Bool) (addr : Nat) (s : State) :
    (s.tdcBusy p code desc addr).xlt = s.xlt.withOp p (some (code, desc, addr)) := rfl

theorem State.asks_tdcBusy {s : State} {r : MemReq} (h : s.Asks r) (p code : Nat) (desc : Bool) (addr : Nat) :
    (s.tdcBusy p code desc addr).Asks r := h

/-- R391: what an operation shows that waits, whatever came between its acceptance and its record in `TDC_STAT`. -/
theorem State.TakesTdc.waits {s t y : State} {x : TdcCmd} (h : s.TakesTdc x) {code : Nat} (hy : y.pws = (s.tdcTaken x).pws)
    (hpws : t.pws = (y.tdcStat x.part true false .ok).pws)
    (hops : t.xlt.opBusy = s.xlt.opBusy.set x.part (some (code, x.kind == 1, x.addr))) : t.TdcWaits x code := by
  have hp : x.part < y.pws.length := hy ▸ h.taken_window
  unfold State.TdcWaits
  rw [hpws, State.tdcStat_shows hp, hops, h.ops]
  exact ⟨rfl, rfl, by simp [List.getD_eq_getElem?_getD, h.window]⟩

/-- R318, R319: a value that nothing holds is fetched, and the operation waits for it. -/
theorem State.TakesTdc.preload_absent {s : State} {x : TdcCmd} (h : s.TakesTdc x) {i : Instr} (lock : Bool)
    (hi : exec i s = tdcRow i (if lock then 2 else 1) x s) (hat : s.xlt.at (tdcKey x) = none) (hfetch : s.xlt.fetches = []) :
    ∃ t, exec i s = .next t ∧ s.TdcAnswers t ∧ t.TdcWaits x (if lock then 2 else 1) ∧
      t.xlt.fetches = [{ cls := 8 + x.part, part := x.part, desc := x.kind == 1, addr := x.addr }] := by
  have htaken := s.tdcTaken_xlt x
  obtain ⟨honly, hxlt, hpws⟩ := State.tdcFetch_only { cls := 8 + x.part, part := x.part, desc := x.kind == 1, addr := x.addr }
    (s := (s.tdcTaken x).tdcStat x.part true false .ok) h.taken_calm.1
  obtain ⟨t, he, hans, hends⟩ := h.run hi (by cases lock <;> decide) (y := _)
    ((by cases lock <;> rfl : _ = (s.tdcTaken x).tdcPreload x.part lock (tdcKey x)).trans
      (State.tdcPreload_absent (htaken.symm ▸ hat) (htaken.symm ▸ h.side) (htaken.symm ▸ hfetch) lock))
    ((State.xltOnly_tdcStat ..).trans (honly.trans (State.xltOnly_setXlt ..)))
  have hx := hends.xlt.trans (congrArg (XltUnit.withOp x.part (some (if lock then 2 else 1, x.kind == 1, x.addr))) hxlt)
  refine ⟨t, he, hans, h.waits (y := s.tdcTaken x) rfl (hends.pws.trans hpws) ?_, ?_⟩
  · rw [hx, ← htaken]
    rfl
  · rw [hx]
    exact congrArg (· ++ [_]) (htaken.symm ▸ hfetch : (s.tdcTaken x).xlt.fetches = [])

/-! ### Operations that change the TDC (R319, R321) -/

/-- R319: `UNLOCK` drops the lock of the tag's entry. -/
def XltUnit.unlocked (k : XKey) (x : XltUnit) : XltUnit :=
  { x with tdc := x.tdc.map fun (e : Option TdcEnt) => e.map fun (e : TdcEnt) => if e.key == k then { e with lock := false } else e }

theorem XltUnit.lock_unlocked {k : XKey} {x : XltUnit} {e : TdcEnt} (h : some e ∈ (x.unlocked k).tdc) (hk : e.key = k) :
    e.lock = false := by
  obtain ⟨o, -, ho⟩ := List.mem_map.1 h
  obtain ⟨e', rfl, he⟩ := Option.map_eq_some_iff.1 ho
  split at he
  · rw [← he]
  · next hne => exact absurd (by rw [he, hk]; exact beq_self_eq_true k) hne

/-- R319: an unlock completes at once. -/
theorem State.TakesTdc.unlock {s : State} {x : TdcCmd} (h : s.TakesTdc x) :
    ∃ t, exec (.tdcUnlock x) s = .next t ∧ s.TdcAnswers t ∧ t.TdcDone x.part ∧
      ∀ e, some e ∈ t.xlt.tdc → e.key = tdcKey x → e.lock = false := by
  obtain ⟨t, he, hans, hends⟩ := h.run (i := .tdcUnlock x) (code := 3) rfl (by decide) (y := _) rfl
    ((State.xltOnly_setXlt (XltUnit.unlocked (tdcKey x)) _).trans (State.xltOnly_tdcStat ..))
  refine ⟨t, he, hans, State.tdcStat_done (s := s.tdcTaken x) h.taken_window hends.pws, fun e hmem hk => ?_⟩
  rw [hends.xlt] at hmem
  exact XltUnit.lock_unlocked (x := (s.tdcTaken x).xlt) hmem hk

/-- R319: the value of every entry of an address and kind is `v`. -/
def XltUnit.written (desc : Bool) (addr : Nat) (v : Word) (x : XltUnit) : XltUnit :=
  let up (e : TdcEnt) : TdcEnt := if e.desc == desc && e.addr == addr then { e with value := v, perr := false } else e
  { x with tdc := x.tdc.map fun (e : Option TdcEnt) => e.map up, side := x.side.map up,
           fetches := x.fetches.map fun (f : TdcFetch) => if f.sector addr then { f with stale := true } else f }

theorem XltUnit.value_written {desc : Bool} {addr : Nat} {v : Word} {x : XltUnit} {e : TdcEnt}
    (h : some e ∈ (x.written desc addr v).tdc) (hd : e.desc = desc) (ha : e.addr = addr) : e.value = v := by
  obtain ⟨o, -, ho⟩ := List.mem_map.1 h
  obtain ⟨e', rfl, he⟩ := Option.map_eq_some_iff.1 ho
  split at he
  · rw [← he]
  · next hne => exact absurd (by rw [he, hd, ha]; simp) hne

/-- R319: the write of a TDC operation to memory. -/
def tdcMemWrite (port p addr : Nat) (v : Word) : MemReq :=
  { port := port, mopc := 4, addr := addr, size := 3, part := p, use := .tdcWrite p,
    data := some (BitVec.ofNat 512 (v.toNat * 2 ^ (8 * (addr % 64))), false) }

/-- R319, R321: with no walk and no transaction a value is written to every entry and to memory, and the change is in progress. -/
theorem State.tdcWriteAll_only {s : State} (hb : s.bad = []) (ht : s.txns = []) (hw : s.walks = []) (p : Nat) (desc : Bool)
    (addr : Nat) (v : Word) :
    s.XltOnly (s.tdcWriteAll p desc addr v) ∧ (s.tdcWriteAll p desc addr v).xlt = (s.xlt.written desc addr v).changing p ∧
      (s.tdcWriteAll p desc addr v).pws = s.pws ∧ ∃ port, (s.tdcWriteAll p desc addr v).Asks (tdcMemWrite port p addr v) := by
  let u : State := (s.setXlt (XltUnit.written desc addr v)).setXlt (XltUnit.changing p)
  have hu : s.XltOnly u := (State.xltOnly_setXlt ..).trans (State.xltOnly_setXlt ..)
  have heq : s.tdcWriteAll p desc addr v =
      u.writeUc addr 3 p (BitVec.ofNat 512 (v.toNat * 2 ^ (8 * (addr % 64)))) false (.tdcWrite p) :=
    congrArg (State.writeUc addr 3 p (BitVec.ofNat 512 (v.toNat * 2 ^ (8 * (addr % 64)))) false (.tdcWrite p))
      (State.changeOpen_calm (s := s.setXlt (XltUnit.written desc addr v)) ht hw p _)
  obtain ⟨houter, hasks⟩ := State.writeUc_asks addr 3 p (BitVec.ofNat 512 (v.toNat * 2 ^ (8 * (addr % 64)))) false
    (use := .tdcWrite p) (by simp) (s := u) (hu.bad.trans hb)
  rw [heq]
  exact ⟨hu.trans (houter.xltOnly (hu.bad.trans hb)), houter.xlt (hu.bad.trans hb), houter.pws (hu.bad.trans hb), _, hasks⟩

/-- R319: `WRITE` and `ZERO_ENTRY`, which leave `v` in every entry of the address and kind, whatever else `g` does to the unit. -/
theorem State.TakesTdc.writes {s : State} {x : TdcCmd} (h : s.TakesTdc x) {i : Instr} {code : Nat} (hi : exec i s = tdcRow i code x s)
    (hc : 1 ≤ code ∧ code ≤ 7) {v : Word} (g : XltUnit → XltUnit)
    (hrun : (s.tdcTaken x).tdcRun x.part code (x.kind == 1) x.addr x.data =
      (((s.tdcTaken x).tdcWriteAll x.part (x.kind == 1) x.addr v).setXlt g).tdcBusy x.part code (x.kind == 1) x.addr)
    (hg : ∀ y : XltUnit, (g y).opBusy = y.opBusy ∧ (g y).change = y.change ∧
      ∀ e, some e ∈ (g y).tdc → some e ∈ y.tdc ∨ e.value = v) :
    ∃ t r, exec i s = .next t ∧ s.TdcAnswers t ∧ t.TdcWaits x code ∧ t.xlt.change.getD x.part false = true ∧
      (∀ e, some e ∈ t.xlt.tdc → e.desc = (x.kind == 1) → e.addr = x.addr → e.value = v) ∧
      r ∈ t.memOut ++ t.memWait ∧ r.use = .tdcWrite x.part ∧ r.mopc = 4 ∧ r.addr = x.addr ∧ r.size = 3 ∧
      r.data = some (BitVec.ofNat 512 (v.toNat * 2 ^ (8 * (x.addr % 64))), false) := by
  obtain ⟨hb, ht, hw⟩ := h.taken_calm
  obtain ⟨honly, hxlt, hpws, port, hasks⟩ := State.tdcWriteAll_only hb ht hw x.part (x.kind == 1) x.addr v
  obtain ⟨t, he, hans, hends⟩ := h.run hi hc hrun (honly.trans ((State.xltOnly_setXlt ..).trans (State.xltOnly_tdcBusy ..)))
  have hx := hends.xlt
  rw [State.tdcBusy_xlt, State.setXlt_xlt, hxlt, s.tdcTaken_xlt x] at hx
  obtain ⟨hops, hchange, hmem⟩ := hg ((s.xlt.written (x.kind == 1) x.addr v).changing x.part)
  obtain ⟨_, _, _, _, hr⟩ := hends.asks _ (State.asks_tdcBusy (State.asks_setXlt hasks g) ..)
  refine ⟨t, _, he, hans, h.waits hpws hends.pws ?_, ?_, fun e hin hd ha => ?_, hr, rfl, rfl, rfl, rfl, rfl⟩
  · rw [hx, XltUnit.withOp_opBusy, hops]
    rfl
  · rw [hx, XltUnit.withOp_change, hchange]
    exact XltUnit.changing_at (x := s.xlt.written (x.kind == 1) x.addr v) (h.changes.symm ▸ h.window)
  · rw [hx, XltUnit.withOp_tdc] at hin
    rcases hmem e hin with hold | hnew
    · exact XltUnit.value_written hold hd ha
    · exact hnew

/-- The side buffer does not hold the value of a tag. -/
def XltUnit.withoutSide (k : XKey) (x : XltUnit) : XltUnit := { x with side := x.side.filter fun e => e.key != k }

/-- R319: `ZERO_ENTRY` leaves the value 0 in the TDC, and none in the side buffer. -/
def XltUnit.zeroed (k : XKey) (x : XltUnit) : XltUnit := (x.withoutSide k).install k 0 false

theorem XltUnit.zeroed_keeps (k : XKey) (x : XltUnit) :
    (x.zeroed k).opBusy = x.opBusy ∧ (x.zeroed k).change = x.change ∧
      ∀ e, some e ∈ (x.zeroed k).tdc → some e ∈ x.tdc ∨ e.value = 0 := by
  obtain ⟨-, hops, hchange⟩ := XltUnit.install_lengths k 0 false (x.withoutSide k)
  exact ⟨hops, hchange, fun e he => XltUnit.mem_install (x := x.withoutSide k) he⟩

/-- R319: `INVAL_ADDR` and `INVAL_PART`, which leave no entry that `hit` names. -/
theorem State.TakesTdc.invalidates {s : State} {x : TdcCmd} (h : s.TakesTdc x) {i : Instr} {code : Nat}
    (hi : exec i s = tdcRow i code x s) (hc : 1 ≤ code ∧ code ≤ 7) (hit : XKey → Bool) (stale : TdcFetch → Bool)
    (hrun : (s.tdcTaken x).tdcRun x.part code (x.kind == 1) x.addr x.data =
      ((s.tdcTaken x).tdcChange x.part hit stale).tdcBusy x.part code (x.kind == 1) x.addr) :
    ∃ t, exec i s = .next t ∧ s.TdcAnswers t ∧ t.TdcWaits x code ∧ t.xlt.change.getD x.part false = true ∧
      ∀ e, some e ∈ t.xlt.tdc → hit e.key = false := by
  obtain ⟨-, ht, hw⟩ := h.taken_calm
  rw [State.tdcChange_calm ht hw] at hrun
  obtain ⟨t, he, hans, hends⟩ := h.run hi hc hrun ((State.xltOnly_setXlt ..).trans (State.xltOnly_tdcBusy ..))
  have hx := hends.xlt
  rw [State.tdcBusy_xlt, State.setXlt_xlt, s.tdcTaken_xlt x] at hx
  refine ⟨t, he, hans, h.waits (y := s.tdcTaken x) rfl hends.pws ?_, ?_, fun e hin => ?_⟩
  · rw [hx]
    rfl
  · rw [hx, XltUnit.withOp_change]
    exact XltUnit.changing_at (x := s.xlt.invalidated hit stale) (h.changes.symm ▸ h.window)
  · rw [hx, XltUnit.withOp_tdc, XltUnit.changing_tdc] at hin
    exact XltUnit.tdc_invalidated hin

/-! ### The end of a change and of a fetch (R318, R321) -/

/-- R321: the change of a window is over, and nothing waits for it. -/
def XltUnit.changed (p : Nat) (x : XltUnit) : XltUnit :=
  { x with change := x.change.set p false, changeWait := x.changeWait.filter fun w => w.1 != p }

theorem XltUnit.changed_over (p : Nat) (x : XltUnit) : (x.changed p).change.getD p false = false := by
  by_cases hp : p < x.change.length <;> simp [XltUnit.changed, List.getD_eq_getElem?_getD, hp]

/-- R321: a change completes, and with it the operation that made it. -/
theorem State.changeDone_op {s : State} {p code : Nat} {k : Bool × Nat} (hop : s.xlt.opBusy.getD p none = some (code, k.1, k.2))
    (hc : 4 ≤ code) :
    s.changeDone p = (s.setXlt fun x => (x.changed p).withOp p none).tdcStat p false true .ok := by
  have hop' : (s.setXlt (XltUnit.changed p)).xlt.opBusy.getD p none = some (code, k.1, k.2) := hop
  show (match (s.setXlt (XltUnit.changed p)).xlt.opBusy.getD p none with
    | some (code, _, _) => if 4 ≤ code then _ else _
    | none => _) = _
  rw [hop']
  exact if_pos hc

/-- R321: at rest a change that is due completes. -/
theorem State.AtRest.exec_tdcChangeComplete {s : State} (h : s.AtRest) {p code : Nat} {k : Bool × Nat} (hdue : s.changeDue p = true)
    (hout : s.memOut = []) (hop : s.xlt.opBusy.getD p none = some (code, k.1, k.2)) (hc : 4 ≤ code) :
    ∃ t, exec (.tdcChangeComplete p) s = .next t ∧
      s.fresh0.XltEnds ((s.fresh0.setXlt fun x => (x.changed p).withOp p none).tdcStat p false true .ok) t := by
  obtain ⟨t, ht, hends⟩ := ((State.xltOnly_setXlt (fun x => (x.changed p).withOp p none) s.fresh0).trans
    (State.xltOnly_tdcStat p false true .ok _)).finish h.service
  refine ⟨t, ?_, hends⟩
  rw [← ht, ← State.changeDone_op (s := s.fresh0) hop hc]
  show (if s.fclkRuns && s.changeDue p && !s.memOut.any (fun r => r.use == .tdcWrite p) &&
    !s.memWait.any (fun r => r.use == .tdcWrite p) then finish (s.fresh0.changeDone p) else s.notDue) = _
  rw [h.fclkRuns, hdue, hout, h.ports]
  rfl

/-- R319: with no operation of the window nothing waits there for a value. -/
theorem State.opsFor_none {s : State} {k : XKey} (hop : s.xlt.opBusy.getD k.1 none = none) : s.opsFor k = s := by
  unfold State.opsFor
  rw [hop]

/-- With no walk none waits for a fetch. -/
theorem State.wakeWalks_calm {s : State} (hw : s.walks = []) (f : TdcFetch) (poison : Bool) : s.wakeWalks f poison = s := by
  unfold State.wakeWalks
  rw [hw, List.map_nil, ← hw]

/-- R318: the value that a fetch brings. -/
def TdcFetch.value (g : TdcFetch) (d : Sector) : Word := BitVec.ofNat 64 (d.toNat >>> (8 * (g.addr % 64)))

/-- R318: the fetch is over, and the side buffer does not hold its value. -/
def XltUnit.fetched (g : TdcFetch) (x : XltUnit) : XltUnit := XltUnit.withoutSide g.key { x with fetches := x.fetches.erase g }

/-- A fetch for a translation in progress that no change has marked and that reads no level-3 entry. -/
structure TdcFetch.Plain (g : TdcFetch) : Prop where
  fresh : g.stale = false
  now : g.lookahead = false
  level : g.level3 = false

/-- R318: the value of such a fetch goes to the TDC, when no walk and no operation waits for it. -/
theorem State.fetchBack_value {s : State} {g : TdcFetch} (hg : g.Plain) (hw : s.walks = []) (hop : s.xlt.opBusy.getD g.part none = none)
    (d : Sector) : s.fetchBack g d false = s.setXlt fun x => (x.fetched g).install g.key (g.value d) false := by
  let u : State := s.setXlt fun x => (x.fetched g).install g.key (g.value d) false
  have hop' : u.xlt.opBusy.getD g.key.1 none = none := by
    show ((s.xlt.fetched g).install g.key (g.value d) false).opBusy.getD g.part none = none
    rw [(XltUnit.install_lengths ..).2.1]
    exact hop
  have heq : s.fetchBack g d false = (u.opsFor g.key).wakeWalks g false := by
    unfold State.fetchBack
    simp only [hg.fresh, hg.now, hg.level, Bool.false_and, Bool.false_eq_true, if_false]
    rfl
  rw [heq, State.opsFor_none hop', State.wakeWalks_calm (s := u) hw]

/-- R32, R318: at rest the sector of a fetch is taken from its port for the TDC. -/
theorem State.AtRest.memFlit_tdc {s : State} (h : s.AtRest) {f : MemFlit} {r : MemReq} {g : TdcFetch} (hf : f.flips = 0)
    (hl : r.left = 1) (hu : r.use = .tdc g.cls) (hg : s.xlt.fetchOf g.cls = some g) (i : Instr) :
    ∃ v, s.fresh0.XltOnly v ∧ v.xlt = s.xlt ∧ v.memOut = s.memOut.erase r ∧
      s.fresh0.memFlit i r f = (v.fetchBack g f.data f.poison).walksGo := by
  obtain ⟨a, o, x, n, hflit, -⟩ := State.memFlit_serve (s := s.fresh0) (State.memGate_serve h.service h.clock h.reset) h.bad i r hf
  have hout : (s.fresh0.takeRead r).memOut = s.memOut.erase r := if_pos hl.le
  rw [hout] at hflit
  obtain ⟨x', n', hmeasure⟩ :=
    State.measure_calm 9 (some r.part) { s.fresh0 with memOut := s.memOut.erase r, acts := a, sig := o, hist := x, fresh := n } h.bad
  refine ⟨_, ⟨⟨_, _, _, _, _, _, _, _, _, _, _, _, _, _, _, _, hmeasure⟩, fun y hy => ?_⟩, ?_, ?_, hflit.trans ?_⟩
  · rw [hmeasure]
    exact hy
  · rw [hmeasure]
    rfl
  · rw [hmeasure]
  · unfold State.readBack
    rw [hu]
    dsimp only
    rw [show s.fresh0.xlt.fetchOf g.cls = some g from hg]

/-- R318: at rest the sector of a plain fetch gives the TDC its value. -/
theorem State.AtRest.exec_tdcFetchComplete {s : State} (h : s.AtRest) {f : MemFlit} {r : MemReq} {g : TdcFetch} (hf : f.flips = 0)
    (hpois : f.poison = false) (hr : s.readAt f.port f.mtag = some r) (hl : r.left = 1) (hu : r.use = .tdc g.cls)
    (hg : s.xlt.fetchOf g.cls = some g) (hplain : g.Plain) (hop : s.xlt.opBusy.getD g.part none = none) :
    ∃ x t, exec (.tdcFetchComplete f) s = .next t ∧ s.fresh0.XltEnds x t ∧ x.memOut = s.memOut.erase r ∧
      x.xlt = (s.xlt.fetched g).install g.key (g.value f.data) false := by
  obtain ⟨v, hv, hxlt, hout, hflit⟩ := h.memFlit_tdc hf hl hu hg (.tdcFetchComplete f)
  have hwalks : v.walks = [] := hv.walks.trans h.walks
  have hranges : v.ranges = [] := hv.ranges.trans h.ranges
  rw [hpois, State.fetchBack_value hplain hwalks (hxlt.symm ▸ hop), State.walksGo_calm (by exact hwalks) (by exact hranges)] at hflit
  obtain ⟨t, ht, hends⟩ :=
    (hv.trans (State.xltOnly_setXlt (fun x => (x.fetched g).install g.key (g.value f.data) false) v)).finish h.service
  refine ⟨_, t, ?_, hends, hout, ?_⟩
  · rw [← ht, ← hflit]
    show (match s.readAt f.port f.mtag with
      | some r => (match r.use with
        | .tdc _ => finish (s.fresh0.memFlit (.tdcFetchComplete f) r f)
        | _ => s.notDue)
      | none => s.notDue) = _
    rw [hr]
    dsimp only
    rw [hu]
  · rw [State.setXlt_xlt, hxlt]

end Sys2Proof.Machine

open Sys2Proof Sys2Proof.Machine

/-- Settles O37: an accepted operation is a preload, an unlock, a write or an invalidation; the last two wait for their change, whose
end completes them, and a plain fetch puts its value in the TDC. -/
theorem tdcCommands : Obligations.TdcCommands := by
  refine ⟨?_, ?_, ?_⟩
  · intro s x hrest _ hreach hlens hactive halign hwindows hwindow hops hchanges hside hidle hlocks
    have h : s.TakesTdc x :=
      ⟨hrest, hreach, hlens, hactive, halign, hwindows, hwindow, hops, hchanges, hside, hidle, hlocks⟩
    refine ⟨?_, h.unlock, ?_, ?_⟩
    · intro p hp
      simp only [List.mem_cons, List.not_mem_nil, or_false] at hp
      rcases hp with rfl | rfl
      · exact ⟨fun n e hat hperr => h.preload_held false rfl hat hperr, fun hat hfetch => h.preload_absent false rfl hat hfetch⟩
      · exact ⟨fun n e hat hperr => h.preload_held true rfl hat hperr, fun hat hfetch => h.preload_absent true rfl hat hfetch⟩
    · intro p hp
      simp only [List.mem_cons, List.not_mem_nil, or_false] at hp
      rcases hp with rfl | rfl
      · exact h.writes (code := 4) rfl (by decide) id rfl fun y => ⟨rfl, rfl, fun e he => .inl he⟩
      · exact h.writes (code := 5) rfl (by decide) (XltUnit.zeroed (tdcKey x)) rfl (XltUnit.zeroed_keeps _)
    · intro p hp
      simp only [List.mem_cons, List.not_mem_nil, or_false] at hp
      rcases hp with rfl | rfl
      · obtain ⟨t, he, hans, hwaits, hchange, hgone⟩ := h.invalidates (i := .tdcInvalAddr x) (code := 6) rfl (by decide)
          (· == tdcKey x) (fun f => f.part == x.part && f.desc == (x.kind == 1) && f.sector x.addr) rfl
        exact ⟨t, he, hans, hwaits, hchange, fun e hmem => beq_eq_false_iff_ne.1 (hgone e hmem)⟩
      · obtain ⟨t, he, hans, hwaits, hchange, hgone⟩ := h.invalidates (i := .tdcInvalPart x) (code := 7) rfl (by decide)
          (fun k => k.1 == x.part) (fun f => f.part == x.part) rfl
        exact ⟨t, he, hans, hwaits, hchange, fun e hmem => beq_eq_false_iff_ne.1 (hgone e hmem)⟩
  · intro s p code k h _ hp hwindows hops _ hdue hout hop hc
    obtain ⟨t, he, hends⟩ := h.exec_tdcChangeComplete hdue hout hop hc
    have hx : t.xlt = (s.xlt.changed p).withOp p none := hends.xlt
    obtain ⟨hbusy, hdone, hcode⟩ := State.tdcStat_done (hwindows.symm ▸ hp) hends.pws
    refine ⟨t, he, ?_, ?_, hbusy, hdone, hcode, ?_, hends.arr, hends.dir, hends.wins, hends.cfg⟩
    · rw [hx]
      exact XltUnit.changed_over p s.xlt
    · rw [hx]
      exact XltUnit.withOp_getD (x := s.xlt.changed p) (hops.symm ▸ hp) none
    · rw [hx]
      rfl
  · intro s f r g h _ hf hpois hr hl hu _ hg hstale hahead h3 hat hop _ hfree
    obtain ⟨x, t, he, hends, hout, hx⟩ := h.exec_tdcFetchComplete hf hpois hr hl hu hg ⟨hstale, hahead, h3⟩ hop
    obtain ⟨hvalue, hothers⟩ := XltUnit.at_install_free (x := s.xlt.fetched g) hat hfree (g.value f.data) false
    have hxlt := hends.xlt.trans hx
    refine ⟨t, he, ?_, hends.memOut.trans hout, ?_, fun k v hk hv => ?_, hends.arr, hends.dir, hends.wins, hends.cfg⟩
    · rw [hxlt, XltUnit.install_fetches]
      rfl
    · rw [hxlt]
      exact hvalue
    · rw [hxlt, hothers k hk]
      exact hv

end

section

/-! Proofs about the requests for `CONFIG`: the statement O42 (sitting 11). -/

namespace Sys2Proof.Machine
open Sys2Proof

/-! ### The ends of meanings -/

/-- The end of a meaning in `CONFIG`. -/
theorem finish_of_config {s : State} (h : s.power.state = .config) : finish s = .next s.settle :=
  finish_of_debugRuns (State.debugRuns_false (by simp [h]) (by simp [h]))

/-- R143: with no provisional entry there is none to void. -/
theorem State.cfgVoid_calm {s : State} (h : s.prov = []) : s.cfgVoid = s := by
  have hself : { s with prov := [] } = s := by rw [← h]
  unfold State.cfgVoid State.voidEnts
  rw [h, List.map_nil, List.foldl_nil, hself, ite_self]

/-- R359: a drain for `CONFIG` that finds neither a directory entry nor dirty data has nothing to do. -/
theorem State.drainGo_clean {s : State} (hcfg : s.power.cfgDrain = true) (hdir : s.dir = [])
    (hclean : ∀ c ∈ s.arr, c.anyDirty = false) : s.drainGo = s := by
  have harr : s.arr.filter (fun (c : CLine) => c.anyDirty && !c.resid) = [] :=
    List.filter_eq_nil_iff.2 fun c hc => by simp [hclean c hc]
  simp [State.drainGo, State.drainLeft, hcfg, hdir, harr]

/-- The end of a meaning while a drain for `CONFIG` runs takes nothing up in a slice that would be idle but for the drain, and that
holds neither a directory entry nor dirty data. -/
theorem State.Idle.tidy_draining {s : State} (h : State.Idle { s with power := { s.power with cfgDrain := false } })
    (hcfg : s.power.cfgDrain = true) (hdir : s.dir = []) (hclean : ∀ c ∈ s.arr, c.anyDirty = false) : s.tidy = s := by
  have htxns : s.txns = [] := h.txns
  have hprov : s.prov = [] := h.prov
  have hlist : s.span.holders = [] := h.holders
  have hbuckets : s.hand.buckets = [] := h.buckets
  have hprovs : s.provsGo = s := by simp [State.provsGo, hprov]
  have hholders : s.holdersGo = s := by unfold State.holdersGo; rw [hlist, List.foldl_nil, ← hlist]
  have hpump : s.pumpOps = s := by simp [State.pumpOps, htxns]
  have hctl : s.ctlGo = s := by simp [State.ctlGo, htxns]
  have hwins : s.winsGo = s := foldl_id _ _ _ fun w _ => by
    have hafter : (s.win w).after = [] := by
      unfold State.win
      rw [List.getD_eq_getElem?_getD]
      cases hx : s.wins[w]? with
      | none => rfl
      | some x => exact h.after x (List.mem_of_getElem? hx)
    rw [hafter]
    rfl
  have hrel : s.releasesGo = s := by simp [State.releasesGo, hbuckets]
  unfold State.tidy
  rw [State.cfgVoid_calm hprov, hprovs, hholders, hpump, hctl, hwins, hpump, hrel, State.drainGo_clean hcfg hdir hclean, ite_self]

/-! ### Management writes in `CONFIG` (R366, R422) -/

/-- A management write acts in a slice in `CONFIG` with no work under way. -/
theorem State.Still.mgmtWrite_config {s : State} (h : s.Still) (hc : s.power.state = .config) (i : Instr) {src : Csrp}
    (hm : src.mgmt = true) (act : State → State) : mgmtWrite i src act s = finish (act s.accessed) := by
  have ha : s.asleep = false := by simp [State.asleep, hc]
  have hgate (f : State → State) : s.fresh0.csrGate i f = f s.fresh0.wakeUp.notIdle := by
    show (if s.power.rstLow then _ else if s.asleep then _ else if s.power.relock then _ else _) = _
    rw [h.reset, ha, h.clock]
    rfl
  have hwake : s.fresh0.wakeUp.notIdle = s.accessed := by
    show State.notIdle (if s.asleep then _ else if s.power.sleepPh == .offDrain then _ else _) = _
    rw [ha, h.phase]
    rfl
  unfold Sys2Proof.Machine.mgmtWrite
  rw [hgate, hwake, hm, if_pos rfl]

/-! ### Writes of `PRESC_CTL` (R353, R359) -/

/-- `CFG_REQ` = 1 that is not refused. -/
theorem State.prescCtl_request {s : State} (h : s.cfgReqErr false = .ok) :
    s.prescCtl false (some true) = (s.csrp .ok 0).cfgReqSet := by
  unfold State.prescCtl
  simp [h]

/-- `CFG_REQ` = 1 that is refused. -/
theorem State.prescCtl_request_busy {s : State} (h : s.cfgReqErr false = .busy) :
    s.prescCtl false (some true) = s.csrp .busy 0 := by
  unfold State.prescCtl
  simp [h]

/-- `CFG_REQ` = 0 is never refused. -/
theorem State.prescCtl_clear (s : State) : s.prescCtl false (some false) = (s.csrp .ok 0).cfgReqUnset := rfl

/-- R359: in `SERVICE` a drain for `CONFIG` begins. -/
def State.draining (s : State) : State :=
  { s with fab := s.fab.mapIdx fun p c => { c with keptReq := c.keptReq + s.parked p }, power := { s.power with cfgDrain := true },
           presc := { s.presc with cfgReq := true } }

theorem State.cfgReqSet_service {s : State} (hs : s.power.state = .service) (hd : s.power.cfgDrain = false) :
    s.cfgReqSet = s.draining.tidy := by
  unfold State.cfgReqSet
  rw [hs, hd]
  rfl

/-- Log entry 64: in `CONFIG` the field is set and nothing else happens. -/
theorem State.cfgReqSet_config {s : State} (hc : s.power.state = .config) :
    s.cfgReqSet = { s with presc := { s.presc with cfgReq := true } } := by
  unfold State.cfgReqSet
  rw [hc]
  rfl

/-- R359: in `CONFIG`, with a configuration in force and no load under way, `CFG_REQ` = 0 returns to `SERVICE`. -/
theorem State.cfgReqUnset_config {s : State} (hc : s.power.state = .config) (hd : s.power.cfgDrain = false)
    (hreq : s.presc.cfgReq = true) (hcfg : s.cfg.inForce = true) (hp : s.presc.phase = .idle) :
    s.cfgReqUnset = State.enterService { s with presc := { s.presc with cfgReq := false } } := by
  unfold State.cfgReqUnset
  simp [hc, hd, hreq, hcfg, hp]

/-- The drain that begins at rest, with no provisional entry, directory entry or dirty data, has nothing to do. -/
theorem State.AtRest.tidy_draining {s : State} (h : s.AtRest) (hp : s.prov = []) (hdir : s.dir = [])
    (hclean : ∀ c ∈ s.arr, c.anyDirty = false) :
    State.tidy (State.draining (s.accessed.csrp .ok 0)) =
      State.draining { s.accessed with out := s.accessed.out ++ [.csrp .ok 0] } := by
  rw [State.csrp_eq]
  exact State.Idle.tidy_draining ⟨h.txns, hp, h.holders, h.buckets, h.after, rfl, h.phase, h.resilver⟩ rfl hdir hclean

/-- R359: at rest an accepted request for `CONFIG` begins the drain, which goes on as far as it can. -/
theorem State.AtRest.exec_cfgReq {s : State} (h : s.AtRest) {src : Csrp} (hm : src.mgmt = true) (hr : s.cfgRefused = false) :
    exec (.cfgReq src) s = finish (State.tidy (State.draining (s.accessed.csrp .ok 0))) := by
  have hok : s.accessed.cfgReqErr false = .ok := by
    show (if _ && _ && (false || s.cfgRefused) then Err.busy else .ok) = _
    rw [hr, Bool.or_self, Bool.and_false, if_neg (by decide)]
  refine (h.mgmtWrite _ hm _).trans (congrArg finish ?_)
  refine (State.prescCtl_request hok).trans ?_
  rw [State.csrp_eq]
  exact State.cfgReqSet_service (by exact h.service) (by exact h.config)

/-- R359: at rest a request for `CONFIG` is refused while a window, a bucket on the move, a load or a resilver stands against it. -/
theorem State.AtRest.exec_cfgReq_busy {s : State} (h : s.AtRest) {src : Csrp} (hm : src.mgmt = true) (hr : s.cfgRefused = true) :
    exec (.cfgReq src) s = finish (s.accessed.csrp .busy 0) := by
  have hbusy : s.accessed.cfgReqErr false = .busy := by
    show (if s.power.state == .service && !s.power.cfgDrain && (false || s.cfgRefused) then Err.busy else .ok) = _
    rw [h.service, h.config, hr]
    rfl
  exact (h.mgmtWrite _ hm _).trans (congrArg finish (State.prescCtl_request_busy hbusy))

/-- Log entry 64: a request for `CONFIG` in `CONFIG`. -/
theorem State.Still.exec_cfgReq_config {s : State} (h : s.Still) (hc : s.power.state = .config) {src : Csrp} (hm : src.mgmt = true) :
    exec (.cfgReq src) s = finish { s.accessed.csrp .ok 0 with presc := { s.presc with cfgReq := true } } := by
  have hok : s.accessed.cfgReqErr false = .ok := by
    show (if s.power.state == .service && _ && _ then Err.busy else .ok) = _
    rw [hc]
    rfl
  refine (h.mgmtWrite_config hc _ hm _).trans (congrArg finish ?_)
  refine (State.prescCtl_request hok).trans ?_
  rw [State.csrp_eq]
  exact State.cfgReqSet_config (by exact hc)

/-- R359: `CFG_REQ` = 0 in `CONFIG` with a configuration in force. -/
theorem State.Still.exec_cfgReqClear_config {s : State} (h : s.Still) (hc : s.power.state = .config) {src : Csrp} (hm : src.mgmt = true)
    (hreq : s.presc.cfgReq = true) (hcfg : s.cfg.inForce = true) (hp : s.presc.phase = .idle) :
    exec (.cfgReqClear src) s =
      finish (State.enterService { s.accessed.csrp .ok 0 with presc := { s.presc with cfgReq := false } }) := by
  refine (h.mgmtWrite_config hc _ hm _).trans (congrArg finish ?_)
  refine (State.prescCtl_clear s.accessed).trans ?_
  rw [State.csrp_eq]
  exact State.cfgReqUnset_config (by exact hc) (by exact h.config) (by exact hreq) (by exact hcfg) (by exact hp)

/-- R359 step 6: the end of the drain. -/
theorem exec_configDrainComplete {s : State} (hf : s.fclkRuns = true) (hd : s.cfgDrained = true) :
    exec .configDrainComplete s = finish { s.fresh0 with power := { s.power with state := .config, cfgDrain := false } } := by
  show (if s.fclkRuns && s.cfgDrained then _ else _) = _
  rw [hf, hd]
  rfl

end Sys2Proof.Machine

open Sys2Proof Sys2Proof.Machine

/-- Settles O42: each write of `CFG_REQ` answers and sets the field; the drain that an accepted one begins finds nothing to void or to
write back, and the end of a drain and `CFG_REQ` = 0 move the slice between `CONFIG` and `SERVICE`. -/
theorem configRequests : Obligations.ConfigRequests := by
  refine ⟨fun s src h hm => ⟨fun hr hp hdir hclean => ?_, fun hr => ?_⟩, fun s src h hc hm => ?_, fun s hf hd => ?_,
    fun s src h hm hc hreq hcfg hp => ?_⟩
  · rw [h.exec_cfgReq hm hr, h.tidy_draining hp hdir hclean, finish_of_service (by exact h.service)]
    exact ⟨_, rfl, .inl (List.mem_singleton.2 rfl), rfl, rfl, h.service, rfl, rfl, rfl, rfl⟩
  · rw [h.exec_cfgReq_busy hm hr, State.csrp_eq, finish_of_service (by exact h.service)]
    exact ⟨_, rfl, .inl (List.mem_singleton.2 rfl), h.config, rfl, h.service, rfl, rfl, rfl, rfl⟩
  · rw [h.exec_cfgReq_config hc hm, State.csrp_eq, finish_of_config (by exact hc)]
    exact ⟨_, rfl, .inl (List.mem_singleton.2 rfl), rfl, hc, h.config, rfl, rfl, rfl, rfl⟩
  · rw [exec_configDrainComplete hf hd, finish_of_config rfl]
    exact ⟨_, rfl, rfl, rfl, rfl, rfl, rfl, rfl, rfl⟩
  · rw [h.exec_cfgReqClear_config hc hm hreq hcfg hp, State.csrp_eq, finish_of_service rfl]
    exact ⟨_, rfl, .inl (List.mem_singleton.2 rfl), rfl, rfl, rfl, rfl, rfl, rfl, rfl⟩

end

section

/-! Proofs about the loading of prescriptions: the statement O41 (sitting 11). -/

namespace Sys2Proof.Machine
open Sys2Proof

/-! ### `GO` (R353, R355) -/

/-- R31, R32: an uncached read stands at its port, and only meters and ports have changed. -/
theorem State.readUc_asks (addr part : Nat) {use : MemUse} (hu : ∀ l i, use ≠ .wback l i) {s : State} (hb : s.bad = []) :
    s.Outer (s.readUc addr part use) ∧
      (s.readUc addr part use).Asks
        { port := s.memPort addr, mopc := 2, addr := addr / 64 * 64, size := 6, part := part, use := use } := by
  refine ⟨s.outer_memSend _ hu, ?_⟩
  unfold State.readUc State.memSend State.memPut
  split
  · exact State.asks_memOutput (by exact hu) hb
  · exact ⟨_, _, _, _, List.mem_append_right _ (List.mem_append_right _ (List.mem_singleton.2 rfl))⟩

/-- R355: every sector of a stream has its place in the order of the fetch. -/
theorem length_prescOrder (len : Nat) : (prescOrder len).length = (len + 63) / 64 := by
  simp only [prescOrder, List.length_append, List.length_drop, List.length_range]
  omega

/-- R355: the fetch of a stream with a length begins with the read of some sector. -/
theorem State.prescNext_asks {s : State} (hb : s.bad = []) (hl : 0 < s.presc.len) (hs : s.presc.sectors = []) :
    s.Outer s.prescNext ∧ ∃ r off, r.mopc = 2 ∧ r.use = .presc off ∧ s.prescNext.Asks r := by
  have hlen : 0 < (prescOrder s.presc.len).length := by
    rw [length_prescOrder]
    omega
  have hfirst : s.prescNext = s.readUc (s.presc.addr + 64 * (prescOrder s.presc.len)[0]) 0
      (.presc (64 * (prescOrder s.presc.len)[0])) := by
    unfold State.prescNext
    rw [hs, List.length_nil, List.getElem?_eq_getElem hlen]
  rw [hfirst]
  obtain ⟨hread, hasks⟩ := State.readUc_asks (s.presc.addr + 64 * (prescOrder s.presc.len)[0]) 0
    (use := .presc (64 * (prescOrder s.presc.len)[0])) (by simp) hb
  exact ⟨hread, _, _, rfl, rfl, hasks⟩

/-- R353, R474: the loader and the measurement block once a load has begun. -/
def State.loadBegun (s : State) : State :=
  State.setMeas (fun (m : Meas) => { m with trans := true })
    { s with presc := { s.presc with phase := .fetch, valid := false, sectors := [], pendDigest := none, todo := none } }

theorem State.prescStart_eq (s : State) : s.prescStart = s.loadBegun.prescNext := rfl

/-- `GO` that is not refused. -/
theorem State.prescCtl_go {s : State} (h : s.goErr = .ok) : s.prescCtl true none = (s.csrp .ok 0).prescStart := by
  unfold State.prescCtl
  simp [h]

/-- `GO` that is refused. -/
theorem State.prescCtl_go_busy {s : State} (h : s.goErr = .busy) : s.prescCtl true none = s.csrp .busy 0 := by
  unfold State.prescCtl
  simp [h]

/-- R353: at rest `GO` is accepted while no load runs. -/
theorem State.AtRest.exec_prescGo {s : State} (h : s.AtRest) {src : Csrp} (hm : src.mgmt = true) (hp : s.presc.phase = .idle) :
    exec (.prescGo src) s = finish (s.accessed.csrp .ok 0).loadBegun.prescNext := by
  have hok : s.accessed.goErr = .ok := by
    show (if s.presc.phase != .idle || s.power.state == .recovery || s.power.state == .init then Err.busy else .ok) = _
    rw [hp, h.service]
    rfl
  exact (h.mgmtWrite _ hm _).trans (congrArg finish (State.prescCtl_go hok))

/-- R353: at rest `GO` is refused while a load runs. -/
theorem State.AtRest.exec_prescGo_busy {s : State} (h : s.AtRest) {src : Csrp} (hm : src.mgmt = true) (hp : s.presc.phase ≠ .idle) :
    exec (.prescGo src) s = finish (s.accessed.csrp .busy 0) := by
  have hbusy : s.accessed.goErr = .busy := by
    show (if s.presc.phase != .idle || s.power.state == .recovery || s.power.state == .init then Err.busy else .ok) = _
    rw [bne_iff_ne.2 hp]
    rfl
  exact (h.mgmtWrite _ hm _).trans (congrArg finish (State.prescCtl_go_busy hbusy))

/-- R353, R355: at rest `GO` with a length is answered with `OK` and asks for a sector of the stream. -/
theorem State.AtRest.prescGo_fetches {s : State} (h : s.AtRest) {src : Csrp} (hm : src.mgmt = true) (hp : s.presc.phase = .idle)
    (hl : 0 < s.presc.len) :
    ∃ t r, exec (.prescGo src) s = .next t ∧ t.Sends (.csrp .ok 0) ∧ t.presc.phase = .fetch ∧ t.presc.valid = false ∧
      t.meas.trans = true ∧ r ∈ t.memOut ++ t.memWait ∧ r.mopc = 2 ∧ (∃ off, r.use = .presc off) ∧ t.arr = s.arr ∧
      t.wins = s.wins ∧ t.cfg = s.cfg := by
  rw [h.exec_prescGo hm hp, State.csrp_eq]
  obtain ⟨hread, r, off, hmopc, huse, _, _, _, _, hasks⟩ :=
    State.prescNext_asks (s := State.loadBegun { s.accessed with out := s.accessed.out ++ [.csrp .ok 0] }) h.bad hl rfl
  have hsends := hread.2 (.csrp .ok 0) (.inl (List.mem_singleton.2 rfl))
  obtain ⟨_, _, _, _, _, _, _, _, _, _, _, _, _, _, hx⟩ := hread.shape h.bad
  rw [hx] at hsends hasks ⊢
  rw [finish_of_service (by exact h.service)]
  exact ⟨_, _, rfl, hsends, rfl, rfl, rfl, hasks, hmopc, ⟨off, huse⟩, rfl, rfl, rfl⟩

/-! ### The checks look at no port and no meter (R356, R362) -/

/-- The lens sets and what their changes depend on are the same. -/
structure State.SameSets (s t : State) : Prop where
  lens : t.lens = s.lens
  arr : t.arr = s.arr
  wins : t.wins = s.wins
  cfg : t.cfg = s.cfg
  pair : t.span.pairLevel = s.span.pairLevel

theorem State.SameSets.refl (s : State) : s.SameSets s := ⟨rfl, rfl, rfl, rfl, rfl⟩

theorem State.SameSets.symm {s t : State} (h : s.SameSets t) : t.SameSets s :=
  ⟨h.lens.symm, h.arr.symm, h.wins.symm, h.cfg.symm, h.pair.symm⟩

theorem State.SameSets.trans {s t u : State} (h : s.SameSets t) (k : t.SameSets u) : s.SameSets u :=
  ⟨k.lens.trans h.lens, k.arr.trans h.arr, k.wins.trans h.wins, k.cfg.trans h.cfg, k.pair.trans h.pair⟩

theorem foldl_sameSets {α} (f : State → α → State) (hf : ∀ (s : State) (a : α), s.SameSets (f s a)) (l : List α) :
    ∀ s : State, s.SameSets (l.foldl f s) := by
  induction l with
  | nil => exact .refl
  | cons a l ih => exact fun s => (hf s a).trans (ih _)

theorem State.sameSets_span (s : State) {p : Span} (h : p.pairLevel = s.span.pairLevel) : s.SameSets { s with span := p } :=
  ⟨rfl, rfl, rfl, rfl, h⟩

theorem State.sameSets_remapLane (lane : Nat) (s : State) : s.SameSets (s.remapLane lane) := ⟨rfl, rfl, rfl, rfl, rfl⟩

theorem State.Counted.sameSets {s t : State} (h : s.Counted t) : s.SameSets t := by
  obtain ⟨_, _, _, _, _, rfl⟩ := h.shape
  exact ⟨rfl, rfl, rfl, rfl, rfl⟩

/-- A frame and what waits for it lie in the span unit. -/
theorem State.SameSets.remapDue {s t : State} (h : s.SameSets t) : s.SameSets t.remapDue := by
  unfold State.remapDue
  have hspan : t.SameSets { t with span := { t.span with remap := t.span.remap.filter fun (x : Nat × Nat) => x.2 != t.span.txSeq } } :=
    t.sameSets_span rfl
  exact (h.trans hspan).trans (foldl_sameSets (fun u (x : Nat × Nat) => u.remapLane x.1) (fun u x => u.sameSets_remapLane x.1) _ _)

theorem State.sameSets_sendFrame (r : Option SpanRec) (s : State) : s.SameSets (s.sendFrame r) := by
  unfold State.sendFrame
  exact .remapDue ⟨rfl, rfl, rfl, rfl, rfl⟩

theorem State.sameSets_spanOut (r : SpanRec) (s : State) : s.SameSets (s.spanOut r) := by
  have hcount := ((s.counted_countN Ev.spanSlotTx none r.slots).trans (State.counted_act 14 r.slots _)).sameSets
  unfold State.spanOut
  refine (hcount.trans (State.sameSets_span _ ?_)).trans (State.sameSets_sendFrame _ _)
  rfl

theorem State.sameSets_spanSend (r : SpanRec) (s : State) : s.SameSets (s.spanSend r) := by
  have huse : s.SameSets (s.use 3 (32 * r.slots)) := by
    obtain ⟨_, hu⟩ := s.use_shape 3 (32 * r.slots)
    rw [hu]
    exact ⟨rfl, rfl, rfl, rfl, rfl⟩
  unfold State.spanSend State.spanPut
  split
  · exact huse.trans (State.sameSets_spanOut _ _)
  · exact huse.trans ⟨rfl, rfl, rfl, rfl, rfl⟩

theorem State.sameSets_binParity (i : Nat) (s : State) : s.SameSets (s.binParity i) := by
  unfold State.binParity
  split <;> exact ⟨rfl, rfl, rfl, rfl, rfl⟩

theorem State.sameSets_measure (src : Nat) (p : Option Nat) (s : State) : s.SameSets (s.measure src p) := by
  refine foldl_sameSets _ (fun t h => ?_) _ s
  dsimp only
  split
  · exact (State.sameSets_binParity _ t).trans ⟨rfl, rfl, rfl, rfl, rfl⟩
  · exact .refl t

/-- The end of an operation of the lens sets is no change of them. -/
theorem State.sameSets_srcDone (src : SwapSrc) (st : Status) (res : List Word) (mark : Nat) (s : State) :
    s.SameSets (s.srcDone src st res mark) := by
  cases src with
  | mailbox w => exact (s.sameSets_measure 11 w).trans ⟨rfl, rfl, rfl, rfl, rfl⟩
  | action i => exact ⟨rfl, rfl, rfl, rfl, rfl⟩

section

variable {s t : State} (h : s.SameSets t)

include h

theorem State.SameSets.with_lens (l : LensUnit) : State.SameSets { s with lens := l } { t with lens := l } :=
  ⟨rfl, h.arr, h.wins, h.cfg, h.pair⟩

theorem State.SameSets.lensSlot (i : Nat) : t.lensSlot i = s.lensSlot i := by simp only [State.lensSlot, h.lens]

theorem State.SameSets.ownCount (i : Nat) : t.ownCount i = s.ownCount i := by simp only [State.ownCount, h.arr]

theorem State.SameSets.slotKind (i : Nat) : t.slotKind i = s.slotKind i := by
  unfold State.slotKind
  rw [h.lensSlot, h.ownCount]

theorem State.SameSets.verifies (i : Nat) (l : LensSlot) : t.verifies i l = s.verifies i l := by
  simp only [State.verifies, State.verifyOn, State.mirrorOf, h.lensSlot, h.cfg, h.pair]

/-- R413: `VER` records are no change of the sets, and which slots wait for them depends on the sets alone. -/
theorem State.SameSets.sendVers : s.sendVers.SameSets t.sendVers := by
  have hsend (u : State) : State.SameSets
      { u with lens := { u.lens with slots := u.lens.slots.mapIdx fun i l =>
        { l with unverified := ((List.range 256).filter fun i => u.verifies i (u.lensSlot i)).contains i } } } u.sendVers := by
    unfold State.sendVers
    dsimp only
    split
    · exact .refl _
    · refine foldl_sameSets _ (fun v i => ?_) _ _
      split
      · split
        · exact v.sameSets_spanSend _
        · exact .refl v
      · exact .refl v
  refine ((hsend s).symm.trans ?_).trans (hsend t)
  simp only [h.verifies, h.lensSlot, h.lens]
  exact h.with_lens _

/-- R123: the exchange of the sets depends on the sets alone. -/
theorem State.SameSets.swapSets : s.swapSets.SameSets t.swapSets := by
  unfold State.swapSets
  simp only [h.lens]
  exact (h.with_lens _).sendVers

/-- R125: so does a persistence change. -/
theorem State.SameSets.setPers (i src dst pers : Nat) : (s.setPers i src dst pers).SameSets (t.setPers i src dst pers) := by
  have hready {u v : State} (k : u.SameSets v) (c : Nat) (e : Bool) : (u.slotReady i c e 0).SameSets (v.slotReady i c e 0) :=
    ⟨k.lens, k.arr, k.wins, k.cfg, k.pair⟩
  unfold State.setPers
  dsimp only
  rw [h.lensSlot, h.slotKind, h.lens]
  split
  · exact hready h _ _
  · split
    · exact hready h _ _
    · split
      · exact hready h _ _
      · exact hready (h.with_lens _).sendVers _ _

/-- R120, R361: so does the replacement of the shadow set. -/
theorem State.SameSets.replaceShadow (ds : Option (List Desc)) (tint : Option (BitVec 32)) (bare : Bool) :
    (s.replaceShadow ds tint bare).SameSets (t.replaceShadow ds tint bare) := by
  unfold State.replaceShadow
  simp only [h.lens, h.lensSlot]
  exact h.with_lens _

/-- R124: so does each change that was accepted, whoever is told of its end. -/
theorem State.SameSets.lensOp (o : LensOp) : (s.lensOp o).SameSets (t.lensOp o) := by
  have hcount : s.countsOp.SameSets t.countsOp := by
    unfold State.countsOp
    rw [h.lens]
    exact h.with_lens _
  cases o with
  | swap src =>
    exact ((State.sameSets_srcDone src .done [] 0 _).symm.trans hcount.swapSets).trans (State.sameSets_srcDone src .done [] 0 _)
  | setPers i src dst pers => exact hcount.setPers i src dst pers
  | partialSets ds tint => exact hcount.replaceShadow ds tint true

end

/-- R124: and so do the changes that wait, in their order. -/
theorem State.SameSets.runLens (n : Nat) : ∀ {s t : State}, s.SameSets t → (s.runLens n).SameSets (t.runLens n) := by
  induction n with
  | zero => exact fun h => h
  | succ n ih =>
    intro s t h
    unfold State.runLens
    rw [h.lens]
    split
    · exact h
    · split
      · exact h
      · exact ih ((h.with_lens _).lensOp _)

/-- R362: the sets once the changes that wait have been performed. -/
theorem State.SameSets.lensSettled {s t : State} (h : s.SameSets t) : s.lensSettled.SameSets t.lensSettled := by
  unfold State.lensSettled
  rw [h.lens]
  exact (h.with_lens _).runLens _

theorem State.SameSets.bellSets {s t : State} (h : s.SameSets t) (full : Bool) (ds : Option (List Desc)) :
    t.bellSets full ds = s.bellSets full ds := by
  simp only [State.bellSets, State.lensSets, h.lens]

theorem State.SameSets.slotTaken {s t : State} (h : s.SameSets t) (d : Desc) : t.slotTaken d = s.slotTaken d := by
  simp only [State.slotTaken, h.slotKind, h.lensSlot, h.ownCount]

/-- R356: the outcome of the checks is that of the state before the step. -/
theorem State.prescCheck_fresh0 (b : List (BitVec 8)) (s : State) : s.fresh0.prescCheck b = s.prescCheck b := by
  have hsets : s.lensSettled.SameSets s.fresh0.lensSettled := State.SameSets.lensSettled ⟨rfl, rfl, rfl, rfl, rfl⟩
  have h6 (cx : PrescCtx) (l : List Sect) : s.fresh0.stage6 s.fresh0.lensSettled cx l = s.stage6 s.lensSettled cx l := by
    unfold State.stage6
    simp only [hsets.bellSets]
    rfl
  have h8 (full : Bool) (l : List Sect) : s.fresh0.stage8 s.fresh0.lensSettled full l = s.stage8 s.lensSettled full l := by
    unfold State.stage8 State.windowOmitted
    simp only [hsets.slotTaken, hsets.wins]
    rfl
  unfold State.prescCheck
  dsimp only
  simp only [h6, h8]
  rfl

/-! ### The records of a CUE section (R274, R284) -/

/-- Of the cue unit only the slots, the `DUE` queue and what a channel counts differ; no channel has another entry. -/
structure State.ArmsOnly (s t : State) : Prop where
  shape : ∃ chans slots due ctr sig,
    t = { s with cue := { s.cue with chans := chans, slots := slots, due := due }, ctr := ctr, sig := sig }
  cfgs : t.cue.chans.map (·.cfg) = s.cue.chans.map (·.cfg)

theorem State.ArmsOnly.refl (s : State) : s.ArmsOnly s := ⟨⟨_, _, _, _, _, rfl⟩, rfl⟩

theorem State.ArmsOnly.trans {s t u : State} (h : s.ArmsOnly t) (k : t.ArmsOnly u) : s.ArmsOnly u where
  shape := by
    obtain ⟨_, _, _, _, _, rfl⟩ := h.shape
    obtain ⟨_, _, _, _, _, rfl⟩ := k.shape
    exact ⟨_, _, _, _, _, rfl⟩
  cfgs := k.cfgs.trans h.cfgs

theorem State.ArmsOnly.bad {s t : State} (h : s.ArmsOnly t) : t.bad = s.bad := by
  obtain ⟨_, _, _, _, _, rfl⟩ := h.shape
  rfl

/-- What an update of one element keeps in it, it keeps in all. -/
theorem map_modify_keeps {α β : Type} {f : α → α} {g : α → β} (h : ∀ x, g (f x) = g x) (l : List α) (i : Nat) :
    (l.modify i f).map g = l.map g := by
  refine List.ext_getElem (by simp) fun k _ _ => ?_
  simp only [List.getElem_map, List.getElem_modify]
  split
  · exact h _
  · rfl

theorem State.armsOnly_placeRec (words : List Word) (s : State) : s.ArmsOnly (s.placeRec words) := by
  unfold State.placeRec
  split
  · exact ⟨⟨_, _, _, _, _, rfl⟩, map_modify_keeps (f := Chan.restart) (g := (·.cfg)) (fun _ => rfl) _ _⟩
  · exact ⟨⟨_, _, _, _, _, rfl⟩, rfl⟩

/-- R274, R448: with no parity error slots become `DUE`. -/
theorem State.armsOnly_makeDue {s : State} (hb : s.bad = []) (is : List Nat) (count : BitVec 32) (stalled : Bool) :
    s.ArmsOnly (s.makeDue is count stalled) := by
  have hread : is.foldl (fun (t : State) i => t.entryRead (.slot i) 6 i) s = s :=
    foldl_id _ _ s fun i _ => by simp [State.entryRead, hb]
  obtain ⟨l, hl⟩ := State.setSlots_shape (ActSlot.fired count stalled) is s
  have heq : s.makeDue is count stalled = { s with cue := { s.cue with slots := l, due := s.cue.due ++ is } } := by
    unfold State.makeDue
    rw [hread]
    exact congrArg (fun t : State => { t with cue := { t.cue with due := t.cue.due ++ is } }) hl
  rw [heq]
  exact ⟨⟨_, _, _, _, _, rfl⟩, rfl⟩

theorem State.armsOnly_armRec {s : State} (hb : s.bad = []) (words : List Word) : s.ArmsOnly (s.armRec words) := by
  have hplace := s.armsOnly_placeRec words
  rw [State.armRec_eq]
  split
  · have hdue := State.armsOnly_makeDue (hplace.bad.trans hb) [recSlot words]
      ((s.placeRec words).chan (armedRec words).chan).applied false
    refine (hplace.trans hdue).trans ?_
    unfold State.count
    rw [State.countN_calm _ _ _ _ (hdue.bad.trans (hplace.bad.trans hb))]
    exact ⟨⟨_, _, _, _, _, rfl⟩, rfl⟩
  · exact hplace

theorem foldl_armsOnly (recs : List (List Word)) :
    ∀ s : State, s.bad = [] → s.ArmsOnly (recs.foldl (fun t r => t.armRec r) s) := by
  induction recs with
  | nil => exact fun s _ => .refl s
  | cons r recs ih =>
    exact fun s hb => (State.armsOnly_armRec hb r).trans (ih _ ((State.armsOnly_armRec hb r).bad.trans hb))

/-- The records of a section are armed, and their slots fire in ascending order. -/
theorem State.armsOnly_records {s : State} (hb : s.bad = []) (recs : List (List Word)) (n : Nat) :
    s.ArmsOnly ((recs.foldl (fun t r => t.armRec r) s).dueSorted n) :=
  (foldl_armsOnly recs s hb).trans ⟨⟨_, _, _, _, _, rfl⟩, rfl⟩

/-- R284: a channel that a partial prescription loads has the entry of its section. -/
theorem Chan.reload_cfg (x : Chan) (c : ChanCfg) : (x.reload c).cfg = c := by
  unfold Chan.reload
  split
  · next h => exact eq_of_beq h
  · split
    · rfl
    · split <;> rfl

/-! ### The outcome of the checks (R356, R358) -/

/-- Only the loader, the measurement block, the log, the REGULATE section that waits, the cue unit but for its queues, the meters and
what left the ports differ. -/
def State.LoadOnly (s t : State) : Prop :=
  ∃ reg presc meas elog chans ranges slots due ctr acks sig out,
    t = { s with reg := reg, presc := presc, meas := meas, elog := elog, ctr := ctr, acks := acks, sig := sig, out := out,
                 cue := { s.cue with chans := chans, ranges := ranges, slots := slots, due := due } }

theorem State.LoadOnly.trans {s t u : State} (h : s.LoadOnly t) (k : t.LoadOnly u) : s.LoadOnly u := by
  obtain ⟨_, _, _, _, _, _, _, _, _, _, _, _, rfl⟩ := h
  obtain ⟨_, _, _, _, _, _, _, _, _, _, _, _, rfl⟩ := k
  exact ⟨_, _, _, _, _, _, _, _, _, _, _, _, rfl⟩

theorem State.loadOnly_fresh0 (s : State) : s.LoadOnly s.fresh0 := ⟨_, _, _, _, _, _, _, _, _, _, _, _, rfl⟩

theorem State.loadOnly_refuse (e : Err) (off : Nat) (s : State) : s.LoadOnly (s.prescRefuse e off) :=
  ⟨_, _, _, _, _, _, _, _, _, _, _, _, rfl⟩

theorem State.loadOnly_ok (p : Presc) (s : State) : s.LoadOnly (s.prescOk p) :=
  ⟨_, _, _, _, _, _, _, _, _, _, _, _, rfl⟩

/-- R358: a full prescription waits to be applied. -/
theorem State.loadOnly_apply (p : Presc) (s : State) :
    s.LoadOnly { s.fresh0 with presc := { s.presc with phase := .apply, todo := some p } } :=
  ⟨_, _, _, _, _, _, _, _, _, _, _, _, rfl⟩

theorem State.ArmsOnly.loadOnly {s t : State} (h : s.ArmsOnly t) : s.LoadOnly t := by
  obtain ⟨_, _, _, _, _, rfl⟩ := h.shape
  exact ⟨_, _, _, _, _, _, _, _, _, _, _, _, rfl⟩

section

variable {s t : State} (h : s.LoadOnly t)

include h

theorem State.LoadOnly.arr : t.arr = s.arr := by obtain ⟨_, _, _, _, _, _, _, _, _, _, _, _, rfl⟩ := h; rfl
theorem State.LoadOnly.dir : t.dir = s.dir := by obtain ⟨_, _, _, _, _, _, _, _, _, _, _, _, rfl⟩ := h; rfl
theorem State.LoadOnly.wins : t.wins = s.wins := by obtain ⟨_, _, _, _, _, _, _, _, _, _, _, _, rfl⟩ := h; rfl
theorem State.LoadOnly.cfg : t.cfg = s.cfg := by obtain ⟨_, _, _, _, _, _, _, _, _, _, _, _, rfl⟩ := h; rfl
theorem State.LoadOnly.power : t.power = s.power := by obtain ⟨_, _, _, _, _, _, _, _, _, _, _, _, rfl⟩ := h; rfl

/-- A slice with no work under way has none after that. -/
theorem State.LoadOnly.idle (hs : s.Still) (hp : s.prov = []) : t.Idle := by
  obtain ⟨_, _, _, _, _, _, _, _, _, _, _, _, rfl⟩ := h
  exact ⟨hs.txns, hp, hs.holders, hs.buckets, hs.after, hs.config, hs.phase, hs.resilver⟩

theorem State.LoadOnly.walksGo (hs : s.Still) : t.walksGo = t := by
  obtain ⟨_, _, _, _, _, _, _, _, _, _, _, _, rfl⟩ := h
  exact State.walksGo_calm hs.walks hs.ranges

end

/-- A slice in `SERVICE` or `CONFIG`. -/
def State.Loads (s : State) : Prop := s.power.state = .service ∨ s.power.state = .config

theorem State.Still.fclkRuns_of_loads {s : State} (h : s.Still) (hs : s.Loads) : s.fclkRuns = true := by
  rcases hs with hs | hs <;> simp [State.fclkRuns, State.asleep, hs, h.clock, h.reset]

theorem finish_of_loads {s : State} (h : s.Loads) : finish s = .next s.settle := by
  rcases h with h | h
  · exact finish_of_service h
  · exact finish_of_config h

/-- R358: the outcome of the checks in a slice with no work under way. -/
theorem State.Still.exec_prescOutcome {s t : State} (h : s.Still) (hs : s.Loads) (hp : s.prov = []) (hc : s.presc.phase = .check)
    (ht : s.fresh0.prescOutcome = t) (hload : s.LoadOnly t) : exec .prescOutcome s = .next t.settle := by
  show (if s.fclkRuns && s.presc.phase == .check then finish s.fresh0.prescOutcome.tidy else _) = _
  rw [h.fclkRuns_of_loads hs, hc, if_pos (by decide), ht, (hload.idle h hp).tidy]
  exact finish_of_loads (by rwa [State.Loads, hload.power])

/-- R358: the outcome of a stream that fails. -/
theorem State.prescOutcome_error {s : State} {e : Err} {off : Nat} (h : s.prescCheck s.presc.bytes = .error (e, off)) :
    s.fresh0.prescOutcome = s.fresh0.prescRefuse e off := by
  unfold State.prescOutcome
  rw [State.prescCheck_fresh0, State.fresh0_presc, h]

/-- R354, R384: what a refusal posts and records. -/
theorem State.prescRefuse_posts (e : Err) (off : Nat) (s : State) :
    (s.prescRefuse e off).presc.phase = .idle ∧ (s.prescRefuse e off).presc.valid = true ∧ (s.prescRefuse e off).presc.code = e ∧
      (s.prescRefuse e off).presc.offset = off ∧
      (s.prescRefuse e off).elog =
        s.elog.place { source := 0x016, addr := e.code + off * 2 ^ 16, detail := uAt s.presc.bytes 24 8 } ∧
      (s.prescRefuse e off).reg.cfg = s.reg.cfg ∧ (s.prescRefuse e off).cue = s.cue :=
  ⟨rfl, rfl, rfl, rfl, rfl, rfl, rfl⟩

/-- R358: a full prescription waits to be applied. -/
theorem State.prescOutcome_full {s : State} {p : Presc} (h : s.prescCheck s.presc.bytes = .ok p) (hf : p.full = true) :
    s.fresh0.prescOutcome = { s.fresh0 with presc := { s.presc with phase := .apply, todo := some p } } := by
  unfold State.prescOutcome
  rw [State.prescCheck_fresh0, State.fresh0_presc, h]
  dsimp only
  rw [hf, if_pos rfl]

/-- R358: a partial prescription is accepted. -/
theorem State.prescOutcome_partial {s : State} {p : Presc} (h : s.prescCheck s.presc.bytes = .ok p) (hf : p.full = false) :
    s.fresh0.prescOutcome = (s.fresh0.acceptPartial p).walksGo := by
  unfold State.prescOutcome
  rw [State.prescCheck_fresh0, State.fresh0_presc, h]
  dsimp only
  rw [hf, if_neg (by decide)]

/-- R300: the REGULATE section of a partial prescription waits for the next grant round. -/
def State.takeRegulate (p : Presc) (s : State) : State :=
  match p.reg with
  | some r => { s with reg := { s.reg with next := some r } }
  | none => s

/-- R361: a partial prescription without lens sets is in force at once. -/
theorem State.acceptPartial_noSets {p : Presc} (hl : p.lens = none) (ht : p.tint = none) (s : State) :
    s.acceptPartial p = State.prescOk p (if p.hasCue then (s.takeRegulate p).loadCue p else s.takeRegulate p) := by
  unfold State.acceptPartial
  rw [hl, ht]
  rfl

theorem State.takeRegulate_keeps (p : Presc) (s : State) :
    s.LoadOnly (s.takeRegulate p) ∧ (s.takeRegulate p).reg.cfg = s.reg.cfg ∧
      (∀ r, p.reg = some r → (s.takeRegulate p).reg.next = some r) ∧ (s.takeRegulate p).cue = s.cue ∧
      (s.takeRegulate p).bad = s.bad := by
  unfold State.takeRegulate
  cases hr : p.reg with
  | none => exact ⟨⟨_, _, _, _, _, _, _, _, _, _, _, _, rfl⟩, rfl, by simp, rfl, rfl⟩
  | some r => exact ⟨⟨_, _, _, _, _, _, _, _, _, _, _, _, rfl⟩, rfl, fun _ h => h, rfl, rfl⟩

/-- R284: the channels and ranges of a partial prescription are loaded. -/
def State.reloadChans (p : Presc) (s : State) : State :=
  { s with cue := { s.cue with chans := (s.cue.chans.zipIdx).map fun x => x.1.reload (p.chans.getD x.2 {}), ranges := p.ranges } }

theorem State.loadCue_eq (p : Presc) (s : State) :
    s.loadCue p = (p.recs.foldl (fun t r => t.armRec r) (s.reloadChans p)).dueSorted s.cue.due.length := rfl

/-- R284: a loaded CUE section gives the entries of the channels and the ranges. -/
theorem State.loadCue_keeps (p : Presc) {s : State} (hb : s.bad = []) :
    s.LoadOnly (s.loadCue p) ∧ (s.loadCue p).reg = s.reg ∧ (s.loadCue p).cue.ranges = p.ranges ∧
      (s.loadCue p).cue.chans.map (·.cfg) = (List.range s.cue.chans.length).map fun i => p.chans.getD i {} := by
  have hcfgs : (s.reloadChans p).cue.chans.map (·.cfg) = (List.range s.cue.chans.length).map fun i => p.chans.getD i {} := by
    refine List.ext_getElem (by simp [State.reloadChans]) fun i _ _ => ?_
    simp [State.reloadChans, Chan.reload_cfg]
  obtain ⟨⟨_, _, _, _, _, hshape⟩, hkeep⟩ := State.armsOnly_records (s := s.reloadChans p) hb p.recs s.cue.due.length
  rw [← State.loadCue_eq] at hshape hkeep
  refine ⟨?_, ?_, ?_, hkeep.trans hcfgs⟩
  · rw [hshape]
    exact ⟨_, _, _, _, _, _, _, _, _, _, _, _, rfl⟩
  · rw [hshape]
    rfl
  · rw [hshape]
    rfl

/-- R361: what an accepted partial prescription without lens sets leaves: `OK` posted, and its sections in force or waiting. -/
theorem State.acceptPartial_loads {p : Presc} (hl : p.lens = none) (ht : p.tint = none) {s : State} (hb : s.bad = []) :
    s.LoadOnly (s.acceptPartial p) ∧ (s.acceptPartial p).presc.phase = .idle ∧ (s.acceptPartial p).presc.valid = true ∧
      (s.acceptPartial p).presc.code = .ok ∧ (s.acceptPartial p).presc.offset = 0 ∧
      (s.acceptPartial p).reg.cfg = s.reg.cfg ∧ (∀ r, p.reg = some r → (s.acceptPartial p).reg.next = some r) ∧
      (p.hasCue = true →
        (s.acceptPartial p).cue.chans.map (·.cfg) = (List.range s.cue.chans.length).map (fun i => p.chans.getD i {}) ∧
          (s.acceptPartial p).cue.ranges = p.ranges) := by
  obtain ⟨hload, hcfg, hnext, hcue, hbad⟩ := s.takeRegulate_keeps p
  rw [State.acceptPartial_noSets hl ht]
  cases hc : p.hasCue with
  | false =>
    exact ⟨hload.trans (State.loadOnly_ok p _), rfl, rfl, rfl, rfl, hcfg, hnext, fun h => absurd h (by decide)⟩
  | true =>
    obtain ⟨hload', hreg, hranges, hcfgs⟩ := State.loadCue_keeps p (hbad.trans hb)
    rw [hcue] at hcfgs
    exact ⟨(hload.trans hload').trans (State.loadOnly_ok p _), rfl, rfl, rfl, rfl, (congrArg RegUnit.cfg hreg).trans hcfg,
      fun r hr => (congrArg RegUnit.next hreg).trans (hnext r hr), fun _ => ⟨hcfgs, hranges⟩⟩

/-! ### What a grant round leaves alone (R296, R297, R301 to R304) -/

/-- A round keeps the configuration, the directory, the ports' credits, the loader, the mailboxes, the power unit and the states of
the windows. -/
structure State.RoundKeeps (s t : State) : Prop where
  cfg : t.cfg = s.cfg
  dir : t.dir = s.dir
  fab : t.fab = s.fab
  presc : t.presc = s.presc
  mbs : t.mbs = s.mbs
  power : t.power = s.power
  wins : t.wins.map (·.st) = s.wins.map (·.st)

theorem State.RoundKeeps.refl (s : State) : s.RoundKeeps s := ⟨rfl, rfl, rfl, rfl, rfl, rfl, rfl⟩

theorem State.RoundKeeps.trans {s t u : State} (h : s.RoundKeeps t) (k : t.RoundKeeps u) : s.RoundKeeps u :=
  ⟨k.cfg.trans h.cfg, k.dir.trans h.dir, k.fab.trans h.fab, k.presc.trans h.presc, k.mbs.trans h.mbs, k.power.trans h.power,
    k.wins.trans h.wins⟩

theorem foldl_roundKeeps {α} (f : State → α → State) (hf : ∀ (s : State) (a : α), s.RoundKeeps (f s a)) (l : List α) :
    ∀ s : State, s.RoundKeeps (l.foldl f s) := by
  induction l with
  | nil => exact .refl
  | cons a l ih => exact fun s => (hf s a).trans (ih _)

theorem State.roundKeeps_reg (s : State) (r : RegUnit) : s.RoundKeeps { s with reg := r } := ⟨rfl, rfl, rfl, rfl, rfl, rfl, rfl⟩

theorem State.Counted.roundKeeps {s t : State} (h : s.Counted t) : s.RoundKeeps t := by
  obtain ⟨_, _, _, _, _, rfl⟩ := h.shape
  exact ⟨rfl, rfl, rfl, rfl, rfl, rfl, rfl⟩

theorem State.roundKeeps_log (r : LogIn) (s : State) : s.RoundKeeps (s.log r) := ⟨rfl, rfl, rfl, rfl, rfl, rfl, rfl⟩

theorem State.roundKeeps_setStatus (b : BitVec 4) (s : State) : s.RoundKeeps (s.setStatus b) := ⟨rfl, rfl, rfl, rfl, rfl, rfl, rfl⟩

theorem State.roundKeeps_pwStatus (p : Nat) (b : BitVec 4) (s : State) : s.RoundKeeps (s.pwStatus p b) :=
  ⟨rfl, rfl, rfl, rfl, rfl, rfl, rfl⟩

/-- R38: tokens need no credit of a port. -/
theorem State.roundKeeps_rego (g res k seq : Nat) (s : State) : s.RoundKeeps (s.emit (.rego g res k seq)) := by
  rw [State.emit_wire rfl]
  exact ⟨rfl, rfl, rfl, rfl, rfl, rfl, rfl⟩

/-- R296: settlement writes the balances, and counts a debit. -/
theorem State.roundKeeps_settleRound (s : State) : s.RoundKeeps s.settleRound := by
  have hbal (t : State) (g r : Nat) : t.RoundKeeps (t.settleBal g r) := by
    unfold State.settleBal
    split <;> exact t.roundKeeps_reg _
  have hall : s.RoundKeeps ((List.range 64).foldl (fun t g => (List.range 5).foldl (fun t r => t.settleBal g r) t) s) :=
    foldl_roundKeeps _ (fun t g => foldl_roundKeeps _ (fun u r => hbal u g r) _ t) _ s
  unfold State.settleRound
  dsimp only
  split
  · exact (hall.trans (State.roundKeeps_reg _ _)).trans (State.counted_countN _ _ 1 _).roundKeeps
  · exact hall.trans (State.roundKeeps_reg _ _)

/-- R300, R304: work in progress goes to new groups; no window changes its state. -/
theorem State.roundKeeps_takeReg (s : State) : s.RoundKeeps s.takeReg := by
  unfold State.takeReg
  split
  · exact ⟨rfl, rfl, rfl, rfl, rfl, rfl, by simp [State.regroupAll]⟩
  · exact .refl s

/-- R303: a report of a change of scale. -/
theorem State.roundKeeps_reportScale (res : Nat) (old new : ResScale) (s : State) : s.RoundKeeps (s.reportScale res old new) := by
  have hcount := (s.roundKeeps_setStatus 4).trans (State.counted_countN Ev.guaranteeScaled none 1 _).roundKeeps
  unfold State.reportScale
  refine (hcount.trans (State.roundKeeps_log _ _)).trans (foldl_roundKeeps _ (fun t p => ?_) _ _)
  split
  · exact t.roundKeeps_pwStatus p 4
  · exact .refl t

/-- R301 to R303: new scale factors, and their report. -/
theorem State.roundKeeps_rescale (took : Bool) (res : Nat) (s : State) : s.RoundKeeps (s.rescale took res) := by
  unfold State.rescale
  dsimp only
  split
  · exact s.roundKeeps_reg _
  · exact (s.roundKeeps_reg _).trans (State.roundKeeps_reportScale _ _ _ _)

theorem State.roundKeeps_sendTokens (g res : Nat) : ∀ (n k : Nat) (s : State), s.RoundKeeps (s.sendTokens g res n k)
  | 0, _, s => .refl s
  | n + 1, k, s => by
    unfold State.sendTokens
    split
    · exact .refl s
    · exact ((s.roundKeeps_reg _).trans (State.roundKeeps_rego _ _ _ _ _)).trans (State.roundKeeps_sendTokens g res n (k - 255) _)

/-- R297: a grant writes a balance and sends its tokens. -/
theorem State.roundKeeps_grant (g res units : Nat) (s : State) : s.RoundKeeps (s.grant g res units) := by
  unfold State.grant
  dsimp only
  split
  · exact s.roundKeeps_reg _
  · exact (s.roundKeeps_reg _).trans (State.roundKeeps_sendTokens _ _ _ _ _)

theorem State.roundKeeps_grantRes (res : Nat) (s : State) : s.RoundKeeps (s.grantRes res) :=
  foldl_roundKeeps _ (fun t _ => t.roundKeeps_grant _ _ _) _ s

/-- R297, R447: a round that finds no fault in the configuration words. -/
theorem State.roundKeeps_grantRound {s : State} (hi : s.test.inject = none) (hu : s.upsets = []) (hb : s.bad = []) :
    s.RoundKeeps s.grantRound := by
  have hread : (s.sign 0x50 0x40000 0x40000 none).cfgRead .reg = s.sign 0x50 0x40000 0x40000 none := State.cfgRead_calm _ _ hi hu hb
  have hsign : s.RoundKeeps (s.sign 0x50 0x40000 0x40000 none) := ⟨rfl, rfl, rfl, rfl, rfl, rfl, rfl⟩
  have htaken := (hsign.trans (State.roundKeeps_settleRound _)).trans (State.roundKeeps_takeReg _)
  unfold State.grantRound
  rw [hread]
  dsimp only
  have hscaled := htaken.trans
    (foldl_roundKeeps _ (fun t r => t.roundKeeps_rescale (s.sign 0x50 0x40000 0x40000 none).reg.next.isSome r) (List.range 5) _)
  split
  · exact hscaled.trans (State.roundKeeps_reg _ _)
  · exact (hscaled.trans (State.roundKeeps_reg _ _)).trans (foldl_roundKeeps _ (fun t r => t.roundKeeps_grantRes r) _ _)

/-! ### A full prescription in force (R257, R360) -/

/-- What the loading of a full prescription's sections leaves: its configuration, no `COLLECTED` window, and as before the
directory, the ports' credits, the mailboxes and the absence of faults. -/
structure State.Installs (p : Presc) (s t : State) : Prop where
  cfg : t.cfg = p.cfg
  dir : t.dir = s.dir
  fab : t.fab = s.fab
  mbs : t.mbs = s.mbs
  inject : t.test.inject = s.test.inject
  upsets : t.upsets = s.upsets
  bad : t.bad = s.bad
  wins : ∀ x ∈ t.wins, x.st ≠ .collected

/-- R257: no window is left `COLLECTED`. -/
theorem State.releaseCollected_wins (s : State) : ∀ x ∈ s.releaseCollected.wins, x.st ≠ .collected := by
  intro x hx
  obtain ⟨w, -, rfl⟩ := List.mem_map.1 hx
  split
  · exact WinState.noConfusion
  · next h => exact fun e => h (beq_iff_eq.2 e)

/-- R118, R274, R360: the sections of a full prescription, when no change of the lens sets waits. -/
theorem State.loadFull_eq (p : Presc) {s : State} (hq : s.lens.queue = []) :
    ∃ arr lens hand reg cue, s.loadFull p =
      (State.releaseCollected (State.dueSorted 0 (p.recs.foldl (fun t r => t.armRec r)
        { s with arr := arr, lens := lens, hand := hand, cfg := p.cfg, reg := reg, cue := cue }))).sendVers := by
  have hlens : s.lensSettled = { s with lens := { s.lens with rebuild := false } } := by
    unfold State.lensSettled
    rw [hq]
    rfl
  unfold State.loadFull
  rw [hlens]
  exact ⟨_, _, _, _, _, rfl⟩

theorem State.installs_loadFull (p : Presc) {s : State} (hq : s.lens.queue = []) (hb : s.bad = []) : s.Installs p (s.loadFull p) := by
  obtain ⟨arr, lens, hand, reg, cue, heq⟩ := State.loadFull_eq p hq
  obtain ⟨⟨_, _, _, _, _, hrecs⟩, -⟩ := State.armsOnly_records
    (s := { s with arr := arr, lens := lens, hand := hand, cfg := p.cfg, reg := reg, cue := cue }) hb p.recs 0
  rw [hrecs] at heq
  generalize hu : State.releaseCollected _ = u at heq
  have hwins : ∀ x ∈ u.wins, x.st ≠ .collected := hu ▸ State.releaseCollected_wins _
  obtain ⟨hcfg, hdir, hfab, hmbs, htest, hupsets, hbad⟩ : u.cfg = p.cfg ∧ u.dir = s.dir ∧ u.fab = s.fab ∧ u.mbs = s.mbs ∧
      u.test = s.test ∧ u.upsets = s.upsets ∧ u.bad = s.bad := by
    subst hu
    exact ⟨rfl, rfl, rfl, rfl, rfl, rfl, rfl⟩
  obtain ⟨-, ⟨_, _, _, _, _, _, _, _, hvers⟩, -⟩ := State.sendVers_slots (hbad.trans hb)
  rw [heq, hvers]
  exact ⟨hcfg, hdir, hfab, hmbs, congrArg TestUnit.inject htest, hupsets, hbad, hwins⟩

/-- R360 step 4: `OK` is posted, and the slice is in `SERVICE` with its credits granted. -/
def State.inService (p : Presc) (s : State) : State :=
  State.enterService { s.prescOk p with presc := { (s.prescOk p).presc with cfgReq := false } }

theorem State.applyFull_eq (p : Presc) (s : State) : s.applyFull p = ((s.loadFull p).inService p).grantRound := rfl

/-- R360: an accepted full prescription is applied, in `CONFIG`. -/
theorem State.Still.exec_fullPrescApplyComplete {s : State} {p : Presc} (h : s.Still) (hc : s.power.state = .config)
    (hph : s.presc.phase = .apply) (ht : s.presc.todo = some p) (hf : p.full = true) :
    exec .fullPrescApplyComplete s = finish (s.fresh0.applyFull p) := by
  change execFullPrescApplyComplete s = _
  unfold execFullPrescApplyComplete
  rw [ht]
  dsimp only
  rw [h.fclkRuns_of_loads (.inr hc), hc, hph, hf]
  rfl

/-- What follows the loading of a full prescription's sections changes neither them nor the directory. -/
theorem State.Still.fullPresc_inForce {s : State} {p : Presc} (h : s.Still) (hc : s.power.state = .config)
    (hph : s.presc.phase = .apply) (ht : s.presc.todo = some p) (hf : p.full = true) (hq : s.lens.queue = []) :
    ∃ t, exec .fullPrescApplyComplete s = .next t ∧ t.cfg = p.cfg ∧ t.power.state = .service ∧ t.presc.phase = .idle ∧
      t.presc.valid = true ∧ t.presc.code = .ok ∧ t.presc.cfgReq = false ∧
      t.fab = s.fab.map (fun c => { c with req := 48, dat := 64, snr := 64, keptReq := 0, keptDat := 0 }) ∧
      (∀ x ∈ t.wins, x.st ≠ .collected) ∧ t.dir = s.dir ∧ t.mbs = s.mbs := by
  have hinst := State.installs_loadFull p (s := s.fresh0) hq h.bad
  rw [h.exec_fullPrescApplyComplete hc hph ht hf, State.applyFull_eq]
  generalize s.fresh0.loadFull p = u at hinst
  have hround := State.roundKeeps_grantRound (s := u.inService p) (hinst.inject.trans h.inject) (hinst.upsets.trans h.upsets)
    (hinst.bad.trans h.bad)
  generalize (u.inService p).grantRound = t at hround
  have hservice : t.power.state = .service := (congrArg Power.state hround.power).trans rfl
  have hwins : ∀ x ∈ t.wins, x.st ≠ .collected := by
    intro x hx
    have hst : x.st ∈ (u.inService p).wins.map (·.st) := by
      rw [← hround.wins]
      exact List.mem_map_of_mem hx
    obtain ⟨y, hy, he⟩ := List.mem_map.1 hst
    rw [← he]
    exact hinst.wins y hy
  rw [finish_of_service hservice]
  refine ⟨t.settle, rfl, hround.cfg.trans hinst.cfg, hservice, congrArg PrescUnit.phase hround.presc,
    congrArg PrescUnit.valid hround.presc, congrArg PrescUnit.code hround.presc, congrArg PrescUnit.cfgReq hround.presc,
    hround.fab.trans ?_, hwins, hround.dir.trans hinst.dir, hround.mbs.trans hinst.mbs⟩
  exact congrArg (List.map _) hinst.fab

end Sys2Proof.Machine

open Sys2Proof Sys2Proof.Machine

/-- Settles O41: `GO` asks for a sector of the stream; the outcome of the checks, which look at no port and no meter
(`State.prescCheck_fresh0`), writes the loader and the sections in force (`State.LoadOnly`); and what follows the loading of a full
prescription, the grant round included, keeps the configuration (`State.RoundKeeps`). -/
theorem prescriptionLoads : Obligations.PrescriptionLoads := by
  refine ⟨fun s src h hm => ⟨fun hp hl => h.prescGo_fetches hm hp hl, fun hp => ?_⟩, fun s e off h hs hp hc herr => ?_,
    fun s p h hs hp hc hok => ?_, fun s p h hc _ hph ht hf hq => h.fullPresc_inForce hc hph ht hf hq⟩
  · rw [h.exec_prescGo_busy hm hp, State.csrp_eq, finish_of_service (by exact h.service)]
    exact ⟨_, rfl, .inl (List.mem_singleton.2 rfl), rfl, rfl, rfl, rfl, rfl, rfl⟩
  · have hload := s.loadOnly_fresh0.trans (State.loadOnly_refuse e off _)
    obtain ⟨hphase, hvalid, hcode, hoff, helog, hreg, hcue⟩ := s.fresh0.prescRefuse_posts e off
    exact ⟨_, h.exec_prescOutcome hs hp hc (State.prescOutcome_error herr) hload, hphase, hvalid, hcode, hoff, helog, hload.arr,
      hload.dir, hload.wins, hload.cfg, hreg, hcue⟩
  · cases hf : p.full with
    | true =>
      exact ⟨_, h.exec_prescOutcome hs hp hc (State.prescOutcome_full hok hf) (s.loadOnly_apply p),
        fun _ => ⟨rfl, rfl, rfl, rfl, rfl, rfl⟩, fun h => absurd h (by decide)⟩
    | false =>
      by_cases hsets : p.lens = none ∧ p.tint = none
      · obtain ⟨hload, hphase, hvalid, hcode, hoff, hreg, hnext, hcue⟩ :=
          State.acceptPartial_loads hsets.1 hsets.2 (s := s.fresh0) h.bad
        replace hload := s.loadOnly_fresh0.trans hload
        have hout := (State.prescOutcome_partial hok hf).trans (hload.walksGo h)
        exact ⟨_, h.exec_prescOutcome hs hp hc hout hload, fun h => absurd h (by decide), fun _ _ _ =>
          ⟨hphase, hvalid, hcode, hoff, hreg, hnext, hcue, hload.arr, hload.dir, hload.wins, hload.cfg⟩⟩
      · have hdue : (s.fclkRuns && s.presc.phase == .check) = true := by rw [h.fclkRuns_of_loads hs, hc]; rfl
        exact ⟨_, if_pos hdue, fun h => absurd h (by decide), fun _ hl ht => absurd ⟨hl, ht⟩ hsets⟩

end

section

/-! Proofs about the measurement lock (sitting 12): a refused write of a staging copy still ends its step (R119), and the statement
O45. -/

namespace Sys2Proof.Machine
open Sys2Proof

/-- A slice in `SERVICE` at rest with the measurement lock set. Slot 0 is free; slot 1 stands in no set and keeps no line, and its
descriptor is carried by a provisional entry alone. -/
def keptByProv : State :=
  { power := { state := .service, rstLow := false }, meas := { locked := true },
    lens := { slots := [{}, { desc := some {} }] },
    prov := [{ agent := 0, port := 0, txid := 0, line := 0, part := 0, lens := some 1, once := false, st := .pending }] }

theorem keptByProv_still : keptByProv.Still :=
  ⟨rfl, rfl, rfl, by decide, rfl, rfl, rfl, rfl, rfl, rfl, rfl, rfl, rfl, rfl, rfl, rfl, rfl, rfl, rfl, rfl, rfl, rfl, rfl, rfl⟩

/-- The provisional entry is what slot 1 stands for. -/
theorem keptByProv_settled : keptByProv.Settled := by
  intro i hd
  match i with
  | 0 => exact absurd hd (by decide)
  | 1 => exact .inr (.inr (.inr (by decide)))
  | _ + 2 => exact absurd hd Bool.false_ne_true

/-- The marks of the slots whose descriptor is kept for something in flight alone. -/
def State.ghosts (s : State) : List Bool := s.lens.slots.map (·.ghost)

/-- R119: the end of the refused write marks slot 1. -/
theorem registerWrite_marks_keptByProv :
    nextView State.ghosts (exec (.registerWrite { mgmt := true } 0x2000 0) keptByProv) = some [false, true] := by
  decide +kernel

end Sys2Proof.Machine

open Sys2Proof Sys2Proof.Machine

/-- Refutes O45 in its last clause, that a write of a staged descriptor refused for the lock leaves all lens slots as they were: a
slot that only a provisional entry carries (R96) meets the premises unmarked, and the end of the step marks it (R119). -/
theorem not_measLockHolds : ¬ Obligations.MeasLockHolds := by
  intro h
  obtain ⟨_, _, _, _, hstage⟩ := h
  obtain ⟨t, ht, -, hslots, -⟩ := hstage keptByProv { mgmt := true } 0 0 0 keptByProv_still rfl rfl rfl keptByProv_settled
    (by decide) (by decide) (by decide) (by decide)
  have hmarks : t.ghosts = [false, true] := view_of_next registerWrite_marks_keptByProv ht
  rw [State.ghosts, hslots] at hmarks
  exact absurd hmarks (by decide)

end

section

/-! Proofs about the queue of commands and the reset state (sitting 12): the statements O1 and O60. -/

namespace Sys2Proof.Machine
open Sys2Proof

theorem State.step_front {s : State} {c : Instr} {rest : List Instr} (h : s.pending = c :: rest) :
    step s = exec c { s with pending := rest } := by
  unfold step
  rw [h]

/-- R437: no lens slot holds anything in the reset state. -/
theorem State.reset_lensSlot (i : Nat) : State.reset.lensSlot i = {} := by
  change (List.replicate 256 ({} : LensSlot)).getD i {} = {}
  rw [List.getD_eq_getElem?_getD, List.getElem?_replicate]
  split <;> rfl

theorem State.reset_settled : State.reset.Settled := by
  intro i h
  rw [State.reset_lensSlot] at h
  exact absurd h Bool.false_ne_true

theorem State.reset_inForm : State.reset.InForm := ⟨rfl, fun _ h => absurd h List.not_mem_nil, List.nodup_nil⟩

theorem State.reset_shaped : State.reset.Shaped := State.reset.shaped_iff.2 State.reset_parts

end Sys2Proof.Machine

open Sys2Proof Sys2Proof.Machine

/-- Settles O1: `step` reads the queue first. -/
theorem stepRunsFront : Obligations.StepRunsFront := fun _ _ _ => State.step_front

/-- Settles O60: the invariants hold of the reset state, and its other parts are what a fresh state has. -/
theorem resetMeetsInvariants : Obligations.ResetMeetsInvariants :=
  ⟨State.reset_settled, State.reset_inForm, State.reset_shaped, rfl, rfl, rfl, rfl, rfl, rfl⟩

end

section

/-! Proofs about span training (sitting 12): the retrain that a warm reset of the twin has caused, and the statement O53. -/

namespace Sys2Proof.Machine
open Sys2Proof

/-! ### An exchange that holds (R397 to R400) -/

/-- R400, R402: notes about the width and the pair level go to the error log. -/
theorem State.noteFallback_shape (old : Span) (s : State) : ∃ e, s.noteFallback old = { s with elog := e } := by
  unfold State.noteFallback
  dsimp only
  split <;> split <;> exact ⟨_, rfl⟩

/-- R398: `CAPS` leaves at once. -/
theorem State.sendCaps_shape (c : Caps) (s : State) : ∃ o g, s.sendCaps c = { s with out := o, sig := g } :=
  ⟨_, _, State.emit_wire rfl s⟩

/-- R399: the checks read the straps and the key alone. -/
theorem State.capsFails_congr {s t : State} (hp : t.power = s.power) (hf : t.fuses = s.fuses) (c : Caps) :
    t.capsFails c = s.capsFails c := by
  unfold State.capsFails
  rw [hp, hf]

/-- R398: the tag is computed over everything but itself. -/
theorem capsTag_tag (key : List (BitVec 8)) (c : Caps) (tag : Word) : capsTag key { c with tag := tag } = capsTag key c := rfl

/-- A twin's words with the tag that the key gives them. -/
def taggedCaps (key : List (BitVec 8)) (c : Caps) : Caps := { c with tag := capsTag key c }

/-- R399: of a message with its tag four checks remain. -/
theorem State.capsFails_tagged (s : State) (c : Caps) :
    s.capsFails (taggedCaps s.fuses.spanKey c) =
      (if bits c.word0.toNat 7 0 != 1 then [1] else []) ++ (if bits c.word0.toNat 19 15 != s.power.straps.index then [3] else []) ++
      (if bits c.word0.toNat 14 14 == s.power.straps.half then [4] else []) ++
      (if bit c.word0.toNat 13 == s.power.straps.primary then [5] else []) := by
  have htag : ((taggedCaps s.fuses.spanKey c).tag != capsTag s.fuses.spanKey (taggedCaps s.fuses.spanKey c)) = false := by
    rw [taggedCaps, capsTag_tag]
    exact bne_self_eq_false _
  unfold State.capsFails
  dsimp only
  rw [htag, if_neg Bool.false_ne_true, List.append_nil]
  rfl

/-- R398: the slice after it has taken the pattern's lanes and sent its `CAPS`. -/
def State.exchanged (lanes : BitVec 18) (c : Caps) (s : State) : State := State.sendCaps c ((s.takeLanes lanes).setLink .caps)

/-- R398: the exchange itself fixes nothing but the direction's state and the receiver's lanes. -/
theorem State.exchanged_shape (lanes : BitVec 18) (c : Caps) (s : State) :
    ∃ o g, s.exchanged lanes c = { (s.takeLanes lanes).setLink .caps with out := o, sig := g } :=
  State.sendCaps_shape c _

/-- R397, R402: a training whose exchange holds ends as one from `DOWN` or as a retrain, in a state that differs from the one before
in the flits, the log and what the exchange fixes of the link. -/
theorem State.trainEnd_holds {s : State} {lanes : BitVec 18} {c : Caps} (hrx : widthOf (s.span.rxFailed ||| ~~~lanes) ≠ 0)
    (hc : s.capsFails c = []) (htx : widthOf (s.txFailed c) ≠ 0) (fresh : Bool) :
    ∃ x : State, s.trainEnd fresh lanes c = (if fresh then x.linkFresh else x.linkAgain s.span) ∧ x.down = s.down ∧
      x.span.replay = s.span.replay ∧ x.span.waitTx = s.span.waitTx := by
  obtain ⟨o, g, hsend⟩ := s.exchanged_shape lanes c
  have hchecks : (s.exchanged lanes c).capsFails c = [] := by
    rw [State.capsFails_congr _ _ c, hc] <;> rw [hsend] <;> rfl
  have hwidth : (widthOf ((s.exchanged lanes c).txFailed c) == 0) = false := by
    rw [hsend]
    exact beq_eq_false_iff_ne.2 htx
  obtain ⟨e, hnote⟩ := State.noteFallback_shape s.span ((s.exchanged lanes c).agree c)
  refine ⟨State.noteFallback s.span ((s.exchanged lanes c).agree c), ?_, ?_, ?_, ?_⟩
  · unfold State.trainEnd
    dsimp only
    change (if _ then _ else match (s.exchanged lanes c).capsFails c with | [] => _ | ks => _) = _
    rw [if_neg (by simpa [State.takeLanes] using hrx), hchecks]
    change (if (widthOf ((s.exchanged lanes c).txFailed c) == 0) = true then _ else _) = _
    rw [hwidth]
    rfl
  all_goals
    rw [hnote, hsend]
    rfl

/-- R397: a link made afresh counts its frames from 0; with no record to send it sends none. -/
theorem State.linkFresh_txSeq {s : State} (hd : s.down = []) (hr : s.span.replay = []) (hw : s.span.waitTx = []) :
    s.linkFresh.span.txSeq = 0 := by
  have hb : s.farBack = s := by simp [State.farBack, hd]
  unfold State.linkFresh
  rw [hb, hr, hw, State.spanFlush_calm rfl]

/-! ### The retrain of the twin's warm reset -/

/-- A slice in `SERVICE` at rest whose twin's warm reset has made both directions retrain, after one frame sent. -/
def afterTwinReset : State :=
  { power := { state := .service, rstLow := false }, span := { st := .retrain, rx := .retrain, twinReset := true, txSeq := 1 } }

theorem afterTwinReset_still : afterTwinReset.Still :=
  ⟨rfl, rfl, rfl, by decide, rfl, rfl, rfl, rfl, rfl, rfl, rfl, rfl, rfl, rfl, rfl, rfl, rfl, rfl, rfl, rfl, rfl, rfl, rfl, rfl⟩

/-- The twin's `CAPS`: version 1, `HALF` and `PRIMARY` 1, all lanes good. -/
def twinCaps : Caps :=
  taggedCaps afterTwinReset.fuses.spanKey { word0 := 1 + 2 ^ 13 + 2 ^ 14 + (2 ^ 18 - 1) * 2 ^ 20, nonce := 0, tag := 0, myNonce := 0 }

theorem twinCaps_holds : afterTwinReset.capsFails twinCaps = [] := (State.capsFails_tagged _ _).trans (by decide)

/-- R397: after this retrain the frames count from 0 again. -/
theorem afterTwinReset_txSeq :
    ∃ x : State, exec (.spanRetrainComplete (BitVec.allOnes 18) twinCaps) afterTwinReset = finish x ∧ x.span.txSeq = 0 := by
  obtain ⟨x, hx, hd, hr, hw⟩ := State.trainEnd_holds (s := afterTwinReset.fresh0) (lanes := BitVec.allOnes 18) (c := twinCaps)
    (by decide) twinCaps_holds (by decide) true
  exact ⟨_, congrArg finish hx, State.linkFresh_txSeq hd hr hw⟩

end Sys2Proof.Machine

open Sys2Proof Sys2Proof.Machine

/-- Refutes O53 in its claim that a retrain whose exchange holds keeps the sequence numbers: the retrain that a warm reset of the
twin has caused makes the link afresh (R397), which the premises do not shut out. -/
theorem not_spanTrains : ¬ Obligations.SpanTrains := by
  intro h
  obtain ⟨-, htrain⟩ := h
  obtain ⟨hholds, -⟩ := htrain afterTwinReset (BitVec.allOnes 18) twinCaps afterTwinReset_still (by decide)
  obtain ⟨-, hretrain⟩ := hholds twinCaps_holds (by decide)
  obtain ⟨t, ht, -, -, -, -, hseq, -⟩ := hretrain rfl
  obtain ⟨x, hx, h0⟩ := afterTwinReset_txSeq
  obtain ⟨_, _, _, _, hedges⟩ := x.settle.edges_shape
  have htx : t = x.settle.edges := (Host.Outcome.next.inj (hx.symm.trans ht)).symm
  rw [htx, hedges] at hseq
  have : x.span.txSeq = 1 := hseq
  omega

end

section

/-! The refutations of O55 and O56 (sitting 12), each by evaluation at a concrete state. -/

namespace Sys2Proof.Machine
open Sys2Proof

/-! ### A relayed request behind a notice of its line that has not left (R144, R407) -/

/-- `voidNoticeHeld` as a slice of a split package whose link is up. -/
def voidNoticeHeldLinked : State :=
  { voidNoticeHeld with
    power := { voidNoticeHeld.power with straps := { split := true } }
    span := { st := .active, rx := .active } }

theorem voidNoticeHeldLinked_atRest : voidNoticeHeldLinked.AtRest :=
  ⟨⟨rfl, rfl, rfl, by decide, rfl, rfl, rfl, rfl, rfl, rfl, rfl, rfl, rfl, rfl, rfl, rfl, rfl, rfl, rfl, rfl, rfl, rfl, rfl, rfl⟩, rfl⟩

theorem voidNoticeHeldLinked_admits : voidNoticeHeldLinked.Admits .zeroLine readLine5 where
  toAtRest := voidNoticeHeldLinked_atRest
  whole := by decide +kernel
  flips := rfl
  clean := by decide
  header := by decide +kernel
  home := by decide +kernel
  scratch := by decide +kernel
  allowed := by decide +kernel
  prov := rfl
  noHeader := by decide +kernel
  noBell := by decide +kernel
  noPlane := by decide +kernel

/-- R144: a relayed `ZERO_LINE` of line 5 waits for the notice; its transaction stands. -/
theorem relayedZeroLine_waits :
    nextView (fun t => t.txns.length) (exec (.spanReqRecord .zeroLine readLine5) voidNoticeHeldLinked) = some 1 := by
  decide +kernel

/-! ### A `VER` record while a kept `CONFIRM` becomes due (R143, R413) -/

/-- The descriptor of a `MIRROR` slot. -/
def mirrorDesc : Desc := { mirror := true }

/-- A slice at rest with its link up at pair level 2, slot 0 mirrored with `VERIFY`, and the entry of line 5 that is to be confirmed. -/
def verWithConfirmDue : State :=
  { power := { state := .service, rstLow := false, straps := { split := true } },
    cfg := { inForce := true, map := List.replicate 1024 0, mirror := [{ slot := 0, fill := false, verify := true }] },
    span := { st := .active, rx := .active, pairLevel := 2 },
    lens := { slots := [{ desc := some mirrorDesc, inAct := true }] }, prov := [confirmDue] }

theorem verWithConfirmDue_atRest : verWithConfirmDue.AtRest :=
  ⟨⟨rfl, rfl, rfl, by decide, rfl, rfl, rfl, rfl, rfl, rfl, rfl, rfl, rfl, rfl, rfl, rfl, rfl, rfl, rfl, rfl, rfl, rfl, rfl, rfl⟩, rfl⟩

/-- R143: the end of the record's acceptance performs the `CONFIRM`, which enters line 5 in the directory. -/
theorem ver_confirms :
    nextView (fun t => t.dir.map (·.line)) (exec (.ver 0 mirrorDesc.base mirrorDesc.size mirrorDesc.hash) verWithConfirmDue) =
      some [5] := by
  decide +kernel

end Sys2Proof.Machine

open Sys2Proof Sys2Proof.Machine

/-- Refutes O55 in its first claim, which does not say what waits in front of the ports: while a `PROV_VOID` of the line waits for a
credit (R144), the home serves no request for the line, so the relayed `ZERO_LINE` keeps its transaction. -/
theorem not_spanRecordsServed : ¬ Obligations.SpanRecordsServed := by
  intro h
  obtain ⟨hreq, -⟩ := h
  obtain ⟨t, ht, -, -, -, -, htxns, -⟩ := hreq voidNoticeHeldLinked readLine5 cachedLine5 (by decide) voidNoticeHeldLinked_admits rfl
    (by decide +kernel) (by decide +kernel) (by decide +kernel)
  have hn : t.txns.length = 1 := view_of_next relayedZeroLine_waits ht
  rw [htxns] at hn
  exact absurd hn (by decide)

/-- Refutes O56 in its claim about `VER`, which has no premise on provisional entries: the end of the command settles them (R143), and
one that holds its `CONFIRM` has its line entered in the directory. -/
theorem not_mirrorRecords : ¬ Obligations.MirrorRecords := by
  intro h
  obtain ⟨-, -, -, hver, -⟩ := h
  obtain ⟨t, ht, -, -, -, hdir, -⟩ := hver verWithConfirmDue 0 mirrorDesc (by decide) verWithConfirmDue_atRest (by decide)
    (by decide) rfl
  have hlines : t.dir.map (·.line) = [5] := view_of_next ver_confirms ht
  rw [hdir] at hlines
  exact absurd hlines (by decide)

end

section

/-! The refutation of O49 (sitting 12), by evaluation. -/

namespace Sys2Proof.Machine
open Sys2Proof

/-! ### The round before `OFF` regroups a collect that waits for its window (R256, R297, R304) -/

/-- A slice whose off drain has left nothing to do, in which a collect waits for window 0, in group 0, the `SELF_GROUP` of partition 0,
and a REGULATE section waits that makes group 1 that `SELF_GROUP`. -/
def drainedWithCollect : State :=
  { power := { state := .service, rstLow := false, sleepPh := .offDrain },
    wins := [{ after := [.collect { d0 := 0, d1 := 0, dst := 0, noOut := true, gen := 0, grp := some 0 }] }],
    reg := { cfg := { selfGroup := [0] }, next := some { selfGroup := [1] } } }

/-- The group of a collect. -/
def WinOp.collectGrp : WinOp → Option Nat
  | .collect c => c.grp
  | _ => none

/-- The groups of the collects that wait for their windows. -/
def State.waitingCollectGroups (s : State) : List (List (Option Nat)) := s.wins.map fun w => w.after.map WinOp.collectGrp

/-- R304: after the round before `OFF` the collect is in group 1. -/
theorem offDrainComplete_regroups :
    nextView State.waitingCollectGroups (exec .offDrainComplete drainedWithCollect) = some [[some 1]] := by
  decide +kernel

end Sys2Proof.Machine

open Sys2Proof Sys2Proof.Machine

/-- Refutes O49 in its claim that the commitment to `OFF` leaves the windows as they were: it ends with a grant round (R297), which
settles work in the groups of a REGULATE section that waits (R304), among it a collect that waits for its window. -/
theorem not_sleepIsEntered : ¬ Obligations.SleepIsEntered := by
  intro h
  obtain ⟨-, hoff, -⟩ := h
  obtain ⟨t, ht, -, -, -, -, -, hwins, -⟩ := hoff drainedWithCollect (by decide) (by decide)
  have hgroups : t.waitingCollectGroups = [[some 1]] := view_of_next offDrainComplete_regroups ht
  rw [State.waitingCollectGroups, hwins] at hgroups
  exact absurd hgroups (by decide)

end

section

/-! The refutation of O35 (sitting 12), by evaluation. -/

namespace Sys2Proof.Machine
open Sys2Proof

/-! ### The drain ends a collect into a window of another partition (R379, R465) -/

/-- A slice at rest with partitions 0 and 1. The mailbox of partition 0 has a collect in progress in window 0, which is a window of
partition 1 and has one line collected. -/
def foreignCollect : State :=
  { power := { state := .service, rstLow := false },
    cfg := { parts := [{ active := true }, { active := true }] },
    mbs := { st := 1 } :: List.replicate 16 {},
    wins := [{ st := .collected, part := 1, colLines := 1,
               col := some { d0 := 0, d1 := 0, dst := 0, noOut := true, gen := 0, mb := some (some 0) } }] }

/-- `RESILVER` of partition 0, drain. -/
def drainPart0 : MbCmd := {}

theorem foreignCollect_atRest : foreignCollect.AtRest :=
  ⟨⟨rfl, rfl, rfl, by decide, rfl, rfl, rfl, rfl, rfl, rfl, rfl, rfl, rfl, rfl, rfl, rfl, rfl, rfl, rfl, rfl, rfl, rfl, rfl, rfl⟩, rfl⟩

theorem foreignCollect_accepts : foreignCollect.Accepts 0x0D (drainPart0.force 0 5 4 0) where
  reach := by decide
  there := by decide
  free := by decide
  ok := by decide +kernel
  powered := rfl
  phase := rfl

/-- What mailbox `p` shows of its results. -/
def State.mbResults (p : Nat) (s : State) : Option (List Word) := s.mbs[p]?.map (·.res)

/-- R379: the command of mailbox 0 ends with the one line that it has collected. -/
theorem resilverDrain_counts_collected :
    nextView (State.mbResults 0) (exec (.resilverDrain drainPart0) foreignCollect) = some (some [1, 0, 0, 0]) := by
  decide +kernel

end Sys2Proof.Machine

open Sys2Proof Sys2Proof.Machine

/-- Refutes O35 in its claim that the drain ends the command of the partition's mailbox with zero results. The results of a collect are
the lines it has collected (R379), and no premise shuts out one into a window of another partition (`foreignCollect`). -/
theorem not_resilverPhases : ¬ Obligations.ResilverPhases := by
  intro h
  obtain ⟨hdrain, -⟩ := h
  obtain ⟨t, ht, -, -, -, -, -, hmb, -⟩ := hdrain foreignCollect drainPart0 foreignCollect_atRest foreignCollect_accepts rfl
    (by decide) rfl rfl rfl (by decide) (by decide) (by decide)
  have hzero : t.mbs[0]? = some { st := 2, isErr := false, code := 4, res := [0, 0, 0, 0] } := hmb { st := 1 } rfl rfl
  have hres : t.mbResults 0 = some [1, 0, 0, 0] := view_of_next resilverDrain_counts_collected ht
  rw [State.mbResults, hzero] at hres
  exact absurd hres (by decide)

end

section

/-! Proofs about scrubbing and the check of configuration words (sitting 12): the statement O46. -/

namespace Sys2Proof.Machine
open Sys2Proof

/-! ### Reads that find no fault (R85, R168, R450) -/

/-- With nothing armed and no upset an access meets no fault. -/
theorem State.faults_calm {s : State} (hi : s.test.inject = none) (hu : s.upsets = []) (p : Inject → Bool) : s.faults p = [] := by
  simp [State.faults, hi, hu]

/-- R450: a sector without a fault costs its bank access. -/
theorem State.scrubSec_calm {s : State} (hi : s.test.inject = none) (hu : s.upsets = []) (key i : Nat) :
    ∃ x, s.scrubSec key i = { s with acts := x } := by
  unfold State.scrubSec
  split
  · split
    · exact ⟨s.acts, rfl⟩
    · unfold State.readData
      dsimp only
      split
      · exact ⟨s.acts, rfl⟩
      · rw [State.faults_calm (s := s.bankRead _) (by exact hi) (by exact hu)]
        exact ⟨_, rfl⟩
  · exact ⟨s.acts, rfl⟩

/-- A chain of steps each of which costs bank accesses alone, where no fault is met, does so too. -/
theorem foldl_acts {α : Type} (f : State → α → State)
    (h : ∀ (s : State) (a : α), s.test.inject = none → s.upsets = [] → ∃ x, f s a = { s with acts := x }) (l : List α) :
    ∀ s : State, s.test.inject = none → s.upsets = [] → ∃ x, l.foldl f s = { s with acts := x } := by
  induction l with
  | nil => exact fun s _ _ => ⟨s.acts, rfl⟩
  | cons a l ih =>
    intro s hi hu
    obtain ⟨x, hx⟩ := h s a hi hu
    obtain ⟨y, hy⟩ := ih { s with acts := x } hi hu
    exact ⟨y, by rw [List.foldl_cons, hx, hy]⟩

/-- R450: a set without a fault costs the bank accesses of its sectors. -/
theorem State.scrubSet_calm {s : State} (hi : s.test.inject = none) (hu : s.upsets = []) (set : Nat) :
    ∃ x, s.scrubSet set = { s with acts := x } := by
  have htags : s.readTags set = s := by
    unfold State.readTags
    rw [State.faults_calm hi hu]
  have hdir : s.readDirSet set = s := by
    unfold State.readDirSet
    rw [State.faults_calm hi hu]
  unfold State.scrubSet
  rw [htags, hdir]
  refine foldl_acts _ (fun t w ht hv => ?_) _ s hi hu
  obtain ⟨x, hx⟩ := State.scrubSec_calm ht hv (set * 32 + w) 0
  rw [hx]
  exact State.scrubSec_calm (s := { t with acts := x }) ht hv _ 1

/-! ### The visits (R450 to R452) -/

theorem State.Still.scrubVisit_awake {s : State} (h : s.Still) (hs : s.power.state = .service ∨ s.power.state = .config) :
    ∃ x, s.fresh0.scrubVisit = { s.fresh0 with
      acts := x, power := { s.power with scrubNext := (s.power.scrubNext + 1) % 65536, scrubDef := s.power.scrubDef - 1 } } := by
  have hrun : s.fresh0.scrubs = true := by
    rcases hs with hs | hs <;> simp [State.scrubs, State.fclkRuns, State.asleep, hs, h.reset, h.clock]
  obtain ⟨x, hx⟩ := State.scrubSet_calm (s := s.fresh0) h.inject h.upsets s.power.scrubNext
  refine ⟨x, ?_⟩
  unfold State.scrubVisit
  rw [if_pos hrun]
  unfold State.scrubStep
  dsimp only [State.fresh0_power]
  rw [hx]
  rfl

theorem State.scrubVisit_asleep {s : State} (hs : s.power.state = .sleep) :
    s.scrubVisit = { s with power := { s.power with scrubDef := min 4096 (s.power.scrubDef + 1) } } := by
  have hrun : s.scrubs = false := by simp [State.scrubs, hs]
  unfold State.scrubVisit
  rw [hrun, hs]
  rfl

/-- The end of a meaning in a slice that runs and shows no debug port. -/
theorem finish_of_running {s : State} (hs : s.power.state = .service ∨ s.power.state = .config) : finish s = .next s.settle :=
  finish_of_debugRuns (State.debugRuns_false (by rcases hs with hs | hs <;> simp [hs]) (by rcases hs with hs | hs <;> simp [hs]))

/-- R451: a forced visit is a visit. -/
theorem exec_scrub {c : Instr} (hc : c ∈ [Instr.scrubVisit, .scrubForce]) (s : State) : exec c s = finish s.fresh0.scrubVisit := by
  rcases List.mem_pair.1 hc with rfl | rfl <;> rfl

theorem State.Still.exec_scrub_awake {s : State} (h : s.Still) {c : Instr} (hc : c ∈ [Instr.scrubVisit, .scrubForce])
    (hs : s.power.state = .service ∨ s.power.state = .config) :
    ∃ t, exec c s = .next t ∧
      t.power = { s.power with scrubNext := (s.power.scrubNext + 1) % 65536, scrubDef := s.power.scrubDef - 1 } ∧
      t.arr = s.arr ∧ t.dir = s.dir ∧ t.elog = s.elog ∧ t.wins = s.wins ∧ t.cfg = s.cfg := by
  obtain ⟨x, hx⟩ := h.scrubVisit_awake hs
  rw [exec_scrub hc, hx, finish_of_running (by exact hs)]
  exact ⟨_, rfl, rfl, rfl, rfl, rfl, rfl, rfl⟩

theorem exec_scrub_asleep {s : State} {c : Instr} (hc : c ∈ [Instr.scrubVisit, .scrubForce]) (hs : s.power.state = .sleep) :
    ∃ t, exec c s = .next t ∧ t.power = { s.power with scrubDef := min 4096 (s.power.scrubDef + 1) } ∧ t.arr = s.arr ∧
      t.dir = s.dir ∧ t.elog = s.elog ∧ t.wins = s.wins ∧ t.cfg = s.cfg := by
  rw [exec_scrub hc, State.scrubVisit_asleep (s := s.fresh0) hs,
    finish_of_debugRuns (State.debugRuns_false (by simp [hs]) (by simp [hs]))]
  exact ⟨_, rfl, rfl, rfl, rfl, rfl, rfl, rfl⟩

/-- R424: an event that wakes a slice at rest in `SLEEP`. -/
theorem State.wakeUp_resting {s : State} (hs : s.power.state = .sleep) (hp : s.power.sleepPh = .none) :
    s.wakeUp = { s with power := { s.power with scrubWake := false, wakeDue := true } } := by
  have ha : State.asleep { s with power := { s.power with scrubWake := false } } = true := by simp [State.asleep, hs]
  unfold State.wakeUp
  dsimp only
  rw [if_pos ha, hp]
  rfl

/-- R452: a deficit of 4,096 wakes a slice at rest. -/
theorem State.Still.exec_scrubDeficitWake {s : State} (h : s.Still) (hs : s.power.state = .sleep) :
    exec .scrubDeficitWake s = .next (State.settle { s.fresh0 with
      power := { s.power with scrubDef := 4096, wakeDue := true, scrubWake := !s.power.wakeDue && !s.power.wakeReq } }) := by
  show (if s.power.state == .sleep then _ else _) = _
  rw [if_pos (by rw [hs]; rfl),
    State.wakeUp_resting (s := { s.fresh0 with power := { s.power with scrubDef := 4096 } }) hs h.phase,
    finish_of_debugRuns (State.debugRuns_false (by simp [hs]) (by simp [hs]))]

/-! ### The periodic check of a configuration word (R447) -/

/-- R447: with nothing armed and no damage found the check sees what the word itself brings. -/
theorem State.configWord_calm {s : State} (hi : s.test.inject = none) (hu : s.upsets = []) (hb : s.bad = []) (region flips : Nat) :
    s.configWord region flips = if flips == 0 then s else (s.cfgError region (2 ≤ flips)).endRest := by
  unfold State.configWord State.fault
  rw [State.faults_calm hi hu]
  dsimp only [List.head?_nil]
  rw [hb]
  rfl

theorem State.endRest_outside {s : State} (h : s.power.state ≠ .recovery) : s.endRest = s := by
  simp [State.endRest, h]

/-- R443: a wrong bit is corrected, and its record placed. -/
theorem State.cfgError_single (region : Nat) (s : State) :
    s.cfgError region false = { s with
      elog := s.elog.place { source := 0x018, detail := region % 256 + (Config.syndrome s.fresh).toNat * 256 },
      fresh := s.fresh + 1 } := rfl

/-- R447: the check of a word in a slice that runs. -/
theorem State.Still.exec_configWordCheck {s : State} (h : s.Still) (hs : s.power.state = .service ∨ s.power.state = .config)
    (region flips : Nat) :
    exec (.configWordCheck region flips) s =
      finish (if flips == 0 then s.fresh0 else (s.fresh0.cfgError region (2 ≤ flips)).endRest) := by
  have hoff : ¬ (s.power.state == .off) = true := by rcases hs with hs | hs <;> simp [hs]
  rw [← State.configWord_calm (s := s.fresh0) h.inject h.upsets h.bad]
  exact congrArg finish (if_neg hoff)

end Sys2Proof.Machine

open Sys2Proof Sys2Proof.Machine

/-- Settles O46: a visit costs bank accesses (`State.scrubSet_calm`), and the check of a word sees what the word brings
(`State.configWord_calm`). -/
theorem scrubVisits : Obligations.ScrubVisits := by
  refine ⟨fun s h c hc => ⟨h.exec_scrub_awake hc, exec_scrub_asleep hc⟩, fun s h hs => ?_, fun s region h hs => ⟨?_, ?_⟩⟩
  · rw [h.exec_scrubDeficitWake hs]
    exact ⟨_, rfl, rfl, rfl, rfl, rfl, rfl⟩
  · rw [h.exec_configWordCheck hs, if_pos (beq_self_eq_true 0), finish_of_running (by exact hs)]
    exact ⟨_, rfl, rfl, rfl, rfl, rfl, rfl, rfl⟩
  · have hne : s.power.state ≠ .recovery := by rcases hs with hs | hs <;> simp [hs]
    rw [h.exec_configWordCheck hs, if_neg (by decide), show decide (2 ≤ 1) = false from rfl, State.cfgError_single,
      State.endRest_outside (by exact hne), finish_of_running (by exact hs)]
    exact ⟨_, rfl, rfl, rfl, rfl, rfl, rfl, rfl⟩

end

section

/-! Proofs about edits of the shadow set (sitting 12): what the replacement of the set and the end of a step make of one slot, and the
statement O34. -/

namespace Sys2Proof.Machine
open Sys2Proof

/-! ### One slot through the replacement of the shadow set (R120, R361) -/

/-- What a lens slot stands for: its sets and its descriptor. -/
def LensSlot.role (l : LensSlot) : Bool × Bool × Option Desc := (l.inAct, l.inSh, l.desc)

/-- The role of slot `k` in a list of slots. -/
def roleAt (slots : List LensSlot) (k : Nat) : Bool × Bool × Option Desc := (slots.getD k {}).role

/-- The slots with a descriptor of the new shadow set in its place (`State.replaceShadow`). -/
def State.putShadow (s : State) (bare : Bool) (slots : List LensSlot) (d : Desc) : List LensSlot :=
  let fresh := !(slots.getD d.slot {}).has d
  (if fresh then dropPred d.slot slots else slots).modify d.slot fun l =>
    { takeDesc d l with inSh := true, bareSh := bare || fresh || (s.lensSlot d.slot).keepsBare }

theorem State.replaceShadow_some (ds : List Desc) (tint : Option (BitVec 32)) (bare : Bool) (s : State) :
    s.replaceShadow (some ds) tint bare = { s with lens := { s.lens with
      slots := restageChanged s.lens.slots (ds.foldl (s.putShadow bare) (s.lens.slots.map fun l => { l with inSh := false })),
      tintSh := tint.getD s.lens.tintSh, rebuild := true } } := rfl

/-- A change of every slot that leaves roles alone. -/
theorem roleAt_map {f : LensSlot → LensSlot} (hf : ∀ l, (f l).role = l.role) (slots : List LensSlot) (k : Nat) :
    roleAt (slots.map f) k = roleAt slots k := by
  simp only [roleAt, List.getD_eq_getElem?_getD, List.getElem?_map]
  cases slots[k]? with
  | none => rfl
  | some l => exact hf l

theorem roleAt_dropPred (i : Nat) (slots : List LensSlot) (k : Nat) : roleAt (dropPred i slots) k = roleAt slots k :=
  roleAt_map (f := fun l => { l with preds := l.preds.filter (· != i) }) (fun _ => rfl) slots k

/-- R386: a new staging copy is no change of a slot's role. -/
theorem roleAt_restageChanged (old slots : List LensSlot) (k : Nat) : roleAt (restageChanged old slots) k = roleAt slots k := by
  simp only [roleAt, restageChanged, List.getD_eq_getElem?_getD, List.getElem?_map, List.getElem?_zipIdx]
  cases slots[k]? with
  | none => rfl
  | some l =>
    dsimp only [Option.map_some, Option.getD_some]
    split
    · rfl
    · simp [LensSlot.role]

/-- R120: at the start of a replacement no slot stands in the shadow set. -/
theorem roleAt_cleared (slots : List LensSlot) (k : Nat) :
    roleAt (slots.map fun l => { l with inSh := false }) k = ((roleAt slots k).1, false, (roleAt slots k).2.2) := by
  simp only [roleAt, List.getD_eq_getElem?_getD, List.getElem?_map]
  cases slots[k]? <;> rfl

theorem takeDesc_role (d : Desc) (l : LensSlot) : (takeDesc d l).role = (l.inAct, l.inSh, some d) := by
  unfold takeDesc
  split
  · next h =>
    have hd : l.desc = some d := by
      simp only [LensSlot.has, Bool.and_eq_true, beq_iff_eq] at h
      exact h.1
    rw [LensSlot.role, hd]
  · rfl

theorem State.putShadow_other (s : State) (bare : Bool) (slots : List LensSlot) {d : Desc} {k : Nat} (h : d.slot ≠ k) :
    roleAt (s.putShadow bare slots d) k = roleAt slots k := by
  have hmod (l : List LensSlot) (f : LensSlot → LensSlot) : roleAt (l.modify d.slot f) k = roleAt l k := by
    simp only [roleAt, List.getD_eq_getElem?_getD, List.getElem?_modify_ne f l h]
  unfold State.putShadow
  dsimp only
  rw [hmod]
  split
  · exact roleAt_dropPred _ _ _
  · rfl

theorem State.putShadow_same (s : State) (bare : Bool) (slots : List LensSlot) {d : Desc} (h : d.slot < slots.length) :
    roleAt (s.putShadow bare slots d) d.slot = ((roleAt slots d.slot).1, true, some d) := by
  have hmod (l : List LensSlot) (hl : l.length = slots.length) (hr : roleAt l d.slot = roleAt slots d.slot) (b : Bool) :
      roleAt (l.modify d.slot fun x => { takeDesc d x with inSh := true, bareSh := b }) d.slot =
        ((roleAt slots d.slot).1, true, some d) := by
    have hx : l[d.slot]? = some l[d.slot] := List.getElem?_eq_getElem (hl ▸ h)
    have htake := takeDesc_role d l[d.slot]
    rw [← hr]
    simp only [roleAt, List.getD_eq_getElem?_getD, List.getElem?_modify_eq, hx, Option.getD_some] at htake ⊢
    simp only [LensSlot.role, Prod.mk.injEq] at htake ⊢
    exact ⟨htake.1, rfl, htake.2.2⟩
  unfold State.putShadow
  dsimp only
  split
  · exact hmod _ (dropPred_length _ _) (roleAt_dropPred _ _ _) _
  · exact hmod _ rfl rfl _

theorem State.putShadow_length (s : State) (bare : Bool) (slots : List LensSlot) (d : Desc) :
    (s.putShadow bare slots d).length = slots.length := by
  unfold State.putShadow
  dsimp only
  split <;> simp

/-- A replacement never changes the active set. -/
theorem State.putShadow_inAct (s : State) (bare : Bool) (slots : List LensSlot) (d : Desc) (k : Nat) :
    (roleAt (s.putShadow bare slots d) k).1 = (roleAt slots k).1 := by
  by_cases hk : d.slot = k
  · by_cases hl : d.slot < slots.length
    · rw [← hk, State.putShadow_same s bare slots hl]
    · have hnone (l : List LensSlot) (hlen : l.length = slots.length) : roleAt l k = roleAt [] k := by
        simp only [roleAt, List.getD_eq_getElem?_getD]
        rw [List.getElem?_eq_none (by omega)]
        rfl
      rw [hnone slots rfl, hnone _ (s.putShadow_length bare slots d)]
  · rw [State.putShadow_other s bare slots hk]

section

variable (s : State) (bare : Bool)

theorem foldl_putShadow_inAct (ds : List Desc) (k : Nat) :
    ∀ slots, (roleAt (ds.foldl (s.putShadow bare) slots) k).1 = (roleAt slots k).1 := by
  induction ds with
  | nil => exact fun _ => rfl
  | cons d ds ih => exact fun slots => (ih _).trans (s.putShadow_inAct bare slots d k)

theorem foldl_putShadow_other {ds : List Desc} {k : Nat} (h : ∀ d ∈ ds, d.slot ≠ k) :
    ∀ slots, roleAt (ds.foldl (s.putShadow bare) slots) k = roleAt slots k := by
  induction ds with
  | nil => exact fun _ => rfl
  | cons d ds ih =>
    exact fun slots => (ih (fun e he => h e (List.mem_cons_of_mem d he)) _).trans (s.putShadow_other bare slots (h d List.mem_cons_self))

theorem foldl_putShadow_length (ds : List Desc) : ∀ slots, (ds.foldl (s.putShadow bare) slots).length = slots.length := by
  induction ds with
  | nil => exact fun _ => rfl
  | cons d ds ih => exact fun slots => (ih _).trans (s.putShadow_length bare slots d)

end

/-! ### One slot at the end of a step (R119) -/

/-- A slot that stands in the shadow set keeps its descriptor. -/
theorem State.settleSlot_desc_of_inSh (s : State) (i : Nat) {l : LensSlot} (h : l.inSh = true) : (s.settleSlot i l).desc = l.desc := by
  have hkept : (l.desc.isSome && !l.inAct && !l.inSh && s.ownCount i == 0) = false := by simp [h]
  unfold State.settleSlot
  rw [hkept, if_neg Bool.false_ne_true]
  split <;> rfl

/-! ### The edit (R372) -/

/-- R372: the descriptor that an insertion puts in the shadow set. -/
def State.stagedDesc (s : State) (slot : Nat) : Desc :=
  { Desc.ofWords (s.lensSlot slot).stage0.toNat (s.lensSlot slot).stage1.toNat with slot := slot }

/-- R372: the set after a removal names the slot no more. -/
theorem State.edited_remove (s : State) (slot : Nat) : ∀ d ∈ s.edited false slot, d.slot ≠ slot := by
  intro d hd
  have hd' : d ∈ s.shadowSet.filter (fun d => d.slot != slot) := hd
  simpa using (List.mem_filter.1 hd').2

/-- R372: the set after an insertion holds the staged descriptor between descriptors of other slots. -/
theorem State.edited_insert (s : State) (slot : Nat) :
    ∃ before after : List Desc, s.edited true slot = before ++ [s.stagedDesc slot] ++ after ∧ (∀ d ∈ before, d.slot ≠ slot) ∧
      ∀ d ∈ after, d.slot ≠ slot := by
  refine ⟨_, _, rfl, fun d hd => ?_, fun d hd => ?_⟩
  · exact Nat.ne_of_lt (by simpa using (List.mem_filter.1 hd).2)
  · exact Nat.ne_of_gt (by simpa using (List.mem_filter.1 hd).2)

theorem State.lensSlot_role (s : State) (k : Nat) : (s.lensSlot k).role = roleAt s.lens.slots k := rfl

/-- R361: the roles of the slots after a replacement of the shadow set. -/
theorem State.replaceShadow_role (ds : List Desc) (tint : Option (BitVec 32)) (bare : Bool) (s : State) (k : Nat) :
    ((s.replaceShadow (some ds) tint bare).lensSlot k).role =
      roleAt (ds.foldl (s.putShadow bare) (s.lens.slots.map fun l => { l with inSh := false })) k := by
  rw [State.lensSlot_role, State.replaceShadow_some]
  exact roleAt_restageChanged _ _ _

theorem State.replaceShadow_inAct (ds : List Desc) (tint : Option (BitVec 32)) (bare : Bool) (s : State) (k : Nat) :
    ((s.replaceShadow (some ds) tint bare).lensSlot k).inAct = (s.lensSlot k).inAct := by
  have h := congrArg Prod.fst (s.replaceShadow_role ds tint bare k)
  rw [foldl_putShadow_inAct, roleAt_cleared] at h
  exact h

/-- R372: after a removal the slot is in the shadow set no more. -/
theorem State.replaceShadow_removed (s : State) (slot : Nat) (tint : Option (BitVec 32)) (bare : Bool) :
    ((s.replaceShadow (some (s.edited false slot)) tint bare).lensSlot slot).inSh = false := by
  have h := s.replaceShadow_role (s.edited false slot) tint bare slot
  rw [foldl_putShadow_other s bare (s.edited_remove slot), roleAt_cleared] at h
  exact congrArg (fun x => x.2.1) h

/-- R372: after an insertion the slot is in the shadow set with its staged descriptor. -/
theorem State.replaceShadow_inserted (s : State) {slot : Nat} (hslot : slot < s.lens.slots.length) (tint : Option (BitVec 32))
    (bare : Bool) :
    ((s.replaceShadow (some (s.edited true slot)) tint bare).lensSlot slot).inSh = true ∧
      ((s.replaceShadow (some (s.edited true slot)) tint bare).lensSlot slot).desc = some (s.stagedDesc slot) := by
  obtain ⟨before, after, hset, hbefore, hafter⟩ := s.edited_insert slot
  have h := s.replaceShadow_role (s.edited true slot) tint bare slot
  rw [hset, List.foldl_append, List.foldl_append, foldl_putShadow_other s bare hafter, List.foldl_cons, List.foldl_nil] at h
  have hput := s.putShadow_same bare (before.foldl (s.putShadow bare) (s.lens.slots.map fun l => { l with inSh := false }))
    (d := s.stagedDesc slot) (by rw [foldl_putShadow_length, List.length_map]; exact hslot)
  rw [← hset] at h
  exact ⟨congrArg (fun x => x.2.1) (h.trans hput), congrArg (fun x => x.2.2) (h.trans hput)⟩

/-- R362: where no change of the sets waits and no rebuild runs, they are settled. -/
theorem State.lensSettled_calm {s : State} (hq : s.lens.queue = []) (hr : s.lens.rebuild = false) : s.lensSettled = s := by
  unfold State.lensSettled
  rw [hq, ← hr]
  rfl

/-- R372, R474: what an accepted edit changes. -/
theorem State.editApply_eq (ds : List Desc) (s : State) :
    s.editApply ds = { s with
      lens := (s.replaceShadow (some ds) none false).lens,
      regs := { s.regs with editBusy := true },
      meas := if s.meas.edited then s.meas else { s.meas with edited := true, gen := (s.meas.gen + 1) % 65536 } } := by
  unfold State.editApply
  rw [State.replaceShadow_some]
  dsimp only
  split
  · rfl
  · rfl

/-- R372: an accepted edit in a slice whose lens sets are settled. -/
theorem State.shadowEdit_ok {s : State} {insert : Bool} {slot : Nat} (hl : s.meas.locked = false) (hb : s.regs.editBusy = false)
    (hp : s.presc.phase = .idle) (hq : s.lens.queue = []) (hr : s.lens.rebuild = false) (hc : s.editCheck insert slot = .ok) :
    s.shadowEdit insert slot = { s with
      out := s.out ++ [.csrp .ok 0],
      regs := { s.regs with editReg := slot + (if insert then 1 else 2) * 256, editCode := .ok, editBusy := true },
      lens := (s.replaceShadow (some (s.edited insert slot)) none false).lens,
      meas := if s.meas.edited then s.meas else { s.meas with edited := true, gen := (s.meas.gen + 1) % 65536 } } := by
  have herr : s.editErr = .ok := by simp [State.editErr, hl, hb, hp]
  have hsettled : (s.csrp .ok 0).lensSettled = { s with out := s.out ++ [.csrp .ok 0] } := by
    rw [State.csrp_eq]
    exact State.lensSettled_calm hq hr
  have hcheck : State.editCheck { s with
      out := s.out ++ [.csrp .ok 0], regs := { s.regs with editReg := slot + (if insert then 1 else 2) * 256 } } insert slot = .ok := hc
  unfold State.shadowEdit
  rw [herr]
  dsimp only
  rw [hsettled, hcheck, if_pos (show (Err.ok == Err.ok) = true from rfl)]
  rw [State.editApply_eq]
  rfl

/-- What O34 says of an accepted edit of either kind. -/
theorem State.AtRest.shadowEdit_next {s : State} (h : s.AtRest) {src : Csrp} (hm : src.mgmt = true) {insert : Bool} {slot : Nat}
    {i : Instr} (hl : s.meas.locked = false) (hb : s.regs.editBusy = false) (hp : s.presc.phase = .idle) (hq : s.lens.queue = [])
    (hr : s.lens.rebuild = false) (hc : s.editCheck insert slot = .ok) :
    ∃ x : State, Machine.mgmtWrite i src (State.shadowEdit insert slot) s = .next x.settle ∧ x.out = [.csrp .ok 0] ∧
      x.lens = (s.replaceShadow (some (s.edited insert slot)) none false).lens ∧ x.regs.editBusy = true ∧ x.regs.editCode = .ok ∧
      x.meas.edited = true ∧ x.arr = s.arr ∧ x.dir = s.dir ∧ x.wins = s.wins ∧ x.cfg = s.cfg := by
  rw [h.mgmtWrite i hm, State.shadowEdit_ok (by exact hl) (by exact hb) (by exact hp) (by exact hq) (by exact hr) (by exact hc),
    finish_of_service (by exact h.service)]
  refine ⟨_, rfl, rfl, rfl, rfl, rfl, ?_, rfl, rfl, rfl, rfl⟩
  cases he : s.meas.edited <;> simp [he]

end Sys2Proof.Machine

open Sys2Proof Sys2Proof.Machine

/-- Settles O34: the fold of `State.replaceShadow` puts one descriptor in the slot of an insertion and none in that of a removal, and
the end of the step leaves what stands in the shadow set. -/
theorem shadowEditApplies : Obligations.ShadowEditApplies := by
  intro s src slot h hm hl hb hp hq hr hslot _
  have hact (x : State) (ds : List Desc) (hx : x.lens = (s.replaceShadow (some ds) none false).lens) (k : Nat) :
      (x.settle.lensSlot k).inAct = (s.lensSlot k).inAct := by
    rw [State.lensSlot_settle, (x.settleSlot_marks k _).1, State.lensSlot, hx]
    exact s.replaceShadow_inAct ds none false k
  have hslotOf {x : State} {ds : List Desc} (hx : x.lens = (s.replaceShadow (some ds) none false).lens) :
      x.settle.lensSlot slot = x.settleSlot slot ((s.replaceShadow (some ds) none false).lensSlot slot) := by
    rw [State.lensSlot_settle, State.lensSlot, hx]
    rfl
  refine ⟨fun hc => ?_, fun hc => ?_⟩
  · obtain ⟨x, hx, hout, hlens, hbusy, hcode, hed, harr, hdir, hwins, hcfg⟩ :=
      h.shadowEdit_next (i := .shadowEditInsert src slot) hm hl hb hp hq hr hc
    obtain ⟨hsh, hdesc⟩ := s.replaceShadow_inserted hslot none false
    have hsh' := (x.settleSlot_marks slot _).2.trans hsh
    have hdesc' := (x.settleSlot_desc_of_inSh slot hsh).trans hdesc
    rw [← hslotOf hlens] at hsh' hdesc'
    exact ⟨_, hx, .inl (hout ▸ List.mem_singleton.2 rfl), hsh', hdesc', hact x _ hlens, congrArg LensUnit.rebuild hlens,
      hbusy, hcode, hed, harr, hdir, hwins, hcfg⟩
  · obtain ⟨x, hx, hout, hlens, hbusy, hcode, hed, harr, hdir, hwins, hcfg⟩ :=
      h.shadowEdit_next (i := .shadowEditRemove src slot) hm hl hb hp hq hr hc
    have hsh := (x.settleSlot_marks slot _).2.trans (s.replaceShadow_removed slot none false)
    rw [← hslotOf hlens] at hsh
    exact ⟨_, hx, .inl (hout ▸ List.mem_singleton.2 rfl), hsh, hact x _ hlens, congrArg LensUnit.rebuild hlens,
      hbusy, hcode, hed, harr, hdir, hwins, hcfg⟩

end

section

/-! Proofs about `FATAL` (sitting 12): what completions leave, the entry into `RECOVERY`, and the statement O47. -/

namespace Sys2Proof.Machine
open Sys2Proof

/-! ### Completions (R407, R459) -/

/-- What completions leave, on a port or on the span: the storage, the mailboxes, the load, the power state and the level of `FATAL`; and
no flit is lost. -/
structure State.OnlyAnswers (s t : State) : Prop where
  bad : t.bad = s.bad
  power : t.power = s.power
  arr : t.arr = s.arr
  dir : t.dir = s.dir
  cfg : t.cfg = s.cfg
  mbs : t.mbs = s.mbs
  fatal : t.elog.fatal = s.elog.fatal
  sends : ∀ f, s.Sends f → t.Sends f

theorem State.OnlyAnswers.refl (s : State) : s.OnlyAnswers s := ⟨rfl, rfl, rfl, rfl, rfl, rfl, rfl, fun _ h => h⟩

theorem State.OnlyAnswers.trans {s t u : State} (h : s.OnlyAnswers t) (k : t.OnlyAnswers u) : s.OnlyAnswers u :=
  ⟨k.bad.trans h.bad, k.power.trans h.power, k.arr.trans h.arr, k.dir.trans h.dir, k.cfg.trans h.cfg, k.mbs.trans h.mbs,
    k.fatal.trans h.fatal, fun f hf => k.sends f (h.sends f hf)⟩

theorem State.Outer.onlyAnswers {s t : State} (h : s.Outer t) (hb : s.bad = []) : s.OnlyAnswers t := by
  have hsends := h.2
  obtain ⟨_, _, _, _, _, _, _, _, _, _, _, _, _, _, rfl⟩ := h.shape hb
  exact ⟨rfl, rfl, rfl, rfl, rfl, rfl, rfl, hsends⟩

/-- Only a fatal record's own rule raises `FATAL` (R441). -/
theorem ErrLog.place_fatal (e : ErrLog) (r : LogIn) : (e.place r).fatal = e.fatal := by
  unfold ErrLog.place
  dsimp only
  split
  · rfl
  · split
    · rfl
    · split
      · rfl
      · split <;> rfl

/-- R402: lanes that are retired at a frame are noted in the log. -/
theorem State.remapDue_fatal (s : State) : s.remapDue.elog.fatal = s.elog.fatal := by
  have hfold (l : List (Nat × Nat)) : ∀ t : State, (l.foldl (fun t x => t.remapLane x.1) t).elog.fatal = t.elog.fatal := by
    induction l with
    | nil => exact fun _ => rfl
    | cons x l ih => exact fun t => (ih _).trans (ErrLog.place_fatal _ _)
  exact hfold _ _

theorem State.spanOut_fatal (r : SpanRec) {s : State} (hb : s.bad = []) : (s.spanOut r).elog.fatal = s.elog.fatal := by
  unfold State.spanOut
  rw [State.countN_calm Ev.spanSlotTx none r.slots s hb]
  exact State.remapDue_fatal _

theorem State.spanSend_fatal (r : SpanRec) {s : State} (hb : s.bad = []) : (s.spanSend r).elog.fatal = s.elog.fatal := by
  obtain ⟨g, hg⟩ := s.use_shape 3 (32 * r.slots)
  unfold State.spanSend State.spanPut
  rw [hg]
  split
  · exact State.spanOut_fatal r hb
  · rfl

theorem State.onlyAnswers_spanSend (r : SpanRec) {s : State} (hb : s.bad = []) : s.OnlyAnswers (s.spanSend r) := by
  have hfatal := State.spanSend_fatal r hb
  obtain ⟨reg, ctr, acts, sig, sent, elog, span, hs⟩ := State.linkOnly_spanSend r hb
  rw [hs] at hfatal ⊢
  exact ⟨rfl, rfl, rfl, rfl, rfl, rfl, hfatal, fun _ hf => hf.imp (List.mem_append_left _) id⟩

/-- R158, R407: a completion, wherever it goes. -/
theorem State.onlyAnswers_respond (port txid : Nat) (tag : Option Nat) (st : Status) {s : State} (hb : s.bad = []) :
    s.OnlyAnswers (s.respond port txid tag st) := by
  cases tag with
  | none => exact (State.outer_respond port txid st 0 false s).onlyAnswers hb
  | some t =>
    have hpaid := ((s.outer_answered port txid (some t) (st == .timeout)).trans (State.outer_refund port txid (some t) _)).onlyAnswers hb
    exact hpaid.trans (State.onlyAnswers_spanSend _ (hpaid.bad.trans hb))

theorem foldl_onlyAnswers {α} (f : State → α → State) (hf : ∀ (s : State) (a : α), s.bad = [] → s.OnlyAnswers (f s a)) (l : List α) :
    ∀ s : State, s.bad = [] → s.OnlyAnswers (l.foldl f s) := by
  induction l with
  | nil => exact fun s _ => .refl s
  | cons a l ih => exact fun s hb => (hf s a hb).trans (ih _ ((hf s a hb).bad.trans hb))

/-- A flit that one step of a chain of completions sends is sent by the chain. -/
theorem foldl_onlyAnswers_sends {α} (f : State → α → State) (hf : ∀ (s : State) (a : α), s.bad = [] → s.OnlyAnswers (f s a)) {x : α}
    {o : Out} (hx : ∀ s, (f s x).Sends o) (l : List α) (hl : x ∈ l) : ∀ s : State, s.bad = [] → (l.foldl f s).Sends o := by
  induction l with
  | nil => exact absurd hl List.not_mem_nil
  | cons a l ih =>
    intro s hb
    have hb' := (hf s a hb).bad.trans hb
    rcases List.mem_cons.1 hl with rfl | hl
    · exact (foldl_onlyAnswers f hf l _ hb').sends o (hx s)
    · exact ih hl _ hb'

/-! ### The entry into `RECOVERY` (R420, R459) -/

/-- R459: the slice whose held flits and records have been turned. -/
def State.turned (s : State) : State :=
  { s with heldOut := s.heldOut.filterMap HeldOut.recovered,
           span := { s.span with waitTx := s.span.waitTx.filterMap SpanWait.recovered } }

/-- R459: the waiting requests are completed with `ABORTED`. -/
def State.abortWaiting (s : State) : State :=
  s.waiting.foldl (fun t w => t.respond w.q.port w.q.txid w.tag .aborted) s

theorem State.onlyAnswers_abortWaiting {s : State} (hb : s.bad = []) : s.OnlyAnswers s.abortWaiting :=
  foldl_onlyAnswers _ (fun _ _ ht => State.onlyAnswers_respond _ _ _ _ ht) _ s hb

theorem State.abortWaiting_sends {s : State} (hb : s.bad = []) {w : WaitReq} (hw : w ∈ s.waiting) (ht : w.tag = none) :
    s.abortWaiting.Sends (.rsp w.q.port w.q.txid .aborted 0 false false) := by
  refine foldl_onlyAnswers_sends _ (fun _ _ ht => State.onlyAnswers_respond _ _ _ _ ht) (x := w) (fun t => ?_) _ hw s hb
  rw [ht]
  exact State.sends_respond ..

/-- R459: the notice that a snoop of a transaction holds is completed with `ABORTED`. -/
def State.abortNotice (s : State) (k : SnoopRec) : State :=
  match k.notice with
  | some n => s.respond n.port n.txid n.tag .aborted
  | none => s

theorem State.onlyAnswers_abortNotice (s : State) (k : SnoopRec) (hb : s.bad = []) : s.OnlyAnswers (s.abortNotice k) := by
  unfold State.abortNotice
  split
  · exact State.onlyAnswers_respond _ _ _ _ hb
  · exact .refl s

/-- R459: everything that was not answered before `FATAL` rose is answered, the waiting requests first; then the slice has no work. -/
theorem State.abortAll_answers {s : State} (hb : s.bad = []) :
    ∃ x : State, s.turned.abortWaiting.OnlyAnswers x ∧ s.abortAll = { x with
      waiting := [], txns := [], prov := [], folds := [], hand := { x.hand with hold := [] },
      wins := x.wins.map fun (w : Window) => { w with col := none, after := [] }, cue := { x.cue with beats := [] },
      span := { x.span with relays := [], fwd := [], holders := [] } } := by
  have hbad : s.turned.abortWaiting.bad = [] := (State.onlyAnswers_abortWaiting (s := s.turned) hb).bad.trans hb
  have andThen {α : Type} {f : State → α → State} {l : List α} {t : State} (ht : s.turned.abortWaiting.OnlyAnswers t)
      (hf : ∀ (u : State) (a : α), u.bad = [] → u.OnlyAnswers (f u a)) : s.turned.abortWaiting.OnlyAnswers (l.foldl f t) :=
    ht.trans (foldl_onlyAnswers f hf l t (ht.bad.trans hbad))
  refine ⟨_, ?_, rfl⟩
  refine andThen (andThen (andThen (andThen (andThen (andThen (andThen (.refl _) ?hold) ?txns) ?prov) ?relays) ?folds) ?wins) ?beats
  case hold => exact fun u w hu => State.onlyAnswers_respond _ _ _ _ hu
  case prov => exact fun u e hu => State.onlyAnswers_respond _ _ _ _ hu
  case txns =>
    intro u x hu
    have hnotices : u.OnlyAnswers (x.snoops.foldl State.abortNotice u) :=
      foldl_onlyAnswers _ (fun t k ht => t.onlyAnswers_abortNotice k ht) x.snoops u hu
    split
    · split
      · exact hnotices
      · exact hnotices.trans (State.onlyAnswers_respond _ _ _ _ (hnotices.bad.trans hu))
    · exact hnotices
  case relays =>
    intro u r hu
    dsimp only
    split
    · exact .refl u
    · exact State.onlyAnswers_respond _ _ _ _ hu
  case folds =>
    intro u f hu
    split
    · exact .refl u
    · exact State.onlyAnswers_respond _ _ _ _ hu
  case wins => exact fun u w hu => foldl_onlyAnswers _ (fun t c ht => State.onlyAnswers_respond _ _ _ _ ht) _ u hu
  case beats =>
    intro u b hu
    split
    · exact State.onlyAnswers_respond _ _ _ _ hu
    · exact .refl u

/-- R459: what the entry into `RECOVERY` makes of a slice. -/
structure State.GivesUp (s t : State) : Prop where
  bad : t.bad = s.bad
  state : t.power.state = .recovery
  held : t.power.held = s.power.held
  fatal : t.elog.fatal = true
  waiting : t.waiting = []
  txns : t.txns = []
  prov : t.prov = []
  folds : t.folds = []
  beats : t.cue.beats = []
  load : t.presc.phase = .idle
  aborted : ∀ w ∈ s.waiting, w.tag = none → t.Sends (.rsp w.q.port w.q.txid .aborted 0 false false)
  arr : t.arr = s.arr
  dir : t.dir = s.dir
  cfg : t.cfg = s.cfg
  mbs : t.mbs = s.mbs

/-- R459: a load in progress ends; nothing else of what a slice gives up is touched. -/
theorem State.GivesUp.dropLoad {s t : State} (h : State.GivesUp s { t with presc := { t.presc with phase := .idle } }) :
    s.GivesUp t.dropLoad := by
  unfold State.dropLoad
  split
  · next hp =>
    have hphase : t.presc.phase = .idle := by simpa using hp
    exact { h with load := hphase }
  · exact { h with load := rfl }

theorem State.fatal_givesUp {s : State} (hb : s.bad = []) (hoff : s.power.state ≠ .off) (hrec : s.power.state ≠ .recovery) :
    s.GivesUp s.fatal := by
  have hstate : (s.power.state == .off || s.power.state == .recovery) = false := by simp [hoff, hrec]
  unfold State.fatal
  rw [hstate, if_neg Bool.false_ne_true]
  dsimp only
  generalize hr : ({ s with elog := { s.elog with fatal := true },
                            power := { s.power with state := .recovery, cfgDrain := false, sleepPh := .none } } : State) = r
  have hrb : r.bad = [] := by rw [← hr]; exact hb
  obtain ⟨x, hx, hall⟩ := State.abortAll_answers hrb
  have hwait := State.onlyAnswers_abortWaiting (s := r.turned) hrb
  have hkeep := hwait.trans hx
  rw [hall]
  refine State.GivesUp.dropLoad ⟨?_, ?_, ?_, ?_, rfl, rfl, rfl, rfl, rfl, rfl, fun w hw ht => ?_, ?_, ?_, ?_, ?_⟩
  · exact hkeep.bad.trans (hrb.trans hb.symm)
  · exact (congrArg (·.state) hkeep.power).trans (by rw [← hr])
  · exact (congrArg (·.held) hkeep.power).trans (by rw [← hr])
  · exact hkeep.fatal.trans (by rw [← hr]; rfl)
  · exact hx.sends _ (State.abortWaiting_sends (s := r.turned) hrb (by rw [← hr]; exact hw) ht)
  · exact hkeep.arr.trans (by rw [← hr]; rfl)
  · exact hkeep.dir.trans (by rw [← hr]; rfl)
  · exact hkeep.cfg.trans (by rw [← hr]; rfl)
  · exact hkeep.mbs.trans (by rw [← hr]; rfl)

/-- R459: with no arrival kept the end of a rest serves none. -/
theorem State.GivesUp.endRest {s t : State} (h : s.GivesUp t) (hh : s.power.held = []) : s.GivesUp t.endRest := by
  unfold State.endRest
  rw [h.state, if_pos (show (SliceState.recovery == SliceState.recovery) = true from rfl),
    State.replayAll_calm (by exact h.held.trans hh)]
  exact { h with state := h.state }

/-- The end of the step changes nothing of it. -/
theorem State.GivesUp.posts {s t : State} (h : s.GivesUp t) (hb : s.bad = []) :
    ∃ u, finish t = .next u ∧ u.power.state = .recovery ∧ u.elog.fatal = true ∧ u.waiting = [] ∧ u.txns = [] ∧ u.prov = [] ∧
      u.folds = [] ∧ u.cue.beats = [] ∧ u.presc.phase = .idle ∧
      (∀ w ∈ s.waiting, w.tag = none → u.Sends (.rsp w.q.port w.q.txid .aborted 0 false false)) ∧ u.arr = s.arr ∧ u.dir = s.dir ∧
      u.cfg = s.cfg ∧ u.mbs = s.mbs := by
  have helog : t.settle.edges.elog = t.elog := State.edges_elog_calm t.settle (h.bad.trans hb)
  obtain ⟨c, b, e, d, he⟩ := t.settle.edges_shape
  refine ⟨t.settle.edges, rfl, ?_, helog ▸ h.fatal, ?_⟩
  · rw [he]
    exact h.state
  · rw [he]
    exact ⟨h.waiting, h.txns, h.prov, h.folds, h.beats, h.load, h.aborted, h.arr, h.dir, h.cfg, h.mbs⟩

/-! ### What raises `FATAL` (R420, R447) -/

/-- R447: a word with two wrong bits is a fatal record. -/
theorem State.cfgError_double (region : Nat) (s : State) :
    s.cfgError region true = (s.log { source := 0x019, port := 15, detail := region % 256 }).fatal := rfl

/-- R420, R447: both commands raise `FATAL` in a slice with its clock, the second with a record before it. -/
theorem exec_raises_fatal {s : State} {region flips : Nat} (hr : s.power.rstLow = false) (ha : s.asleep = false)
    (hk : s.power.relock = false) (ho : s.power.state ≠ .off) (hi : s.test.inject = none) (hu : s.upsets = []) (hb : s.bad = [])
    (hf : 2 ≤ flips) {c : Instr} (hc : c ∈ [Instr.lockLoss, .configWordCheck region flips]) :
    ∃ e, exec c s = finish (State.fatal { s.fresh0 with elog := e }).endRest := by
  rcases List.mem_pair.1 hc with rfl | rfl
  · refine ⟨s.elog, ?_⟩
    show (if s.power.rstLow || (s.asleep && !(s.asleep && s.power.sleepPh == .none && s.power.wakeDue)) || s.power.relock
      then s.notDue else finish s.fresh0.fatal.endRest) = _
    rw [hr, ha, hk]
    rfl
  · refine ⟨_, congrArg finish (?_ : _ = State.endRest (State.fatal (s.fresh0.log
      { source := 0x019, port := 15, detail := region % 256 })))⟩
    have hoff : ¬ (s.fresh0.power.state == .off) = true := by simpa using ho
    have hn : ¬ (flips == 0) = true := by simp; omega
    rw [if_neg hoff, State.configWord_calm (s := s.fresh0) hi hu hb, if_neg hn, decide_eq_true hf, State.cfgError_double]

end Sys2Proof.Machine

open Sys2Proof Sys2Proof.Machine

/-- Settles O47: both commands raise `FATAL` (`exec_raises_fatal`), whose entry into `RECOVERY` gives up all work
(`State.fatal_givesUp`). -/
theorem fatalEntersRecovery : Obligations.FatalEntersRecovery := by
  intro s region flips hr ha hk hrec hoff _ hi hu hb hf hheld c hc
  obtain ⟨e, he⟩ := exec_raises_fatal hr ha hk hoff hi hu hb hf hc
  rw [he]
  have hgive := State.fatal_givesUp (s := { s.fresh0 with elog := e }) hb hoff hrec
  exact (hgive.endRest hheld).posts hb

end

section

/-! Proofs about the frames and lanes of the span (sitting 12): the statement O54. -/

namespace Sys2Proof.Machine
open Sys2Proof

/-! ### Frames that leave (R396, R401, R405) -/

/-- The port after a frame with this header and record has left. -/
def Span.sent (p : Span) (h : FrameHdr) (r : Option SpanRec) : Span :=
  { p with replay := p.replay ++ [(h, r)], txSeq := (p.txSeq + 1) % 65536, ctl := 0, remap := [],
           owed := p.owed.mapIdx fun i n => n - h.credit.getD i 0 }

/-- R401: where no lane is to be retired, a frame takes its place in the replay buffer and does no more. -/
theorem State.sendFrame_calm {s : State} (hm : s.span.remap = []) (r : Option SpanRec) :
    s.sendFrame r = { s with out := s.out ++ [.span s.nextHdr r], span := s.span.sent s.nextHdr r } := by
  unfold State.sendFrame State.remapDue
  dsimp only
  rw [hm]
  rfl

/-- R401: an acknowledgement or a nak leaves at once while the sending direction runs. -/
theorem State.ackFrame_leaves {s : State} (hst : s.span.st = .active) (ha : s.asleep = false) (hl : s.span.replay.length < 128)
    (hm : s.span.remap = []) (kind : Nat) :
    ∃ g, ∃ h : FrameHdr, s.ackFrame kind = { s with sig := g, out := s.out ++ [.span h none], span := s.span.sent h none } ∧
      h.seq = s.span.txSeq ∧ h.ack = (s.span.rxNext + 65535) % 65536 ∧ h.kind = kind := by
  have hready : (s.span.st == .active && !s.asleep && s.span.replay.length < 128) = true := by simp [hst, ha, hl]
  refine ⟨(s.sign 0x70 (if kind == 2 then 0x100000 else 0) 0x100000 none).sig, { s.nextHdr with kind := kind }, ?_, rfl, rfl, rfl⟩
  unfold State.ackFrame
  dsimp only
  exact (if_pos hready).trans (State.sendFrame_calm (by exact hm) none)

/-- What a record that is sent leaves of the link. -/
structure Span.SameLink (p q : Span) : Prop where
  st : q.st = p.st
  rx : q.rx = p.rx
  rxFailed : q.rxFailed = p.rxFailed
  rxWidth : q.rxWidth = p.rxWidth

/-- R405: a record leaves in a frame of its own, or waits. -/
theorem State.spanSend_crosses {s : State} (hb : s.bad = []) (hm : s.span.remap = []) (r : SpanRec) :
    (s.spanSend r).Crosses r ∧ s.span.SameLink (s.spanSend r).span := by
  obtain ⟨g, hg⟩ := s.use_shape 3 (32 * r.slots)
  unfold State.spanSend State.spanPut
  rw [hg]
  dsimp only
  split
  · unfold State.spanOut
    rw [State.countN_calm Ev.spanSlotTx none r.slots _ (by exact hb), State.sendFrame_calm (by exact hm)]
    exact ⟨.inl ⟨_, List.mem_append_right _ List.mem_cons_self⟩, ⟨rfl, rfl, rfl, rfl⟩⟩
  · exact ⟨.inr ⟨_, List.mem_append_right _ List.mem_cons_self, rfl⟩, ⟨rfl, rfl, rfl, rfl⟩⟩

/-! ### Frames that arrive (R401, R402, R405) -/

/-- R402, R415: the port when the units of a frame have counted on their lanes and the twin is known to be awake. -/
def State.frameCounted (f : SpanFrame) (s : State) : State :=
  { s.countUnits f with span := { (s.countUnits f).span with farRests := false } }

/-- R401: a frame is taken or rejected. -/
def State.frameServed (f : SpanFrame) (s : State) : State :=
  if (badUnit f).isNone && bits (headerOf f) 15 0 == s.span.rxNext then (s.frameCounted f).frameGood f
  else (s.frameCounted f).frameBad (badUnit f) (bits (headerOf f) 15 0)

/-- R402: with no lane to retire, a frame does no more than that. -/
theorem State.frame_calm {s t : State} {f : SpanFrame} (hb : (s.countUnits f).badLanes = []) (ht : s.frameServed f = t)
    (hl : t.span.laneErr = (s.countUnits f).span.laneErr) (hf : t.span.rxFailed = s.span.rxFailed) : s.frame f = t := by
  have hbad : t.badLanes = [] := by
    refine Eq.trans ?_ hb
    unfold State.badLanes
    rw [hl, hf]
    rfl
  change (s.frameServed f).badLanes.foldl _ (s.frameServed f) = t
  rw [ht, hbad]
  rfl

/-- What the frame clauses of O54 share: a frame is served by a link that runs, and one recordless frame leaves. -/
structure State.Answers (s : State) (f : SpanFrame) : Prop extends s.AtRest where
  st : s.span.st = .active
  rx : s.span.rx = .active
  room : s.span.replay.length < 128
  remap : s.span.remap = []
  lanes : (s.countUnits f).badLanes = []

theorem State.AtRest.awake {s : State} (h : s.AtRest) : s.asleep = false := by simp [State.asleep, h.service]

theorem State.Answers.exec_spanFrame {s : State} {f : SpanFrame} (h : s.Answers f) :
    exec (.spanFrame f) s = finish (s.fresh0.frame f) := by
  have hup : (s.span.rx == .active && !s.asleep) = true := by simp [h.rx, h.awake]
  exact congrArg finish (if_pos hup)

/-- R401, R405: a frame that acknowledges nothing and carries nothing is acknowledged, and its credits are taken. -/
theorem State.frameGood_plain {s : State} {f : SpanFrame} (hk : bits (headerOf f) 33 32 = 0) (hslots : frameSlots f (headerOf f) = [])
    (hw : s.span.waitTx = []) :
    s.frameGood f = State.ackFrame 1 { s with span := { s.span with
      rxNext := (s.span.rxNext + 1) % 65536, rxNaks := 0, credits := addCredits (headerOf f) s.span.credits, ctl := 1 } } := by
  unfold State.frameGood
  simp only [hk, hslots, List.foldl_nil]
  rw [State.spanFlush_calm (by exact hw)]
  exact if_neg (show ¬ (1 == 0) = true by decide)

/-- R401, R405: a frame in sequence without records is acknowledged in a frame of the link's own. -/
theorem State.Answers.frame_good {s : State} {f : SpanFrame} (h : s.Answers f) (hu : badUnit f = none)
    (hseq : bits (headerOf f) 15 0 = s.span.rxNext) (hk : bits (headerOf f) 33 32 = 0) (hslots : frameSlots f (headerOf f) = []) :
    ∃ g, ∃ x : FrameHdr, s.frame f = { s with
      sig := g, out := s.out ++ [.span x none],
      span := Span.sent { (s.frameCounted f).span with
        rxNext := (s.span.rxNext + 1) % 65536, rxNaks := 0, credits := addCredits (headerOf f) s.span.credits, ctl := 1 } x none } ∧
      x.seq = s.span.txSeq ∧ x.ack = s.span.rxNext ∧ x.kind = 1 := by
  obtain ⟨g, x, hx, hs, ha, hkind⟩ := State.ackFrame_leaves (s := { s with span := { (s.frameCounted f).span with
        rxNext := (s.span.rxNext + 1) % 65536, rxNaks := 0, credits := addCredits (headerOf f) s.span.credits, ctl := 1 } })
    h.st h.awake h.room h.remap 1
  refine ⟨g, x, State.frame_calm h.lanes ?_ rfl rfl, hs, ?_, hkind⟩
  · unfold State.frameServed
    rw [hu, hseq, if_pos (by simp), ← hx]
    exact State.frameGood_plain (s := s.frameCounted f) hk hslots h.records
  · have hlt : s.span.rxNext < 65536 := by
      rw [← hseq]
      exact Nat.mod_lt _ (Nat.two_pow_pos 16)
    rw [ha]
    dsimp only
    omega

/-- R402: a failed frame counts, and may make the receiving direction retrain. -/
theorem State.rxFails_shape (u : Option Nat) (seq : Nat) (s : State) :
    ∃ n l x, s.rxFails u seq = { s with span := { s.span with rxNaks := n, lane := l, rx := x } } := by
  unfold State.rxFails
  split
  · exact ⟨s.span.rxNaks, s.span.lane, s.span.rx, rfl⟩
  · split
    · exact ⟨_, _, _, rfl⟩
    · exact ⟨_, s.span.lane, s.span.rx, rfl⟩

/-- R401: a frame that is rejected is counted and logged. -/
theorem State.frameBad_logs {s : State} (hb : s.bad = []) (u seq : Nat) :
    ∃ c g n l x, s.frameBad (some u) seq = State.ackFrame 2 { s with
      ctr := c, sig := g, elog := (s.logSpan 0x020 (s.laneOf u) s.span.rxWidth 0).elog,
      span := { s.span with rxNaks := n, lane := l, rx := x } } := by
  obtain ⟨n, l, x, hr⟩ := State.rxFails_shape (some u) seq s
  obtain ⟨c, g, hcount⟩ : ∃ c g, (s.rxFails (some u) seq).countN Ev.spanReplay none 1 =
      { s.rxFails (some u) seq with ctr := c, sig := g } := ⟨_, _, State.countN_calm _ _ _ _ (by rw [hr]; exact hb)⟩
  refine ⟨c, g, n, l, x, ?_⟩
  unfold State.frameBad State.count
  dsimp only
  rw [hcount, hr]
  rfl

/-- R401: a frame that is rejected is answered with a nak, in a frame of the link's own. -/
theorem State.frameBad_leaves {s : State} (hb : s.bad = []) (hst : s.span.st = .active) (ha : s.asleep = false)
    (hl : s.span.replay.length < 128) (hm : s.span.remap = []) (u seq : Nat) :
    ∃ c g p, ∃ h : FrameHdr, s.frameBad (some u) seq = { s with
        ctr := c, sig := g, elog := (s.logSpan 0x020 (s.laneOf u) s.span.rxWidth 0).elog, out := s.out ++ [.span h none], span := p } ∧
      p.rxNext = s.span.rxNext ∧ p.credits = s.span.credits ∧ p.laneErr = s.span.laneErr ∧ p.rxFailed = s.span.rxFailed ∧
      h.seq = s.span.txSeq ∧ h.ack = (s.span.rxNext + 65535) % 65536 ∧ h.kind = 2 := by
  obtain ⟨c, g, n, l, x, hlog⟩ := State.frameBad_logs hb u seq
  rw [hlog]
  obtain ⟨g', h, hx, hseq, hack, hkind⟩ := State.ackFrame_leaves (s := { s with
      ctr := c, sig := g, elog := (s.logSpan 0x020 (s.laneOf u) s.span.rxWidth 0).elog,
      span := { s.span with rxNaks := n, lane := l, rx := x } }) hst ha hl hm 2
  exact ⟨_, _, _, h, hx, rfl, rfl, rfl, rfl, hseq, hack, hkind⟩

theorem State.Answers.frame_bad {s : State} {f : SpanFrame} (h : s.Answers f) {u : Nat} (hu : badUnit f = some u) :
    ∃ c g p, ∃ x : FrameHdr, s.frame f = { s with
        ctr := c, sig := g, elog := (s.logSpan 0x020 (s.laneOf u) s.span.rxWidth 0).elog, out := s.out ++ [.span x none], span := p } ∧
      p.rxNext = s.span.rxNext ∧ p.credits = s.span.credits ∧
      x.seq = s.span.txSeq ∧ x.ack = (s.span.rxNext + 65535) % 65536 ∧ x.kind = 2 := by
  obtain ⟨c, g, p, x, hx, hn, hc, hl, hf, hs, ha, hk⟩ := State.frameBad_leaves (s := s.frameCounted f) h.bad h.st h.awake h.room h.remap u
    (bits (headerOf f) 15 0)
  refine ⟨c, g, p, x, State.frame_calm h.lanes ?_ hl hf, hn, hc, hs, ha, hk⟩
  unfold State.frameServed
  rw [hu, if_neg (by simp), hx]
  rfl

/-! ### A nak (R401, R402) -/

theorem State.AtRest.exec_spanNak {s : State} (h : s.AtRest) (hrx : s.span.rx = .active) {ack : Nat}
    (hall : ∀ x ∈ s.span.replay, (ack + 65536 - x.1.seq) % 65536 < 32768) :
    exec (.spanNak ack) s = .next (State.settle { s.fresh0 with span := { s.span with replay := [], naks := 0 } }) := by
  have hup : (s.span.rx == .active && !s.asleep) = true := by simp [hrx, h.awake]
  have hacked : s.fresh0.spanAcked ack = { s.fresh0 with span := { s.span with replay := [] } } := by
    have hfilter : (s.span.replay.filter fun (x : FrameHdr × Option SpanRec) =>
        !((ack + 65536 - x.1.seq) % 65536 < 32768)) = [] :=
      List.filter_eq_nil_iff.2 fun x hx => by simp [hall x hx]
    unfold State.spanAcked
    dsimp only [State.fresh0_span]
    rw [hfilter]
  have hnak : s.fresh0.nak ack = { s.fresh0 with span := { s.span with replay := [], naks := 0 } } := by
    unfold State.nak
    dsimp only
    rw [hacked]
    rfl
  show finish (if s.span.rx == .active && !s.asleep then (s.fresh0.nak ack).spanFlush else s.fresh0) = _
  rw [if_pos hup, hnak, State.spanFlush_calm (by exact h.records), finish_of_service (by exact h.service)]

/-! ### Lanes (R402, R403) -/

/-- R402: a lane of the receiving direction that is lost while 4 are left. -/
theorem State.laneFails_link {s : State} (hb : s.bad = []) (hm : s.span.remap = []) {lane : Nat}
    (hn : 4 ≤ (goodLanes (s.span.rxFailed ||| BitVec.ofNat 18 (2 ^ lane))).length) :
    s.LinkOnly (s.laneFails lane) ∧ (s.laneFails lane).Crosses (.retire lane s.span.rxNext) ∧
      (s.laneFails lane).span.rxFailed = s.span.rxFailed ||| BitVec.ofNat 18 (2 ^ lane) ∧ (s.laneFails lane).span.st = s.span.st ∧
      (s.laneFails lane).span.rx = (if (goodLanes (s.span.rxFailed ||| BitVec.ofNat 18 (2 ^ lane))).length < s.span.rxWidth
        then .retrain else s.span.rx) := by
  have hsent := State.spanSend_crosses (s := { s with span := { s.span with
    rxFailed := s.span.rxFailed ||| BitVec.ofNat 18 (2 ^ lane), lane := lane, laneErr := s.span.laneErr.set lane (0, []) } }) hb hm
    (.retire lane s.span.rxNext)
  have hlink := (s.linkOnly_span { s.span with
    rxFailed := s.span.rxFailed ||| BitVec.ofNat 18 (2 ^ lane), lane := lane, laneErr := s.span.laneErr.set lane (0, []) }).trans
    (State.linkOnly_spanSend (.retire lane s.span.rxNext) hb)
  obtain ⟨hcross, hsame⟩ := hsent
  unfold State.laneFails
  dsimp only at hcross hsame hlink ⊢
  rw [if_neg (Nat.not_lt.2 hn), hsame.rxWidth]
  split
  · exact ⟨hlink.trans (State.linkOnly_span _ _), hcross, hsame.rxFailed, hsame.st, rfl⟩
  · exact ⟨hlink, hcross, hsame.rxFailed, hsame.st, hsame.rx⟩

section

variable {s : State} (hm : s.span.remap = []) {lane : Nat}

include hm

/-- R403: with too few lanes for the width the sending direction retrains. -/
theorem State.laneRetired_retrains (seq : Nat) (hn : 4 ≤ (goodLanes (s.span.failed ||| BitVec.ofNat 18 (2 ^ lane))).length)
    (hlt : (goodLanes (s.span.failed ||| BitVec.ofNat 18 (2 ^ lane))).length < s.span.width) :
    s.laneRetired lane seq = { s with span := { s.span with
      failed := s.span.failed ||| BitVec.ofNat 18 (2 ^ lane), remap := [], lane := lane, st := .retrain } } := by
  unfold State.laneRetired
  rw [hm]
  exact (if_pos hlt).trans (if_neg (Nat.not_lt.2 hn))

/-- R402: with lanes enough a lane is retired at a frame that has not been sent. -/
theorem State.laneRetired_waits {seq : Nat} (hge : s.span.width ≤ (goodLanes (s.span.failed ||| BitVec.ofNat 18 (2 ^ lane))).length)
    (h0 : 0 < (seq + 65536 - s.span.txSeq) % 65536) (h1 : (seq + 65536 - s.span.txSeq) % 65536 < 32768) :
    s.laneRetired lane seq = { s with span := { s.span with remap := [(lane, seq)] } } := by
  unfold State.laneRetired
  rw [hm]
  exact (if_neg (Nat.not_lt.2 hge)).trans (if_pos (by simp [h0, h1]))

/-- R402: and at once where the frame has been sent or is the next one. -/
theorem State.laneRetired_now {seq : Nat} (hge : s.span.width ≤ (goodLanes (s.span.failed ||| BitVec.ofNat 18 (2 ^ lane))).length)
    (h : ¬ (0 < (seq + 65536 - s.span.txSeq) % 65536 ∧ (seq + 65536 - s.span.txSeq) % 65536 < 32768)) :
    ∃ e g, s.laneRetired lane seq = { s with
      span := { s.span with failed := s.span.failed ||| BitVec.ofNat 18 (2 ^ lane), lane := lane }, elog := e, sig := g,
      out := s.out ++ s.span.replay.map fun x => .span x.1 x.2 } := by
  have hnow : s.laneRetired lane seq = s.remapLane lane := by
    unfold State.laneRetired
    rw [hm]
    exact (if_neg (Nat.not_lt.2 hge)).trans (if_neg (by simpa using h))
  exact ⟨(s.remapLane lane).elog, (s.remapLane lane).sig, hnow⟩

end

/-- The commands of the lanes end in a slice in `SERVICE`, where what they sent and what the link became stand. -/
theorem State.LinkOnly.next {s t : State} (h : s.fresh0.LinkOnly t) (hs : s.power.state = .service) :
    finish t = .next t.settle ∧ t.arr = s.arr ∧ t.dir = s.dir ∧ t.wins = s.wins ∧ t.cfg = s.cfg := by
  obtain ⟨_, _, _, _, _, _, _, rfl⟩ := h
  exact ⟨finish_of_service (by exact hs), rfl, rfl, rfl, rfl⟩

theorem exec_laneFailure {s : State} {lane : Nat} (hrx : s.span.rx = .active) (hl : lane < 18)
    (hf : s.span.rxFailed.getLsbD lane = false) : exec (.laneFailure lane) s = finish (s.fresh0.laneFails lane) := by
  have hdue : (s.span.rx == .active && lane < 18 && !s.span.rxFailed.getLsbD lane) = true := by
    rw [hrx, hf, decide_eq_true hl]
    rfl
  exact if_pos hdue

theorem exec_retire {s : State} {lane seq : Nat} (hup : s.linkUp = true) (hst : s.span.st = .active) (hl : lane < 18)
    (hf : s.span.failed.getLsbD lane = false) :
    exec (.retire lane seq) s =
      finish ((s.fresh0.owe (SpanRec.retire lane seq).chan (SpanRec.retire lane seq).slots).laneRetired lane seq) := by
  have hdue : (s.span.st == .active && lane < 18 && !s.span.failed.getLsbD lane) = true := by
    rw [hst, hf, decide_eq_true hl]
    rfl
  have hup' : s.fresh0.linkUp = true := hup
  show finish (if s.fresh0.linkUp then _ else s.fresh0) = _
  rw [if_pos hup']
  exact congrArg finish (if_pos hdue)

/-- R402, R403: what a `RETIRE` makes of a link that runs, by the lanes that are left and by the frame that it names. -/
theorem State.AtRest.exec_retire {s : State} (h : s.AtRest) {lane seq : Nat} (hrx : s.span.rx = .active) (hup : s.linkUp = true)
    (hst : s.span.st = .active) (hl : lane < 18) (hm : s.span.remap = []) (hf : s.span.failed.getLsbD lane = false)
    (hn : 4 ≤ (goodLanes (s.span.failed ||| BitVec.ofNat 18 (2 ^ lane))).length) :
    ∃ t, exec (.retire lane seq) s = .next t ∧ t.span.rx = .active ∧
      ((goodLanes (s.span.failed ||| BitVec.ofNat 18 (2 ^ lane))).length < s.span.width →
        t.span.failed = s.span.failed ||| BitVec.ofNat 18 (2 ^ lane) ∧ t.span.st = .retrain) ∧
      (s.span.width ≤ (goodLanes (s.span.failed ||| BitVec.ofNat 18 (2 ^ lane))).length → seq = s.span.txSeq →
        t.span.failed = s.span.failed ||| BitVec.ofNat 18 (2 ^ lane) ∧ t.span.st = .active ∧
          t.out = s.span.replay.map (fun x => .span x.1 x.2)) ∧
      (s.span.width ≤ (goodLanes (s.span.failed ||| BitVec.ofNat 18 (2 ^ lane))).length →
        0 < (seq + 65536 - s.span.txSeq) % 65536 → (seq + 65536 - s.span.txSeq) % 65536 < 32768 →
          t.span.failed = s.span.failed ∧ t.span.remap = [(lane, seq)] ∧ t.span.st = .active ∧ t.out = []) ∧
      t.arr = s.arr ∧ t.dir = s.dir ∧ t.wins = s.wins ∧ t.cfg = s.cfg := by
  rw [Machine.exec_retire hup hst hl hf]
  rcases Nat.lt_or_ge (goodLanes (s.span.failed ||| BitVec.ofNat 18 (2 ^ lane))).length s.span.width with hlt | hge
  · rw [State.laneRetired_retrains (s := State.owe _ _ s.fresh0) hm seq hn hlt, finish_of_service (by exact h.service)]
    exact ⟨_, rfl, hrx, fun _ => ⟨rfl, rfl⟩, fun hge => absurd hlt (Nat.not_lt.2 hge), fun hge => absurd hlt (Nat.not_lt.2 hge),
      rfl, rfl, rfl, rfl⟩
  · by_cases hahead : 0 < (seq + 65536 - s.span.txSeq) % 65536 ∧ (seq + 65536 - s.span.txSeq) % 65536 < 32768
    · rw [State.laneRetired_waits (s := State.owe _ _ s.fresh0) hm hge hahead.1 hahead.2, finish_of_service (by exact h.service)]
      refine ⟨_, rfl, hrx, fun hlt => absurd hlt (Nat.not_lt.2 hge), fun _ hseq => ?_, fun _ _ _ => ⟨rfl, rfl, hst, rfl⟩,
        rfl, rfl, rfl, rfl⟩
      rw [hseq] at hahead
      omega
    · obtain ⟨e, g, hnow⟩ := State.laneRetired_now
        (s := s.fresh0.owe (SpanRec.retire lane seq).chan (SpanRec.retire lane seq).slots) hm hge hahead
      rw [hnow, finish_of_service (by exact h.service)]
      exact ⟨_, rfl, hrx, fun hlt => absurd hlt (Nat.not_lt.2 hge), fun _ _ => ⟨rfl, hst, rfl⟩,
        fun _ h0 h1 => absurd ⟨h0, h1⟩ hahead, rfl, rfl, rfl, rfl⟩

/-! ### The `DOWN` time limit (R404) -/

/-- R404: in a slice at rest with one open relay entry and no agent of the far half the time limit answers that entry. -/
theorem State.AtRest.giveUp {s : State} (h : s.AtRest) {r : Relay} (hp : s.prov = []) (hr : s.span.relays = [r])
    (ht : r.timedOut = false) (ha : r.ackWait = false) (hf : s.farAgents = []) :
    s.giveUp = { s.respond r.port r.txid none .timeout with
      span := { s.span with relays := [], waitTx := [], replay := [], farDown := true } } := by
  obtain ⟨_, _, _, _, _, _, _, _, _, hx⟩ := (State.metered_respond r.port r.txid .timeout h.bad).shape
  have hopen : ¬ (r.timedOut || r.ackWait) = true := by simp [ht, ha]
  unfold State.giveUp
  rw [hf]
  dsimp only [List.foldl_nil]
  rw [hr]
  dsimp only [List.foldl_cons, List.foldl_nil]
  rw [if_neg hopen, hx]
  dsimp only
  rw [h.waiting]
  exact State.Still.tidy { h.toStill with waiting := rfl, records := rfl } hp

/-- R404: the time limit counts for a slice in `SERVICE` whose port is `DOWN`. -/
theorem State.AtRest.exec_spanDownTimeout {s : State} (h : s.AtRest) (hs : s.power.straps.split = true) (hst : s.span.st = .down)
    (hd : s.span.farDown = false) : exec .spanDownTimeout s = finish s.fresh0.giveUp := by
  have hdue : (s.power.straps.split && s.gate == .serve && !s.span.st.trained && !s.span.farDown) = true := by
    rw [hs, h.gate, hst, hd]
    rfl
  exact if_pos hdue

end Sys2Proof.Machine

open Sys2Proof Sys2Proof.Machine

/-- Settles O54: each clause from the lemma about its event (`State.Answers.frame_good`, `State.Answers.frame_bad`,
`State.AtRest.exec_spanNak`, `State.laneFails_link`, `State.AtRest.exec_retire`, `State.AtRest.giveUp`). -/
theorem spanFramesAndLanes : Obligations.SpanFramesAndLanes := by
  refine ⟨fun s f h hst hrx hroom hm hlanes => ?_, fun s ack h hrx hall => ⟨_, h.exec_spanNak hrx hall, rfl, rfl, rfl, rfl, rfl, rfl⟩,
    fun s lane h hrx hl hm => ⟨fun hf hn => ?_, fun seq hup hst hf hn => h.exec_retire hrx hup hst hl hm hf hn⟩,
    fun s r h hp hs hst hd hr ht ha hfar => ?_⟩
  · have hans : s.Answers f := { h with st := hst, rx := hrx, room := hroom, remap := hm, lanes := hlanes }
    have hans' : s.fresh0.Answers f := { h.fresh0 with st := hst, rx := hrx, room := hroom, remap := hm, lanes := hlanes }
    rw [hans.exec_spanFrame]
    refine ⟨fun hu hseq hk hslots => ?_, fun u hu => ?_⟩
    · obtain ⟨g, x, hx, hxs, hxa, hxk⟩ := hans'.frame_good hu hseq hk hslots
      rw [hx, finish_of_service (by exact h.service)]
      exact ⟨_, x, rfl, rfl, hxs, hxa, hxk, rfl, rfl, rfl, rfl, rfl, rfl, rfl, rfl⟩
    · obtain ⟨c, g, p, x, hx, hn, hc, hxs, hxa, hxk⟩ := hans'.frame_bad hu
      rw [hx, finish_of_service (by exact h.service)]
      exact ⟨_, x, rfl, rfl, hxs, hxa, hxk, hn, hc, rfl, rfl, rfl, rfl, rfl⟩
  · obtain ⟨hlink, hcross, hfail, hst, hrx'⟩ := State.laneFails_link (s := s.fresh0) h.bad hm hn
    obtain ⟨hnext, harr, hdir, hwins, hcfg⟩ := hlink.next h.service
    rw [exec_laneFailure hrx hl hf, hnext]
    refine ⟨_, rfl, hfail, hst, hrx'.trans ?_, hcross, harr, hdir, hwins, hcfg⟩
    rw [State.fresh0_span, hrx]
  · have hsend := State.sends_respond r.port r.txid .timeout 0 false s.fresh0
    obtain ⟨_, _, _, _, _, _, _, _, _, _, _, _, _, _, hx⟩ := (State.outer_respond r.port r.txid .timeout 0 false s.fresh0).shape h.bad
    rw [h.exec_spanDownTimeout hs hst hd, h.fresh0.giveUp hp hr ht ha hfar]
    rw [hx] at hsend ⊢
    rw [finish_of_service (by exact h.service)]
    exact ⟨_, rfl, hsend, rfl, rfl, rfl, rfl, rfl, rfl, rfl, rfl⟩

end
